-- ==== Sys2Proof/Word.lean ====
section
/-! DEFINITION. The words of the LMA9600 and their plainest arithmetic: bytes, 32-bit registers, 64-bit
g-registers, the numbers of shades, prisms and tiles (R1, R13, R14), and little-endian reading (R7). -/

namespace Sys2Proof

/-- One byte of any memory. -/
abbrev Byte := BitVec 8
/-- A 32-bit register (R514). -/
abbrev W32 := BitVec 32
/-- A 64-bit word: a g-register (R238), a bundle slot (R216), a descriptor word (R240). -/
abbrev W64 := BitVec 64
/-- A shade number (R13). -/
abbrev ShadeIx := Fin 16
/-- A physical prism number (R13). -/
abbrev PPrism := Fin 52
/-- A logical prism number (R13). -/
abbrev LPrism := Fin 48
/-- A tile number within its prism (R13). -/
abbrev TileIx := Fin 8
/-- A problem number of a tile (R53). -/
abbrev ProbIx := Fin 4

/-- Bits [hi:lo] of a number, as the tables of the spec name a field. -/
def bitsOf (w hi lo : Nat) : Nat := (w / 2 ^ lo) % 2 ^ (hi + 1 - lo)

/-- Bit i of a number. -/
def bitOf (w i : Nat) : Bool := (w / 2 ^ i) % 2 = 1

/-- 1 for true, 0 for false. -/
def b2n (b : Bool) : Nat := if b then 1 else 0

/-- A number of n bits read as two's complement. -/
def sextN (n w : Nat) : Int := if 2 * (w % 2 ^ n) < 2 ^ n then (w % 2 ^ n : Nat) else (w % 2 ^ n : Nat) - (2 ^ n : Nat)

/-- The number whose little-endian bytes are the list (R7). -/
def leNat : List Byte → Nat
  | [] => 0
  | b :: bs => b.toNat + 256 * leNat bs

/-- The n little-endian bytes of a number (R7). -/
def leBytes : Nat → Nat → List Byte
  | 0, _ => []
  | n + 1, w => BitVec.ofNat 8 w :: leBytes n (w / 256)

/-- The number of set bits among the low n bits. -/
def popBits : Nat → Nat → Nat
  | 0, _ => 0
  | n + 1, w => w % 2 + popBits n (w / 2)

/-- Ceiling division. -/
def ceilDiv (a b : Nat) : Nat := (a + b - 1) / b

end Sys2Proof
end

