-- ==== Sys2Proof/Messages.lean ====
section
/-! DEFINITION. What Jorx links carry (chapter 13, R356 to R361): messages with their heads and bodies, and the control flits. A field
whose place in a message the spec does not give (the remote descriptor number, the part, the elements' scales) is a field here. -/

namespace Sys2Proof

/-- A device ID (R363). -/
abbrev DevId := BitVec 14
/-- A Jorx port of the device (R355). -/
abbrev PortIx := Fin 20
/-- A collective group of a shade (R373). -/
abbrev GroupIx := Fin 8

/-- The fields of the message head that do not depend on the type (R359). -/
structure Head where
  dst : DevId
  src : DevId
  dshade : ShadeIx
  sshade : ShadeIx
  /-- epochs of the source, and of the destination as the source records it -/
  sepoch : BitVec 16
  depoch : BitVec 16
  seq : W32
  /-- data bytes -/
  len : BitVec 13
  /-- dimension of the last pane hop, and whether the message is on a B channel since (R358) -/
  ldim : BitVec 2
  vcB : Bool
  /-- the routing copy it was injected under (R365) -/
  tsel : Bool
  deriving DecidableEq, Repr

/-- What a message says of the tensors it moves between (R369, R370): the remote descriptor, the sixteen words of the sender's own, the
part, the position of the prism in its shade and the sender's prisms. -/
structure MsgTD where
  rtd : BitVec 8
  words : List W64
  part : BitVec 2
  pos : Nat
  prisms : Nat
  deriving DecidableEq, Repr

/-- One thing a message moves: an element of a dense tensor by its logical index; a cell of a block, a group header, an offset-table
entry or a tile scale of a BSG tensor. -/
inductive Item where
  | el (i code scale ts : Nat)
  | cell (rho bc k code scale : Nat)
  | hdr (rho g w : Nat)
  | ofs (k v : Nat)
  | tsc (rho bc v : Nat)
  deriving DecidableEq, Repr

/-- The identity of a collective: the group's GID and its number (R374). -/
structure CollId where
  gid : BitVec 16
  number : Nat
  deriving DecidableEq, Repr

/-- The management collectives (R367, R383, R384). -/
inductive MgmtKind where
  | swap
  | snap
  | areset
  deriving DecidableEq, Repr

/-- The bodies of messages by type (R359). -/
inductive Body where
  | put (t : MsgTD) (items : List Item)
  | ack (seq : W32)
  | nack (get : Bool) (arg : W64)
  | getReq (t : MsgTD) (first count tag : Nat)
  | getData (tag : Nat) (items : List Item)
  | arrive (c : CollId) (lowest : DevId) (words : List W64) (dead : Bool)
  | release (c : CollId) (time : W64) (words : List W64) (dead : Bool)
  | bcastData (c : CollId) (t : MsgTD) (items : List Item)
  | dead (x : DevId) (epoch : BitVec 16)
  | alive (x : DevId) (epoch : BitVec 16)
  | join (epoch : BitVec 16)
  | probe (reply : Bool)
  | marrive (k : MgmtKind) (armed : Bool)
  | mrelease (k : MgmtKind) (time : W64) (ok : Bool)
  | reserved (typ : BitVec 8)
  deriving DecidableEq, Repr

/-- A message. -/
structure Msg where
  head : Head
  body : Body
  deriving DecidableEq, Repr

/-- A HELLO control flit (R355): the peer's ID, whether it is valid, its port and its epoch. -/
structure HelloFlit where
  dev : DevId
  port : BitVec 5
  epoch : BitVec 16
  deriving DecidableEq, Repr

/-- Why a received flit is discarded (R357, R358). -/
inductive FlitBad where
  | crc
  | fec
  | reserved
  deriving DecidableEq, Repr

/-- What a release reaches: a group's collective, or the management tree's. -/
inductive RelTarget where
  | group (sh : ShadeIx) (g : GroupIx)
  | mgmt
  deriving DecidableEq, Repr

end Sys2Proof
end

