-- ==== Sys2Proof/Slots.lean ====
section
/-! DEFINITION. The operations of a bundle's sixteen slots (chapter 08, R215 to R246): one constructor per opcode of every slot
class, with the fields the opcode uses. A field an opcode does not use is not here: the decoder refuses it unless 0 (R219). -/

namespace Sys2Proof

/-- A g-register number (R14). -/
abbrev GReg := BitVec 6
/-- The token an operation names: none when TV = 0 (R219). -/
abbrev Tok := Option (BitVec 6)

/-- The count of a LOOP or REPEAT: an immediate or a register (R234, R235). -/
inductive CountSrc where
  | imm (n : BitVec 16)
  | reg (g : GReg)
  deriving DecidableEq, Repr

/-- The modes of WAIT (R243). -/
inductive WaitMode where
  | all (g : GReg)
  | any (g : GReg)
  | one (tok : BitVec 6)
  deriving DecidableEq, Repr

/-- The target of a BR: an absolute bundle address or a register (R233). -/
inductive BrTarget where
  | abs (target : BitVec 14)
  | reg (g : GReg)
  deriving DecidableEq, Repr

/-- The operations of slot 0 (R232). -/
inductive CtlOp where
  | br (t : BrTarget)
  | loop (lc : BitVec 2) (count : CountSrc) (endAddr : BitVec 14)
  | wait (m : WaitMode)
  | yield (stepEnd : Bool)
  | halt (code : BitVec 16)
  | bpl (frame : BitVec 6) (g : GReg) (tok : Tok)
  | repeat (count : CountSrc)
  | phase (ph : BitVec 3)
  deriving DecidableEq, Repr

/-- The comparisons of CMP and CMPI (R239). -/
inductive Cond where
  | eq | ne | lts | les | ltu | leu | tst | ntst
  deriving DecidableEq, Repr

/-- The functions of PLOG (R239). -/
inductive PFn where
  | and | or | xor | andn
  deriving DecidableEq, Repr

/-- The two-operand arithmetic of the scalar map (R239). -/
inductive AluOp where
  | add | sub | mul | and | or | xor | shl | shr | sar | minu | maxu
  deriving DecidableEq, Repr

/-- A descriptor word named by RDD or DWR (R240). -/
inductive DescRef where
  | td (num : BitVec 8) (word : BitVec 4)
  | mo (num : BitVec 6) (word : BitVec 3)
  | cd (num : BitVec 6) (word : BitVec 3)
  | layer (num : BitVec 8) (word : BitVec 3)
  | ld (num : BitVec 5) (word : BitVec 4) (tiles : BitVec 8)
  deriving DecidableEq, Repr

/-- The operations of slots 1 and 2 (R239). -/
inductive ScalarOp where
  | movi (gd : GReg) (imm : BitVec 32)
  | mov (gd ga : GReg)
  | alu (op : AluOp) (gd ga gb : GReg)
  | addi (gd ga : GReg) (imm : BitVec 32)
  | cmp (pd : BitVec 4) (c : Cond) (ga gb : GReg)
  | cmpi (pd : BitVec 4) (c : Cond) (ga : GReg) (imm : BitVec 32)
  | plog (pd : BitVec 4) (f : PFn) (pa pb : BitVec 4)
  | ldp (gd ga : GReg) (tok : Tok)
  | stp (ga gb : GReg) (tok : Tok)
  | rdd (gd : GReg) (d : DescRef)
  | dwr (ga : GReg) (d : DescRef)
  | rds (gd : GReg) (sel : Fin 10)
  deriving DecidableEq, Repr

/-- The opcodes of slots 3 and 4 (R245). -/
inductive ArrayOpc where
  | mm | mms | dist | store | zero
  deriving DecidableEq, Repr

/-- The fields of slots 3 and 4 (R245). -/
structure ArrayArgs where
  tiles : BitVec 8
  p : ProbIx
  ld : BitVec 5
  tok : Tok
  deriving DecidableEq, Repr

/-- The opcodes of slots 5 and 6 (R245). -/
inductive LensOpc where
  | chain | update
  deriving DecidableEq, Repr

/-- The fields of slots 5 and 6 (R245). -/
structure LensArgs where
  cd : BitVec 6
  g : GReg
  tok : Tok
  deriving DecidableEq, Repr

/-- The opcodes of slot 7 (R245). -/
inductive FocusOpc where
  | argmax | argmin | topk | sum | norm2
  deriving DecidableEq, Repr

/-- The fields of slot 7 (R245). -/
structure FocusArgs where
  tdi : BitVec 8
  tdv : BitVec 8
  tdx : BitVec 8
  g : GReg
  tok : Tok
  deriving DecidableEq, Repr

/-- The operations of slot 8 (R245), each with the fields it uses. -/
inductive MaskOp where
  | scomp (g : GReg) (tok : Tok) (td : BitVec 8) (tiles : BitVec 8) (td2 : BitVec 8)
  | prune (mo : BitVec 6) (g : GReg) (tok : Tok)
  | grow (mo : BitVec 6) (g : GReg) (tok : Tok)
  | mcommit (mo : BitVec 6)
  | mirrorBuild (mo : BitVec 6) (tok : Tok) (td : BitVec 8)
  | silh (mo : BitVec 6) (g : GReg) (tiles : BitVec 8) (p : ProbIx)
  deriving DecidableEq, Repr

/-- The operations of slots 9 to 11 (R245). BEAM 0 to 3 are prism Beams, 8 to 15 bulk Beams. -/
inductive BeamOp where
  | copy (beam : BitVec 4) (tds tdd : BitVec 8) (g : GReg) (tok : Tok)
  | scrub (beam : BitVec 4) (tdd : BitVec 8) (g : GReg) (tok : Tok)
  deriving DecidableEq, Repr

/-- The operators of SMALLRED (R245). -/
inductive RedOp where
  | sumU64 | maxS64 | sumF32 | maxF32
  deriving DecidableEq, Repr

/-- The operations of slot 12 (R245). -/
inductive JorxOp where
  | put (td : BitVec 8) (g : GReg) (tok : Tok)
  | get (td : BitVec 8) (g : GReg) (tok : Tok)
  | barrier (grp : BitVec 3) (tok : Tok)
  | flagred (g : GReg) (grp : BitVec 3) (tok : Tok)
  | smallred (g : GReg) (grp : BitVec 3) (rop : RedOp) (tok : Tok)
  | bcast (td : BitVec 8) (g : GReg) (grp : BitVec 3) (tok : Tok)
  deriving DecidableEq, Repr

/-- The operations of slot 13 (R245). -/
inductive SpkOp where
  | seed (g : GReg) (gen : Bool)
  | seedFresh (g : GReg) (gen : Bool) (tok : BitVec 6)
  | draw (g : GReg) (td : BitVec 8) (tok : Tok)
  | umbra (tok : Tok)
  deriving DecidableEq, Repr

/-- The counter actions of CNT (R245). -/
inductive CntAct where
  | freeze | thaw | snapshot | clear
  deriving DecidableEq, Repr

/-- The operations of slot 14 (R245). -/
inductive TelOp where
  | glint (td : BitVec 8) (g : GReg) (clr : Bool) (tok : Tok)
  | mark (code : BitVec 16)
  | cnt (act : CntAct)
  deriving DecidableEq, Repr

/-- One slot's operation. -/
inductive SlotOp where
  | hold
  | ctl (o : CtlOp)
  | scalar (o : ScalarOp)
  | array (o : ArrayOpc) (a : ArrayArgs)
  | lens (o : LensOpc) (a : LensArgs)
  | focus (o : FocusOpc) (a : FocusArgs)
  | mask (o : MaskOp)
  | beam (o : BeamOp)
  | jorx (o : JorxOp)
  | spk (o : SpkOp)
  | tel (o : TelOp)
  | ext (target : BitVec 4) (hi : BitVec 32)
  deriving DecidableEq, Repr

/-- A slot of a bundle: its number, its predicate selector (R216) and its operation. -/
structure Slot where
  ix : Nat
  psel : BitVec 4
  op : SlotOp
  deriving DecidableEq, Repr

/-! ## The fields of one row's operation, as a command carries them -/

/-- SCOMP (R245). -/
structure ScompArgs where
  g : GReg
  tok : Tok
  td : BitVec 8
  tiles : BitVec 8
  td2 : BitVec 8
  deriving DecidableEq, Repr

/-- PRUNE and GROW (R245). -/
structure PruneArgs where
  mo : BitVec 6
  g : GReg
  tok : Tok
  deriving DecidableEq, Repr

/-- MIRROR.BUILD (R245). -/
structure MirrorArgs where
  mo : BitVec 6
  tok : Tok
  td : BitVec 8
  deriving DecidableEq, Repr

/-- SILH (R245). -/
structure SilhArgs where
  mo : BitVec 6
  g : GReg
  tiles : BitVec 8
  p : ProbIx
  deriving DecidableEq, Repr

/-- SEED (R245). -/
structure SeedArgs where
  g : GReg
  gen : Bool
  deriving DecidableEq, Repr

/-- SEED.FRESH (R245): its token is mandatory. -/
structure FreshArgs where
  g : GReg
  gen : Bool
  tok : BitVec 6
  deriving DecidableEq, Repr

/-- DRAW (R245). -/
structure DrawArgs where
  g : GReg
  td : BitVec 8
  tok : Tok
  deriving DecidableEq, Repr

/-- GLINT (R245). -/
structure GlintArgs where
  td : BitVec 8
  g : GReg
  clr : Bool
  tok : Tok
  deriving DecidableEq, Repr

/-- COPY (R245). -/
structure CopyArgs where
  beam : BitVec 4
  tds : BitVec 8
  tdd : BitVec 8
  g : GReg
  tok : Tok
  deriving DecidableEq, Repr

/-- SCRUB (R245). -/
structure ScrubArgs where
  beam : BitVec 4
  tdd : BitVec 8
  g : GReg
  tok : Tok
  deriving DecidableEq, Repr

/-- PUT and GET (R245). -/
structure PutArgs where
  td : BitVec 8
  g : GReg
  tok : Tok
  deriving DecidableEq, Repr

/-- BARRIER (R245). -/
structure BarrierArgs where
  grp : BitVec 3
  tok : Tok
  deriving DecidableEq, Repr

/-- FLAGRED (R245). -/
structure FlagredArgs where
  g : GReg
  grp : BitVec 3
  tok : Tok
  deriving DecidableEq, Repr

/-- SMALLRED (R245). -/
structure SmallredArgs where
  g : GReg
  grp : BitVec 3
  rop : RedOp
  tok : Tok
  deriving DecidableEq, Repr

/-- BCAST (R245). -/
structure BcastArgs where
  td : BitVec 8
  g : GReg
  grp : BitVec 3
  tok : Tok
  deriving DecidableEq, Repr

end Sys2Proof
end

