-- ==== Sys2Proof/Syntax.lean ====
section
/-! DEFINITION. The commands of the block: one constructor per row of the operation table. -/

namespace Sys2Proof

/-- Who makes a register access (R515). -/
inductive Path where
  | firmware
  | pf
  | vf (s : ShadeIx)
  | i3c
  deriving DecidableEq, Repr

/-- Where a unit operation comes from: a one-slot bundle issued by this command, which the unit then starts if it can, or the
oldest operation of the row's kind that waits in its unit queue and may start (R228). -/
inductive Src (α : Type) where
  | issue (psel : BitVec 4) (a : α)
  | queued
  deriving DecidableEq, Repr

/-! ## What comes from outside with a command -/

/-- A page of a register space: of PF BAR0, or of a VF's BAR0 (R514, R518). -/
abbrev PageNo := BitVec 14

/-- The size of a register access (R514). -/
inductive AccSize where
  | b4 | b8 | other
  deriving DecidableEq, Repr

/-- A register access: its byte offset in the path's register space and its size (R514). -/
structure RegAddr where
  off : BitVec 26
  size : AccSize
  deriving DecidableEq, Repr

/-- A word of 8 bytes under SEC-DED (R276): tile scratch, pool, bundle store and descriptor file, by word number. -/
inductive SramWord where
  | ts (p : PPrism) (t : TileIx) (w : Nat)
  | pool (p : PPrism) (w : Nat)
  | store (p : PPrism) (w : Nat)
  | desc (p : PPrism) (w : Nat)
  deriving DecidableEq, Repr

/-- What a scrub of isolation state finds (R466). -/
inductive ScrubFound where
  | clean | corrected | uncorrectable
  deriving DecidableEq, Repr

/-- The part of a prism that a self-test finds at fault (R530). -/
inductive TestUnit where
  | tile | stencil | lens | focus | router | sensor
  deriving DecidableEq, Repr

/-- The result of a self-test (R467, R530). -/
inductive TestResult where
  | pass
  | fail (t : TileIx) (u : TestUnit)
  deriving DecidableEq, Repr

/-- Who asks for the maintenance token (R475). -/
inductive MaintWho where
  | firmware | pf | i3c
  deriving DecidableEq, Repr

/-- How a maintenance activity ends (R475). -/
inductive MaintEnd where
  | ok | failed | aborted
  deriving DecidableEq, Repr

/-- What the Dimmer samples at a tick (R479, R480): sensor temperatures in units of 0.25 °C, the sensors that lie far from their
neighbours' median (the spec does not name the neighbours), the 20 µs power and current and their 10 ms averages. -/
structure DimmerSample where
  temps : List Int
  far : List Nat
  watts : Nat
  wattsAvg : Nat
  amps : Nat
  ampsAvg : Nat
  deriving DecidableEq, Repr

/-- The reset pins (R495). -/
inductive ResetPin where
  | rst | perst
  deriving DecidableEq, Repr

/-- The deep-tier modules that boot finds: none, matching modules of a capacity in GiB and a rate in units of 100 MT/s, or modules
that do not match or fail training (R283, R501). -/
inductive DeepFit where
  | empty
  | fitted (gib : Nat) (rate : Nat)
  | failed
  deriving DecidableEq, Repr

/-- What boot meets (R499, R501): a VRM of a needed rail that does not answer, an HBM stack that fails training, the deep tier, the
self-tests that fail, and the PCIe link as trained (GT/s, lanes). -/
structure BootIn where
  vrmSilent : Bool
  hbmFails : Bool
  deep : DeepFit
  tests : List (PPrism × TestResult)
  pcieRate : Nat
  pcieWidth : Nat
  deriving DecidableEq, Repr

/-- I3C common command codes that bear on the dynamic address (R506). -/
inductive I3cCcc where
  | entdaa (a : BitVec 7)
  | setdasa (static a : BitVec 7)
  | setnewda (a : BitVec 7)
  | rstdaa
  | other
  deriving DecidableEq, Repr

/-- Events of the host link (R431). -/
inductive LinkEvent where
  | leftL0
  | retrained (rate width : Nat)
  | aerUncorrectable
  deriving DecidableEq, Repr

/-- The commands: one constructor per row of the operation table. -/
inductive Instr where
  /-- BUNDLE_ISSUE (R227) -/
  | bundleIssue (sh : ShadeIx)
  /-- BR (R233) -/
  | br (sh : ShadeIx) (psel : BitVec 4) (t : BrTarget)
  /-- LOOP (R234) -/
  | loop (sh : ShadeIx) (psel : BitVec 4) (lc : BitVec 2) (c : CountSrc) (endAddr : BitVec 14)
  /-- WAIT (R243) -/
  | wait (sh : ShadeIx) (psel : BitVec 4) (m : WaitMode)
  /-- YIELD (R236) -/
  | yield (sh : ShadeIx) (psel : BitVec 4) (stepEnd : Bool)
  /-- HALT (R237) -/
  | halt (sh : ShadeIx) (psel : BitVec 4) (code : BitVec 16)
  /-- BPL (R225) -/
  | bpl (sh : ShadeIx) (psel : BitVec 4) (frame : BitVec 6) (g : GReg) (tok : Tok)
  /-- REPEAT (R235) -/
  | repeat_ (sh : ShadeIx) (psel : BitVec 4) (c : CountSrc)
  /-- PHASE (R332) -/
  | phase (sh : ShadeIx) (psel : BitVec 4) (ph : BitVec 3)
  /-- MOVI (R239) -/
  | movi (sh : ShadeIx) (psel : BitVec 4) (gd : GReg) (imm : BitVec 32)
  /-- MOV (R239) -/
  | mov (sh : ShadeIx) (psel : BitVec 4) (gd : GReg) (ga : GReg)
  /-- ADD (R239) -/
  | add (sh : ShadeIx) (psel : BitVec 4) (gd : GReg) (ga : GReg) (gb : GReg)
  /-- SUB (R239) -/
  | sub (sh : ShadeIx) (psel : BitVec 4) (gd : GReg) (ga : GReg) (gb : GReg)
  /-- ADDI (R239) -/
  | addi (sh : ShadeIx) (psel : BitVec 4) (gd : GReg) (ga : GReg) (imm : BitVec 32)
  /-- MUL (R239) -/
  | mul (sh : ShadeIx) (psel : BitVec 4) (gd : GReg) (ga : GReg) (gb : GReg)
  /-- AND (R239) -/
  | and_ (sh : ShadeIx) (psel : BitVec 4) (gd : GReg) (ga : GReg) (gb : GReg)
  /-- OR (R239) -/
  | or_ (sh : ShadeIx) (psel : BitVec 4) (gd : GReg) (ga : GReg) (gb : GReg)
  /-- XOR (R239) -/
  | xor_ (sh : ShadeIx) (psel : BitVec 4) (gd : GReg) (ga : GReg) (gb : GReg)
  /-- SHL (R239) -/
  | shl (sh : ShadeIx) (psel : BitVec 4) (gd : GReg) (ga : GReg) (gb : GReg)
  /-- SHR (R239) -/
  | shr (sh : ShadeIx) (psel : BitVec 4) (gd : GReg) (ga : GReg) (gb : GReg)
  /-- SAR (R239) -/
  | sar (sh : ShadeIx) (psel : BitVec 4) (gd : GReg) (ga : GReg) (gb : GReg)
  /-- MINU (R239) -/
  | minu (sh : ShadeIx) (psel : BitVec 4) (gd : GReg) (ga : GReg) (gb : GReg)
  /-- MAXU (R239) -/
  | maxu (sh : ShadeIx) (psel : BitVec 4) (gd : GReg) (ga : GReg) (gb : GReg)
  /-- CMP (R239) -/
  | cmp (sh : ShadeIx) (psel : BitVec 4) (pd : BitVec 4) (cond : Cond) (ga : GReg) (gb : GReg)
  /-- CMPI (R239) -/
  | cmpi (sh : ShadeIx) (psel : BitVec 4) (pd : BitVec 4) (cond : Cond) (ga : GReg) (imm : BitVec 32)
  /-- PLOG (R239) -/
  | plog (sh : ShadeIx) (psel : BitVec 4) (pd : BitVec 4) (fn : PFn) (pa : BitVec 4) (pb : BitVec 4)
  /-- LDP (R239) -/
  | ldp (sh : ShadeIx) (psel : BitVec 4) (gd : GReg) (ga : GReg) (tok : Tok)
  /-- LDP_COMPLETE (R239) -/
  | ldpComplete (sh : ShadeIx)
  /-- STP (R239) -/
  | stp (sh : ShadeIx) (psel : BitVec 4) (ga : GReg) (gb : GReg) (tok : Tok)
  /-- RDD (R240) -/
  | rdd (sh : ShadeIx) (psel : BitVec 4) (gd : GReg) (d : DescRef)
  /-- DWR (R240) -/
  | dwr (sh : ShadeIx) (psel : BitVec 4) (ga : GReg) (d : DescRef)
  /-- RDS (R241) -/
  | rds (sh : ShadeIx) (psel : BitVec 4) (gd : GReg) (sel : Fin 10)
  /-- EXT (R246) -/
  | ext (sh : ShadeIx) (psel : BitVec 4) (target : BitVec 4) (hi : BitVec 32) (o : ScalarOp)
  /-- MM (R75) -/
  | mm (sh : ShadeIx) (src : Src ArrayArgs)
  /-- MMS (R135) -/
  | mms (sh : ShadeIx) (src : Src ArrayArgs)
  /-- DIST (R70) -/
  | dist (sh : ShadeIx) (src : Src ArrayArgs)
  /-- STORE (R60) -/
  | store (sh : ShadeIx) (src : Src ArrayArgs)
  /-- ZERO (R60) -/
  | zero (sh : ShadeIx) (src : Src ArrayArgs)
  /-- KBLOCK_START (R535) -/
  | kblockStart (prism : PPrism) (tile : TileIx)
  /-- DRAIN (R77) -/
  | drain (prism : PPrism) (tile : TileIx)
  /-- DRAIN_COMPLETE (R76) -/
  | drainComplete (prism : PPrism) (tile : TileIx)
  /-- COMBINE_PARTIAL (R269) -/
  | combinePartial (sh : ShadeIx) (n : Nat)
  /-- PRISM_PARTIAL (R269) -/
  | prismPartial (sh : ShadeIx) (n : Nat)
  /-- SCOMP (R533) -/
  | scomp (sh : ShadeIx) (src : Src ScompArgs)
  /-- PRUNE (R127) -/
  | prune (sh : ShadeIx) (src : Src PruneArgs)
  /-- GROW (R128) -/
  | grow (sh : ShadeIx) (src : Src PruneArgs)
  /-- MCOMMIT (R119) -/
  | mcommit (sh : ShadeIx) (src : Src (BitVec 6))
  /-- MIRROR_BUILD (R123) -/
  | mirrorBuild (sh : ShadeIx) (src : Src MirrorArgs)
  /-- SILH (R137) -/
  | silh (sh : ShadeIx) (src : Src SilhArgs)
  /-- MASK_PLANE_COPY (R119) -/
  | maskPlaneCopy (sh : ShadeIx) (mo : BitVec 6)
  /-- CHAIN (R168) -/
  | chain (sh : ShadeIx) (ctx : Bool) (src : Src LensArgs)
  /-- UPDATE (R185) -/
  | update (sh : ShadeIx) (ctx : Bool) (src : Src LensArgs)
  /-- ARGMAX (R186) -/
  | argmax (sh : ShadeIx) (src : Src FocusArgs)
  /-- ARGMIN (R186) -/
  | argmin (sh : ShadeIx) (src : Src FocusArgs)
  /-- TOPK (R186) -/
  | topk (sh : ShadeIx) (src : Src FocusArgs)
  /-- SUM (R191) -/
  | sum (sh : ShadeIx) (src : Src FocusArgs)
  /-- NORM2 (R186) -/
  | norm2 (sh : ShadeIx) (src : Src FocusArgs)
  /-- SEED (R201) -/
  | seed (sh : ShadeIx) (src : Src SeedArgs)
  /-- SEED_FRESH (R202) -/
  | seedFresh (sh : ShadeIx) (src : Src FreshArgs)
  /-- SEED_FRESH_COMPLETE (R202) -/
  | seedFreshComplete (sh : ShadeIx)
  /-- DRAW (R207) -/
  | draw (sh : ShadeIx) (src : Src DrawArgs)
  /-- UMBRA (R150) -/
  | umbra (sh : ShadeIx) (src : Src Tok)
  /-- GLINT (R397) -/
  | glint (sh : ShadeIx) (src : Src GlintArgs)
  /-- MARK (R453) -/
  | mark (sh : ShadeIx) (src : Src (BitVec 16))
  /-- CNT (R458) -/
  | cnt (sh : ShadeIx) (src : Src CntAct)
  /-- COPY (R297) -/
  | copy (sh : ShadeIx) (src : Src CopyArgs)
  /-- GATHER (R298) -/
  | gather (sh : ShadeIx) (src : Src CopyArgs)
  /-- SCATTER (R299) -/
  | scatter (sh : ShadeIx) (src : Src CopyArgs)
  /-- SCRUB (R301) -/
  | scrub (sh : ShadeIx) (src : Src ScrubArgs)
  /-- COMMIT_WRITE (R324) -/
  | commitWrite (sh : ShadeIx) (src : Src CopyArgs)
  /-- COMMIT_APPLY (R325) -/
  | commitApply (sh : ShadeIx)
  /-- PUT (R370) -/
  | put (sh : ShadeIx) (src : Src PutArgs)
  /-- GET (R370) -/
  | get (sh : ShadeIx) (src : Src PutArgs)
  /-- BARRIER (R374) -/
  | barrier (sh : ShadeIx) (src : Src BarrierArgs)
  /-- FLAGRED (R375) -/
  | flagred (sh : ShadeIx) (src : Src FlagredArgs)
  /-- SMALLRED (R375) -/
  | smallred (sh : ShadeIx) (src : Src SmallredArgs)
  /-- BCAST (R375) -/
  | bcast (sh : ShadeIx) (src : Src BcastArgs)
  /-- TOKEN_RELEASE (R242) -/
  | tokenRelease (sh : ShadeIx)
  /-- TOKEN_TIMEOUT (R244) -/
  | tokenTimeout (sh : ShadeIx)
  /-- BPL_COMPLETE (R225) -/
  | bplComplete (sh : ShadeIx)
  /-- YIELD_POINT (R236) -/
  | yieldPoint (sh : ShadeIx)
  /-- YIELD_LATE (R400) -/
  | yieldLate (sh : ShadeIx)
  /-- LANT_START (R249) -/
  | lantStart (sh : ShadeIx)
  /-- LANT_STOP (R249) -/
  | lantStop (sh : ShadeIx)
  /-- BPL_GO (R226) -/
  | bplGo (sh : ShadeIx)
  /-- PREEMPT (R413) -/
  | preempt (sh : ShadeIx)
  /-- FORCE (R414) -/
  | force (sh : ShadeIx)
  /-- ROLLBACK (R404) -/
  | rollback (sh : ShadeIx)
  /-- ROLLBACK_RESTORE (R405) -/
  | rollbackRestore (sh : ShadeIx)
  /-- BACKGROUND_DEFER_EXPIRY (R390) -/
  | backgroundDeferExpiry (sh : ShadeIx)
  /-- PADDED_DELIVERY (R391) -/
  | paddedDelivery (sh : ShadeIx) (late : Bool)
  /-- HEARTBEAT (R380) -/
  | heartbeat (port : PortIx)
  /-- HEARTBEAT_RECEIVE (R379) -/
  | heartbeatReceive (port : PortIx) (down : BitVec 32) (up : BitVec 32)
  /-- HEARTBEAT_MISS (R380) -/
  | heartbeatMiss (port : PortIx)
  /-- PORT_TRAINING (R355) -/
  | portTraining (port : PortIx) (ok : Bool)
  /-- PORT_RETRY_TIMER (R355) -/
  | portRetryTimer (port : PortIx)
  /-- PORT_LOCK_LOSS (R355) -/
  | portLockLoss (port : PortIx)
  /-- HELLO (R362) -/
  | hello (port : PortIx) (h : HelloFlit)
  /-- NAK (R357) -/
  | nak (port : PortIx) (lseq : BitVec 12)
  /-- MESSAGE_ROUTE (R366) -/
  | messageRoute (port : PortIx) (m : Msg)
  /-- PUT_MSG (R361) -/
  | putMsg (port : PortIx) (head : Head) (t : MsgTD) (items : List Item)
  /-- ACK_MSG (R359) -/
  | ackMsg (port : PortIx) (head : Head) (seq : W32)
  /-- NACK_MSG (R370) -/
  | nackMsg (port : PortIx) (head : Head) (get : Bool) (arg : W64)
  /-- GET_REQ_MSG (R361) -/
  | getReqMsg (port : PortIx) (head : Head) (t : MsgTD) (first : Nat) (count : Nat) (tag : Nat)
  /-- GET_DATA_MSG (R370) -/
  | getDataMsg (port : PortIx) (head : Head) (tag : Nat) (items : List Item)
  /-- ARRIVE_MSG (R374) -/
  | arriveMsg (port : PortIx) (head : Head) (c : CollId) (lowest : DevId) (words : List W64) (dead : Bool)
  /-- RELEASE_MSG (R374) -/
  | releaseMsg (port : PortIx) (head : Head) (c : CollId) (time : W64) (words : List W64) (dead : Bool)
  /-- RELEASE_TIME (R377) -/
  | releaseTime (t : RelTarget)
  /-- BCAST_DATA_MSG (R375) -/
  | bcastDataMsg (port : PortIx) (head : Head) (c : CollId) (t : MsgTD) (items : List Item)
  /-- DEAD_MSG (R380) -/
  | deadMsg (port : PortIx) (head : Head) (x : DevId) (epoch : BitVec 16)
  /-- ALIVE_MSG (R381) -/
  | aliveMsg (port : PortIx) (head : Head) (x : DevId) (epoch : BitVec 16)
  /-- JOIN_MSG (R381) -/
  | joinMsg (port : PortIx) (head : Head) (epoch : BitVec 16)
  /-- PROBE_MSG (R380) -/
  | probeMsg (port : PortIx) (head : Head) (reply : Bool)
  /-- MARRIVE_MSG (R374) -/
  | marriveMsg (port : PortIx) (head : Head) (k : MgmtKind) (armed : Bool)
  /-- MRELEASE_MSG (R374) -/
  | mreleaseMsg (port : PortIx) (head : Head) (k : MgmtKind) (time : W64) (ok : Bool)
  /-- ACK_TIMEOUT (R371) -/
  | ackTimeout (sh : ShadeIx)
  /-- SYNC_N_HIGH (R378) -/
  | syncNHigh
  /-- ENUM_FRAME (R364) -/
  | enumFrame (frame : BitVec 5)
  /-- ENUM_SEND (R364) -/
  | enumSend
  /-- ENUM_HEAD (R364) -/
  | enumHead
  /-- ENUM_TIMEOUT (R364) -/
  | enumTimeout
  /-- JOIN (R381) -/
  | join (path : Path)
  /-- SWAP (R367) -/
  | swap (path : Path)
  /-- SNAP (R383) -/
  | snap (path : Path)
  /-- SNAPSHOT_FREEZE_TIME (R383) -/
  | snapshotFreezeTime
  /-- ARESET (R384) -/
  | areset (path : Path)
  /-- ARRAY_RESET_TIME (R384) -/
  | arrayResetTime
  /-- NOISE_SAMPLE (R210) -/
  | noiseSample (bits : BitVec 4)
  /-- PATROL_READ (R276) -/
  | patrolRead (w : SramWord) (flips : BitVec 2)
  /-- ECC_WRITEBACK (R276) -/
  | eccWriteback (w : SramWord)
  /-- ISOLATION_SCRUB (R466) -/
  | isolationScrub (found : ScrubFound)
  /-- SELFTEST_WINDOW (R467) -/
  | selftestWindow (prism : PPrism) (result : TestResult)
  /-- SPARE_SUB (R472) -/
  | spareSub (prism : PPrism) (result : TestResult)
  /-- UNFENCE (R474) -/
  | unfence (prism : PPrism) (result : TestResult)
  /-- FLASH_WRITE (R503) -/
  | flashWrite (who : MaintWho) (data : Option (List Byte))
  /-- HBM_RETRAIN (R475) -/
  | hbmRetrain (who : MaintWho) (stack : Fin 8)
  /-- DEEP_RETRAIN (R475) -/
  | deepRetrain (who : MaintWho) (ctl : Fin 2)
  /-- FULL_SCRUB (R475) -/
  | fullScrub (who : MaintWho)
  /-- FW_UPDATE (R503) -/
  | fwUpdate (who : MaintWho) (data : Option (List Byte))
  /-- MAINT_RELEASE (R475) -/
  | maintRelease (result : MaintEnd)
  /-- DIMMER_TICK (R480) -/
  | dimmerTick (x : DimmerSample)
  /-- DVFS_SWITCH (R482) -/
  | dvfsSwitch
  /-- HBM_TEMP_POLL (R479) -/
  | hbmTempPoll (temps : List Nat)
  /-- VRM_POLL (R483) -/
  | vrmPoll (ok : List Bool)
  /-- PMBUS_ALERT (R507) -/
  | pmbusAlert (ok : List Bool)
  /-- DROOP (R481) -/
  | droop
  /-- DROOP_PERSIST (R481) -/
  | droopPersist
  /-- THERMTRIP (R484) -/
  | thermtrip
  /-- POWER_ON (R440) -/
  | powerOn
  /-- RESET_ASSERT (R495) -/
  | resetAssert (pin : ResetPin)
  /-- RESET_RELEASE (R495) -/
  | resetRelease
  /-- PF_FLR (R496) -/
  | pfFlr
  /-- BROWNOUT (R493) -/
  | brownout
  /-- RSTHELD (R497) -/
  | rstheld (pin : ResetPin)
  /-- BOOT (R499) -/
  | boot (b : BootIn)
  /-- PLL_FAIL (R501) -/
  | pllFail (pll : BitVec 4)
  /-- BOOT_READY (R499) -/
  | bootReady
  /-- SHADE_ENABLE (R420) -/
  | shadeEnable (path : Path) (sh : ShadeIx)
  /-- SHADE_RESET (R441) -/
  | shadeReset (path : Path) (sh : ShadeIx)
  /-- SHADE_RESET_SCRUB (R441) -/
  | shadeResetScrub (sh : ShadeIx)
  /-- SHADE_KILL (R442) -/
  | shadeKill (path : Path) (sh : ShadeIx)
  /-- VF_FLR (R421) -/
  | vfFlr (sh : ShadeIx)
  /-- VF_GONE (R421) -/
  | vfGone (numVfs : Fin 17)
  /-- BLK_OWNER_WRITE (R419) -/
  | blkOwnerWrite (path : Path) (page : PageNo) (v : BitVec 8)
  /-- MEM_OWNER_WRITE (R422) -/
  | memOwnerWrite (path : Path) (deep : Bool) (n : BitVec 8) (v : W32)
  /-- RETAIN_CLEAR (R422) -/
  | retainClear (path : Path) (n : BitVec 5) (v : W32)
  /-- UNIT_SCRUB_START (R423) -/
  | unitScrubStart (beam : Fin 8)
  /-- UNIT_SCRUB_COMPLETE (R423) -/
  | unitScrubComplete (beam : Fin 8)
  /-- PATTERN_BIND (R339) -/
  | patternBind (path : Path) (sh : ShadeIx) (n : BitVec 4) (v : W32)
  /-- BCN_ACTIVATE (R433) -/
  | bcnActivate (path : Path) (t : Fin 19) (v : W32)
  /-- BCN_COMPLETE (R433) -/
  | bcnComplete (path : Path) (t : Fin 19) (v : W32)
  /-- MODERATION_TIMER (R435) -/
  | moderationTimer (t : Fin 19)
  /-- BCN_SRC_WRITE (R436) -/
  | bcnSrcWrite (path : Path) (n : BitVec 10) (v : W32)
  /-- BCN_THRESH_WRITE (R434) -/
  | bcnThreshWrite (path : Path) (t : Fin 19) (v : W32)
  /-- RECORD_WRITE (R451) -/
  | recordWrite
  /-- AGQ_POP (R455) -/
  | agqPop (path : Path) (q : BitVec 8) (pseq : W32)
  /-- CNT_CTRL_FREEZE (R458) -/
  | cntCtrlFreeze (path : Path)
  /-- CNT_CTRL_THAW (R458) -/
  | cntCtrlThaw (path : Path)
  /-- CNT_CTRL_SNAPSHOT (R458) -/
  | cntCtrlSnapshot (path : Path)
  /-- CNT_CTRL_CLEAR (R458) -/
  | cntCtrlClear (path : Path)
  /-- SNAPSHOT_COLLECT (R459) -/
  | snapshotCollect
  /-- COUNTER_SELECT_WRITE (R457) -/
  | counterSelectWrite (path : Path) (page : PageNo) (k : Fin 8) (v : W32)
  /-- RSVD_CLR (R523) -/
  | rsvdClr (path : Path) (page : PageNo)
  /-- CNT_CLR (R523) -/
  | cntClr (path : Path) (page : PageNo)
  /-- ERR_INJECT (R524) -/
  | errInject (path : Path) (page : PageNo) (v : W32)
  /-- READ_TO_CLEAR (R15) -/
  | readToClear (path : Path) (addr : RegAddr)
  /-- TB_LO_READ (R526) -/
  | tbLoRead (path : Path)
  /-- REGISTER_WRITE (R521) -/
  | registerWrite (path : Path) (addr : RegAddr) (v : W64)
  /-- I3C_TRANSFER (R506) -/
  | i3cTransfer (page : Byte) (off : BitVec 16) (data : Option W32)
  /-- NOP (R530) -/
  | nop (path : Path)
  /-- VERSION (R530) -/
  | version (path : Path)
  /-- READ_RECORD (R530) -/
  | readRecord (path : Path)
  /-- READ_FLASH (R530) -/
  | readFlash (path : Path)
  /-- SELFTEST (R530) -/
  | selftest (path : Path)
  /-- MBX_DONE (R531) -/
  | mbxDone
  /-- BYPASS (R508) -/
  | bypass
  /-- IDCODE (R508) -/
  | idcode
  /-- SAMPLE_PRELOAD (R508) -/
  | samplePreload (pins : BitVec 24) (cells : BitVec 24)
  /-- EXTEST (R508) -/
  | extest
  /-- CLAMP (R508) -/
  | clamp
  /-- HIGHZ (R508) -/
  | highz
  /-- FLIT_CRC_FAILURE (R357) -/
  | flitCrcFailure (port : PortIx) (why : FlitBad)
  /-- BAD_MSG (R359) -/
  | badMsg (port : PortIx) (head : Head) (typ : BitVec 8)
  /-- I3C_CCC (R506) -/
  | i3cCcc (ccc : I3cCcc)
  /-- MSIX_UNMASK (R434) -/
  | msixUnmask (f : Fin 17) (e : BitVec 6)
  /-- HOST_LINK_EVENT (R431) -/
  | hostLinkEvent (e : LinkEvent)
  /-- REFCLK_STOP (R488) -/
  | refclkStop
  /-- RESET_PIN_PULSE (R495) -/
  | resetPinPulse (pin : ResetPin)
  /-- SELFTEST_STALE (R468) -/
  | selftestStale (prism : PPrism)
  /-- DROOP_END (R481) -/
  | droopEnd
  /-- SYNC_N_RELEASE (R378) -/
  | syncNRelease
  /-- FENCED_PRISM_PACKET (R471) -/
  | fencedPrismPacket (prism : PPrism)
  deriving DecidableEq, Repr

end Sys2Proof
end

