-- ==== Sys2Proof/Decode.lean ====
section
/-! DEFINITION. The decoder of command words. The operation table gives no row any bits, so no word spells a command. -/

namespace Sys2Proof

/-- The command a word spells: none, since the operation table gives no row any bits. -/
def decodeTableWord (_nbits _w : Nat) : Option Instr := none

end Sys2Proof
end

