-- ==== Sys2Proof/Config.lean ====
section
/-! DEFINITION. What the spec leaves open: free values, and what one implementation fixes. Each is an opaque constant, so that nothing
can be proved of it but what holds for every value. -/

namespace Sys2Proof.Config

/-- A free byte: contents of device-owned structures whose layout the spec does not give. -/
opaque freeByte : Nat → BitVec 8
/-- A free 32-bit value. -/
opaque freeWord : Nat → BitVec 32
/-- A free 64-bit value. -/
opaque freeWide : Nat → BitVec 64

/-- How much a counter gains in one core cycle, or at a command, of an event whose number no rule fixes, by the count of free values
taken, page and instance, and event. -/
opaque freeCount : Nat → Nat → Nat → BitVec 32

/-- The displacement, in ulp, of a transcendental result from the rounded one, by stage opcode and input bits (R177). -/
opaque freeUlp : Nat → Nat → BitVec 3

/-- Hash_df of 1,024 raw bits, the first lowest (R211): the order in which bits enter and seeds leave it is not stated. -/
opaque hashDf : Nat → BitVec 256

/-- The pane-hop distance between two panes of the array (R373): its topology is in no register of one device. -/
opaque paneHops : Nat → Nat → BitVec 8

/-- The largest pane-hop distance from the management root to a live device (R374, R384). -/
opaque mgmtHops : BitVec 8

/-- The die revision (R508, R522, R525). -/
opaque dieRev : BitVec 4
/-- GRADE: suffix -E, else -A (R525). -/
opaque gradeE : Bool
/-- The serial number, from production data (R525). -/
opaque serial : BitVec 64
/-- MINOR and MAJOR of BLK_REV, by block type code (R522). -/
opaque blkRev : Nat → BitVec 16
/-- The production data of the config flash, by offset in its range (R502). -/
opaque production : Nat → BitVec 8
/-- The version of the firmware image whose header holds a CRC, and of the ROM firmware (R530). -/
opaque fwVersion : Nat → BitVec 32
opaque romVersion : BitVec 32

end Sys2Proof.Config
end

