-- ==== Sys2Proof/Machine/FMap.lean ====
section
/-! DEFINITION. Sparse maps in one canonical form: a list of (key, value) pairs, keys strictly rising, no entry equal to
what an unlisted key reads as. Memory, registers and every large table of the device are held so: equal maps are equal data. -/

namespace Sys2Proof.Machine

/-- A sparse map from numbers. What an unlisted key reads as is the reader's argument `d`. -/
structure FMap (V : Type) where
  /-- The listed cells, keys strictly rising. -/
  cells : List (Nat × V)
  deriving DecidableEq, Repr

/-- Nothing listed. -/
def FMap.empty {V : Type} : FMap V := ⟨[]⟩

/-- The first listed value of a key, or what an unlisted key reads as. -/
def cellsGet {V : Type} (d : Nat → V) : List (Nat × V) → Nat → V
  | [], k => d k
  | (a, v) :: m, k => if a = k then v else cellsGet d m k

/-- List a value at a key, in place. -/
def cellsIns {V : Type} : List (Nat × V) → Nat → V → List (Nat × V)
  | [], k, v => [(k, v)]
  | (a, w) :: m, k, v =>
    if k < a then (k, v) :: (a, w) :: m
    else if a = k then (k, v) :: m
    else (a, w) :: cellsIns m k v

/-- Unlist a key. -/
def cellsDel {V : Type} : List (Nat × V) → Nat → List (Nat × V)
  | [], _ => []
  | (a, w) :: m, k => if a = k then cellsDel m k else (a, w) :: cellsDel m k

/-- Keys strictly rising, all above `lo`, and no entry equal to the default. -/
def cellsWf {V : Type} [DecidableEq V] (d : Nat → V) : Option Nat → List (Nat × V) → Bool
  | _, [] => true
  | lo, (a, v) :: m =>
    (match lo with
     | none => true
     | some l => decide (l < a)) && decide (v ≠ d a) && cellsWf d (some a) m

/-- The value at a key. -/
def FMap.get {V : Type} (m : FMap V) (d : Nat → V) (k : Nat) : V := cellsGet d m.cells k

/-- Write a value at a key; writing what an unlisted key reads as removes the entry. -/
def FMap.set {V : Type} [DecidableEq V] (m : FMap V) (d : Nat → V) (k : Nat) (v : V) : FMap V :=
  if v = d k then ⟨cellsDel m.cells k⟩ else ⟨cellsIns m.cells k v⟩

/-- The canonical form holds. -/
def FMap.wf {V : Type} [DecidableEq V] (m : FMap V) (d : Nat → V) : Bool := cellsWf d none m.cells

/-- Write consecutive keys from `k`. -/
def FMap.setList {V : Type} [DecidableEq V] (m : FMap V) (d : Nat → V) (k : Nat) : List V → FMap V
  | [] => m
  | v :: vs => (m.set d k v).setList d (k + 1) vs

/-- Read n consecutive keys from `k`. -/
def FMap.getList {V : Type} (m : FMap V) (d : Nat → V) (k : Nat) : Nat → List V
  | 0 => []
  | n + 1 => m.get d k :: m.getList d (k + 1) n

/-- Unlist every key in [lo, hi): each then reads as an unlisted key. -/
def FMap.clearRange {V : Type} (m : FMap V) (lo hi : Nat) : FMap V :=
  ⟨m.cells.filter fun c => !(decide (lo ≤ c.1) && decide (c.1 < hi))⟩

end Sys2Proof.Machine
end

