-- ==== Sys2Proof/Machine/Bundle.lean ====
section
/-! DEFINITION. The decode check of a bundle (R215 to R220, R232, R239, R240, R245, R246): from the sixteen 64-bit slot words to
typed slot operations, or the slot and code of the first failure. -/

namespace Sys2Proof.Machine

/-- What decoding one slot word answers: an operation, UNDEF_OP or RSVD_FIELD (R220). -/
inductive SlotDec where
  | ok (psel : BitVec 4) (op : SlotOp)
  | undef
  | rsvd
  deriving DecidableEq, Repr

/-- The operand bits outside the listed fields are all 0 (R219). -/
def onlyUses (w : Nat) (fields : List (Nat × Nat)) : Bool :=
  bitsOf w 51 0 == fields.foldl (fun a f => a + bitsOf w f.1 f.2 * 2 ^ f.2) 0

/-- TV and TOK: the token named, or none; a TOK that is not 0 with TV = 0 is reserved (R219). -/
def decTok (w tv tokHi tokLo : Nat) : Option Tok :=
  if bitOf w tv then some (some (BitVec.ofNat 6 (bitsOf w tokHi tokLo)))
  else if bitsOf w tokHi tokLo = 0 then some none else none

/-- Wrap an operation whose unused bits must be 0. -/
def decUse (w : Nat) (fields : List (Nat × Nat)) (op : Option SlotOp) : SlotDec :=
  match op with
  | some o => if onlyUses w fields then .ok (BitVec.ofNat 4 (bitsOf w 55 52)) o else .rsvd
  | none => .rsvd

def decG (w hi lo : Nat) : GReg := BitVec.ofNat 6 (bitsOf w hi lo)

/-- A register or immediate count: COUNT must be 0 with CSRC = 1, and G with CSRC = 0 (R219). -/
def decCount (csrc : Bool) (g count : Nat) : Option CountSrc :=
  if csrc then (if count = 0 then some (.reg (BitVec.ofNat 6 g)) else none)
  else (if g = 0 then some (.imm (BitVec.ofNat 16 count)) else none)

/-- Slot 0 (R232). -/
def decCtl (w : Nat) : SlotDec :=
  match bitsOf w 63 56 with
  | 1 => match bitsOf w 51 50 with
    | 0 => decUse w [(51, 50), (13, 0)] (some (.ctl (.br (.abs (BitVec.ofNat 14 (bitsOf w 13 0))))))
    | 1 => decUse w [(51, 50), (49, 44)] (some (.ctl (.br (.reg (decG w 49 44)))))
    | _ => .rsvd
  | 2 => decUse w [(51, 50), (49, 49), (48, 43), (42, 27), (13, 0)]
      ((decCount (bitOf w 49) (bitsOf w 48 43) (bitsOf w 42 27)).map fun c =>
        .ctl (.loop (BitVec.ofNat 2 (bitsOf w 51 50)) c (BitVec.ofNat 14 (bitsOf w 13 0))))
  | 3 => match bitsOf w 51 50 with
    | 0 => decUse w [(51, 50), (49, 44)] (some (.ctl (.wait (.all (decG w 49 44)))))
    | 1 => decUse w [(51, 50), (49, 44)] (some (.ctl (.wait (.any (decG w 49 44)))))
    | 2 => decUse w [(51, 50), (49, 44)] (some (.ctl (.wait (.one (decG w 49 44)))))
    | _ => .rsvd
  | 4 => decUse w [(51, 51)] (some (.ctl (.yield (bitOf w 51))))
  | 5 => decUse w [(15, 0)] (some (.ctl (.halt (BitVec.ofNat 16 (bitsOf w 15 0)))))
  | 6 => decUse w [(51, 46), (45, 40), (39, 39), (38, 33)]
      ((decTok w 39 38 33).map fun t => .ctl (.bpl (decG w 51 46) (decG w 45 40) t))
  | 7 => decUse w [(51, 51), (50, 45), (44, 29)]
      (match decCount (bitOf w 51) (bitsOf w 50 45) (bitsOf w 44 29) with
       | some (.imm n) => if n = 0 then none else some (.ctl (.repeat (.imm n)))
       | some c => some (.ctl (.repeat c))
       | none => none)
  | 8 => if 6 ≤ bitsOf w 2 0 then .rsvd
      else decUse w [(2, 0)] (some (.ctl (.phase (BitVec.ofNat 3 (bitsOf w 2 0)))))
  | _ => .undef

/-- COND (R239). -/
def decCond (c : Nat) : Option Cond :=
  match c with
  | 0 => some .eq | 1 => some .ne | 2 => some .lts | 3 => some .les
  | 4 => some .ltu | 5 => some .leu | 6 => some .tst | 7 => some .ntst
  | _ => none

/-- FN of PLOG (R239). -/
def decPFn (c : Nat) : PFn :=
  match c with
  | 0 => .and | 1 => .or | 2 => .xor | _ => .andn

/-- The descriptor reference of RDD and DWR; none where R240 raises RSVD_FIELD. -/
def decDesc (w : Nat) (isWrite : Bool) : Option DescRef :=
  let num := bitsOf w 28 21
  let word := bitsOf w 18 15
  let tiles := bitsOf w 14 7
  match bitsOf w 31 29 with
  | 0 => if tiles = 0 then some (.td (BitVec.ofNat 8 num) (BitVec.ofNat 4 word)) else none
  | 1 => if tiles = 0 ∧ num < 64 ∧ word < 8 then some (.mo (BitVec.ofNat 6 num) (BitVec.ofNat 3 word)) else none
  | 2 => if tiles = 0 ∧ num < 64 ∧ word < 8 then some (.cd (BitVec.ofNat 6 num) (BitVec.ofNat 3 word)) else none
  | 3 => if tiles = 0 ∧ word < 8 then some (.layer (BitVec.ofNat 8 num) (BitVec.ofNat 3 word)) else none
  | 4 =>
    if num < 32 ∧ (if isWrite then tiles ≠ 0 else popBits 8 tiles = 1) then
      some (.ld (BitVec.ofNat 5 num) (BitVec.ofNat 4 word) (BitVec.ofNat 8 tiles))
    else none
  | _ => none

/-- A destination predicate: [49:48] = 0 and PD not 0 (R239). -/
def decPd (w : Nat) : Option (BitVec 4) :=
  if bitsOf w 49 48 = 0 ∧ bitsOf w 47 44 ≠ 0 then some (BitVec.ofNat 4 (bitsOf w 47 44)) else none

def decAlu (w : Nat) (op : AluOp) : SlotDec :=
  decUse w [(49, 44), (43, 38), (37, 32)] (some (.scalar (.alu op (decG w 49 44) (decG w 43 38) (decG w 37 32))))

/-- Slots 1 and 2 (R239). -/
def decScalar (w : Nat) : SlotDec :=
  let gd := decG w 49 44
  let ga := decG w 43 38
  let gb := decG w 37 32
  let imm := BitVec.ofNat 32 (bitsOf w 31 0)
  match bitsOf w 63 56 with
  | 0x01 => decUse w [(49, 44), (31, 0)] (some (.scalar (.movi gd imm)))
  | 0x02 => decUse w [(49, 44), (43, 38)] (some (.scalar (.mov gd ga)))
  | 0x03 => decAlu w .add
  | 0x04 => decAlu w .sub
  | 0x05 => decUse w [(49, 44), (43, 38), (31, 0)] (some (.scalar (.addi gd ga imm)))
  | 0x06 => decAlu w .mul
  | 0x07 => decAlu w .and
  | 0x08 => decAlu w .or
  | 0x09 => decAlu w .xor
  | 0x0A => decAlu w .shl
  | 0x0B => decAlu w .shr
  | 0x0C => decAlu w .sar
  | 0x0D => decAlu w .minu
  | 0x0E => decAlu w .maxu
  | 0x0F => decUse w [(47, 44), (43, 38), (37, 32), (31, 28)]
      (do let pd ← decPd w; let c ← decCond (bitsOf w 31 28); some (.scalar (.cmp pd c ga gb)))
  | 0x10 => decUse w [(47, 44), (43, 38), (37, 34), (31, 0)]
      (do let pd ← decPd w; let c ← decCond (bitsOf w 37 34); some (.scalar (.cmpi pd c ga imm)))
  | 0x11 => decUse w [(47, 44), (41, 38), (35, 32), (31, 30)]
      (do let pd ← decPd w
          some (.scalar (.plog pd (decPFn (bitsOf w 31 30)) (BitVec.ofNat 4 (bitsOf w 41 38)) (BitVec.ofNat 4 (bitsOf w 35 32)))))
  | 0x12 => decUse w [(49, 44), (43, 38), (31, 31), (30, 25)] ((decTok w 31 30 25).map fun t => .scalar (.ldp gd ga t))
  | 0x13 => decUse w [(43, 38), (37, 32), (31, 31), (30, 25)] ((decTok w 31 30 25).map fun t => .scalar (.stp ga gb t))
  | 0x14 => decUse w [(49, 44), (31, 29), (28, 21), (18, 15), (14, 7)] ((decDesc w false).map fun d => .scalar (.rdd gd d))
  | 0x15 => decUse w [(43, 38), (31, 29), (28, 21), (18, 15), (14, 7)] ((decDesc w true).map fun d => .scalar (.dwr ga d))
  | 0x16 => decUse w [(49, 44), (31, 28)]
      (if h : bitsOf w 31 28 < 10 then some (.scalar (.rds gd ⟨bitsOf w 31 28, h⟩)) else none)
  | _ => .undef

/-- Slots 3 and 4 (R245): TILES is not 0, and LD of a ZERO is 0. -/
def decArray (w : Nat) : SlotDec :=
  let mk (o : ArrayOpc) : SlotDec :=
    if bitsOf w 51 44 = 0 then .rsvd
    else decUse w [(51, 44), (43, 42), (41, 37), (36, 36), (35, 30)]
      ((decTok w 36 35 30).map fun t =>
        .array o ⟨BitVec.ofNat 8 (bitsOf w 51 44), Fin.ofNat 4 (bitsOf w 43 42), BitVec.ofNat 5 (bitsOf w 41 37), t⟩)
  match bitsOf w 63 56 with
  | 1 => mk .mm
  | 2 => mk .mms
  | 3 => mk .dist
  | 4 => mk .store
  | 5 => if bitsOf w 41 37 = 0 then mk .zero else .rsvd
  | _ => .undef

/-- Slots 5 and 6 (R245). -/
def decLens (w : Nat) : SlotDec :=
  let mk (o : LensOpc) : SlotDec :=
    decUse w [(51, 46), (45, 40), (39, 39), (38, 33)]
      ((decTok w 39 38 33).map fun t => .lens o ⟨decG w 51 46, decG w 45 40, t⟩)
  match bitsOf w 63 56 with
  | 1 => if bitsOf w 45 40 = 0 then mk .chain else .rsvd
  | 2 => mk .update
  | _ => .undef

/-- Slot 7 (R245). -/
def decFocus (w : Nat) : SlotDec :=
  let mk (o : FocusOpc) : SlotDec :=
    decUse w [(51, 44), (43, 36), (35, 28), (27, 22), (21, 21), (20, 15)]
      ((decTok w 21 20 15).map fun t =>
        .focus o ⟨BitVec.ofNat 8 (bitsOf w 51 44), BitVec.ofNat 8 (bitsOf w 43 36), BitVec.ofNat 8 (bitsOf w 35 28), decG w 27 22, t⟩)
  match bitsOf w 63 56 with
  | 1 => mk .argmax
  | 2 => mk .argmin
  | 3 => mk .topk
  | 4 => mk .sum
  | 5 => mk .norm2
  | _ => .undef

/-- Slot 8 (R245). -/
def decMask (w : Nat) : SlotDec :=
  let mo : BitVec 6 := BitVec.ofNat 6 (bitsOf w 51 46)
  let g := decG w 45 40
  let td : BitVec 8 := BitVec.ofNat 8 (bitsOf w 32 25)
  let tiles : BitVec 8 := BitVec.ofNat 8 (bitsOf w 24 17)
  match bitsOf w 63 56 with
  | 1 => if bitsOf w 24 17 = 0 then .rsvd
      else decUse w [(45, 40), (39, 39), (38, 33), (32, 25), (24, 17), (14, 7)]
      ((decTok w 39 38 33).map fun t => .mask (.scomp g t td tiles (BitVec.ofNat 8 (bitsOf w 14 7))))
  | 2 => decUse w [(51, 46), (45, 40), (39, 39), (38, 33)] ((decTok w 39 38 33).map fun t => .mask (.prune mo g t))
  | 3 => decUse w [(51, 46), (45, 40), (39, 39), (38, 33)] ((decTok w 39 38 33).map fun t => .mask (.grow mo g t))
  | 4 => decUse w [(51, 46)] (some (.mask (.mcommit mo)))
  | 5 => decUse w [(51, 46), (39, 39), (38, 33), (32, 25)] ((decTok w 39 38 33).map fun t => .mask (.mirrorBuild mo t td))
  | 6 => if bitsOf w 24 17 = 0 then .rsvd
      else decUse w [(51, 46), (45, 40), (24, 17), (16, 15)] (some (.mask (.silh mo g tiles (Fin.ofNat 4 (bitsOf w 16 15)))))
  | _ => .undef

/-- Slots 9 to 11 (R245): BEAM 0x4 to 0x7 are reserved. -/
def decBeam (w : Nat) : SlotDec :=
  let beam := bitsOf w 51 48
  let bad := decide (4 ≤ beam) && decide (beam ≤ 7)
  let g := decG w 31 26
  let tdd : BitVec 8 := BitVec.ofNat 8 (bitsOf w 39 32)
  match bitsOf w 63 56 with
  | 1 => if bad then .rsvd
      else decUse w [(51, 48), (47, 40), (39, 32), (31, 26), (25, 25), (24, 19)]
        ((decTok w 25 24 19).map fun t => .beam (.copy (BitVec.ofNat 4 beam) (BitVec.ofNat 8 (bitsOf w 47 40)) tdd g t))
  | 2 => if bad then .rsvd
      else decUse w [(51, 48), (39, 32), (31, 26), (25, 25), (24, 19)]
        ((decTok w 25 24 19).map fun t => .beam (.scrub (BitVec.ofNat 4 beam) tdd g t))
  | _ => .undef

/-- ROP (R245). -/
def decRop (c : Nat) : Option RedOp :=
  match c with
  | 0 => some .sumU64 | 1 => some .maxS64 | 2 => some .sumF32 | 3 => some .maxF32
  | _ => none

/-- Slot 12 (R245). -/
def decJorx (w : Nat) : SlotDec :=
  let td : BitVec 8 := BitVec.ofNat 8 (bitsOf w 51 44)
  let g := decG w 43 38
  let grp : BitVec 3 := BitVec.ofNat 3 (bitsOf w 37 35)
  let tok := decTok w 34 33 28
  match bitsOf w 63 56 with
  | 1 => decUse w [(51, 44), (43, 38), (34, 34), (33, 28)] (tok.map fun t => .jorx (.put td g t))
  | 2 => decUse w [(51, 44), (43, 38), (34, 34), (33, 28)] (tok.map fun t => .jorx (.get td g t))
  | 3 => decUse w [(37, 35), (34, 34), (33, 28)] (tok.map fun t => .jorx (.barrier grp t))
  | 4 => decUse w [(43, 38), (37, 35), (34, 34), (33, 28)] (tok.map fun t => .jorx (.flagred g grp t))
  | 5 => if 56 < bitsOf w 43 38 then .rsvd
      else decUse w [(43, 38), (37, 35), (34, 34), (33, 28), (27, 25)]
        (do let t ← tok; let r ← decRop (bitsOf w 27 25); some (.jorx (.smallred g grp r t)))
  | 6 => decUse w [(51, 44), (43, 38), (37, 35), (34, 34), (33, 28)] (tok.map fun t => .jorx (.bcast td g grp t))
  | _ => .undef

/-- Slot 13 (R245): TV of a SEED is 0, TV of a SEED.FRESH is 1, G of a DRAW is at most 61. -/
def decSpk (w : Nat) : SlotDec :=
  let g := decG w 51 46
  let gen := bitOf w 45
  match bitsOf w 63 56 with
  | 1 => decUse w [(51, 46), (45, 45)] (some (.spk (.seed g gen)))
  | 2 => decUse w [(51, 46), (45, 45), (36, 36), (35, 30)]
      (match decTok w 36 35 30 with
       | some (some t) => some (.spk (.seedFresh g gen t))
       | _ => none)
  | 3 => if 61 < bitsOf w 51 46 then .rsvd
      else decUse w [(51, 46), (44, 37), (36, 36), (35, 30)]
        ((decTok w 36 35 30).map fun t => .spk (.draw g (BitVec.ofNat 8 (bitsOf w 44 37)) t))
  | 4 => decUse w [(36, 36), (35, 30)] ((decTok w 36 35 30).map fun t => .spk (.umbra t))
  | _ => .undef

/-- Slot 14 (R245). -/
def decTel (w : Nat) : SlotDec :=
  match bitsOf w 63 56 with
  | 1 => decUse w [(51, 44), (43, 38), (37, 37), (36, 36), (35, 30)]
      ((decTok w 36 35 30).map fun t => .tel (.glint (BitVec.ofNat 8 (bitsOf w 51 44)) (decG w 43 38) (bitOf w 37) t))
  | 2 => decUse w [(15, 0)] (some (.tel (.mark (BitVec.ofNat 16 (bitsOf w 15 0)))))
  | 3 => decUse w [(18, 16)]
      ((match bitsOf w 18 16 with
        | 0 => some CntAct.freeze | 1 => some .thaw | 2 => some .snapshot | 3 => some .clear
        | _ => none).map fun a => .tel (.cnt a))
  | _ => .undef

/-- Slot 15 (R246): PSEL is 0 and TARGET is 1 to 14. -/
def decExt (w : Nat) : SlotDec :=
  match bitsOf w 63 56 with
  | 1 =>
    if bitsOf w 55 52 = 0 ∧ 1 ≤ bitsOf w 51 48 ∧ bitsOf w 51 48 ≤ 14 then
      decUse w [(51, 48), (31, 0)] (some (.ext (BitVec.ofNat 4 (bitsOf w 51 48)) (BitVec.ofNat 32 (bitsOf w 31 0))))
    else .rsvd
  | _ => .undef

/-- One slot word (R217, R218): opcode 0 is HOLD with every other bit 0, 0xFF is reserved. -/
def decodeSlot (ix w : Nat) : SlotDec :=
  if bitsOf w 63 56 = 0 then (if w % 2 ^ 64 = 0 then .ok 0 .hold else .rsvd)
  else if bitsOf w 63 56 = 0xFF then .undef
  else match ix with
    | 0 => decCtl w
    | 1 | 2 => decScalar w
    | 3 | 4 => decArray w
    | 5 | 6 => decLens w
    | 7 => decFocus w
    | 8 => decMask w
    | 9 | 10 | 11 => decBeam w
    | 12 => decJorx w
    | 13 => decSpk w
    | 14 => decTel w
    | _ => decExt w

/-- A failed decode or issue check: the slot and the fault code (R220, R223). -/
structure SlotFault where
  slot : Nat
  code : Nat
  deriving DecidableEq, Repr

def UNDEF_OP : Nat := 0x01
def RSVD_FIELD : Nat := 0x02

/-- The slots of a bundle, from its words in slot order, or the first slot that fails. -/
def decodeSlots : Nat → List Nat → Except SlotFault (List Slot)
  | _, [] => .ok []
  | ix, w :: ws =>
    match decodeSlot ix w with
    | .undef => .error ⟨ix, UNDEF_OP⟩
    | .rsvd => .error ⟨ix, RSVD_FIELD⟩
    | .ok ps o =>
      match decodeSlots (ix + 1) ws with
      | .error f => .error f
      | .ok ss => .ok (⟨ix, ps, o⟩ :: ss)

end Sys2Proof.Machine

namespace Sys2Proof

/-- The g-registers an operation writes, at issue or asynchronously (R238). -/
def SlotOp.gWrites : SlotOp → List Nat
  | .scalar (.movi gd _) => [gd.toNat]
  | .scalar (.mov gd _) => [gd.toNat]
  | .scalar (.alu _ gd _ _) => [gd.toNat]
  | .scalar (.addi gd _ _) => [gd.toNat]
  | .scalar (.ldp gd _ _) => [gd.toNat]
  | .scalar (.rdd gd _) => [gd.toNat]
  | .scalar (.rds gd _) => [gd.toNat]
  | .jorx (.flagred g _ _) => [g.toNat]
  | .jorx (.smallred g _ _ _) => (List.range 8).map fun i => g.toNat + i
  | .spk (.seedFresh g _ _) => [g.toNat]
  | .tel (.glint _ g _ _) => [g.toNat]
  | _ => []

/-- The g-registers an operation writes when its token is released: they are pending from its issue (R238). -/
def SlotOp.gAsync : SlotOp → List Nat
  | .scalar (.ldp gd _ _) => [gd.toNat]
  | .jorx (.flagred g _ _) => [g.toNat]
  | .jorx (.smallred g _ _ _) => (List.range 8).map fun i => g.toNat + i
  | .spk (.seedFresh g _ _) => [g.toNat]
  | .tel (.glint _ g _ _) => [g.toNat]
  | _ => []

/-- The predicates an operation writes (R238). -/
def SlotOp.pWrites : SlotOp → List Nat
  | .scalar (.cmp pd _ _ _) => [pd.toNat]
  | .scalar (.cmpi pd _ _ _) => [pd.toNat]
  | .scalar (.plog pd _ _ _) => [pd.toNat]
  | _ => []

/-- The token an operation names (R242). -/
def SlotOp.tok : SlotOp → Tok
  | .ctl (.bpl _ _ t) => t
  | .scalar (.ldp _ _ t) => t
  | .scalar (.stp _ _ t) => t
  | .array _ a => a.tok
  | .lens _ a => a.tok
  | .focus _ a => a.tok
  | .mask (.scomp _ t _ _ _) => t
  | .mask (.prune _ _ t) => t
  | .mask (.grow _ _ t) => t
  | .mask (.mirrorBuild _ t _) => t
  | .beam (.copy _ _ _ _ t) => t
  | .beam (.scrub _ _ _ t) => t
  | .jorx (.put _ _ t) => t
  | .jorx (.get _ _ t) => t
  | .jorx (.barrier _ t) => t
  | .jorx (.flagred _ _ t) => t
  | .jorx (.smallred _ _ _ t) => t
  | .jorx (.bcast _ _ _ t) => t
  | .spk (.seedFresh _ _ t) => some t
  | .spk (.draw _ _ t) => t
  | .spk (.umbra t) => t
  | .tel (.glint _ _ _ t) => t
  | _ => none

/-- Does a slot's operation take an EXT (R246)? -/
def SlotOp.extensible : SlotOp → Bool
  | .scalar (.movi _ _) => true
  | .scalar (.addi _ _ _) => true
  | .scalar (.cmpi _ _ _ _) => true
  | _ => false

/-- The slot a class of operations belongs in (R218). -/
def SlotOp.fits (ix : Nat) : SlotOp → Bool
  | .hold => true
  | .ctl _ => ix == 0
  | .scalar _ => ix == 1 || ix == 2
  | .array _ _ => ix == 3 || ix == 4
  | .lens _ _ => ix == 5 || ix == 6
  | .focus _ _ => ix == 7
  | .mask _ => ix == 8
  | .beam _ => ix == 9 || ix == 10 || ix == 11
  | .jorx _ => ix == 12
  | .spk _ => ix == 13
  | .tel _ => ix == 14
  | .ext _ _ => ix == 15

/-- A descriptor reference that RDD or DWR may not make: an LD word of no tile, or of other than one in an RDD (R240). -/
def DescRef.rsvd (d : DescRef) (isWrite : Bool) : Bool :=
  match d with
  | .ld _ _ ts => if isWrite then ts == 0 else popBits 8 ts.toNat != 1
  | _ => false

/-- A BEAM number that is reserved (R245). -/
def beamRsvd (b : BitVec 4) : Bool := decide (4 ≤ b.toNat) && decide (b.toNat ≤ 7)

/-- An operand value that the decode check refuses with RSVD_FIELD (R219, R232, R235, R239, R240, R245, R246). -/
def SlotOp.rsvd : SlotOp → Bool
  | .ctl (.repeat (.imm n)) => n == 0
  | .ctl (.phase ph) => decide (6 ≤ ph.toNat)
  | .scalar (.cmp pd _ _ _) => pd == 0
  | .scalar (.cmpi pd _ _ _) => pd == 0
  | .scalar (.plog pd _ _ _) => pd == 0
  | .scalar (.rdd _ d) => d.rsvd false
  | .scalar (.dwr _ d) => d.rsvd true
  | .array o a => a.tiles == 0 || (o == .zero && a.ld != 0)
  | .lens .chain a => a.g != 0
  | .mask (.scomp _ _ _ tiles _) => tiles == 0
  | .mask (.silh _ _ tiles _) => tiles == 0
  | .beam (.copy b _ _ _ _) => beamRsvd b
  | .beam (.scrub b _ _ _) => beamRsvd b
  | .jorx (.smallred g _ _ _) => decide (56 < g.toNat)
  | .spk (.draw g _ _) => decide (61 < g.toNat)
  | .ext t _ => t == 0 || t == 15
  | _ => false

end Sys2Proof

namespace Sys2Proof.Machine

/-- The slots that break a bundle-wide rule (R235, R238, R246): a g-register or predicate written twice, a write to a pending
register, an EXT whose target cannot be extended, a REPEAT over a bundle whose slot 0 acts. The lower slot of a clash is named. -/
def bundleBad (pendingG : BitVec 64) (repeating : Bool) (ss : List Slot) (s : Slot) : Bool :=
  let gs := s.op.gWrites
  let ps := s.op.pWrites
  let later := ss.filter fun t => decide (s.ix < t.ix)
  (gs.any fun g => later.any fun t => t.op.gWrites.contains g)
  || (ps.any fun p => later.any fun t => t.op.pWrites.contains p)
  || (gs.any fun g => pendingG.getLsbD g)
  || (match s.op with
      | .ext t _ => !(ss.any fun u => u.ix == t.toNat && u.op.extensible)
      | _ => false)
  || (repeating && s.ix == 0 && s.op != .hold)

/-- The first slot that breaks a bundle-wide rule. -/
def bundleCheck (pendingG : BitVec 64) (repeating : Bool) (ss : List Slot) : Option SlotFault :=
  (ss.find? fun s => bundleBad pendingG repeating ss s).map fun s => ⟨s.ix, RSVD_FIELD⟩

end Sys2Proof.Machine
end

