-- ==== Sys2Proof/Machine/RegTable.lean ====
section
/-! DEFINITION. The register pages of the device as data: block types (R516), and for every register of every page its offset
and its fields with place, access code (R15) and reset value, transcribed from the register tables of chapters 02 to 19.
A bit no row names is reserved (R521). -/

namespace Sys2Proof.Machine

/-- The block types of the page map, in its order (R516). -/
inductive PageKind where
  | device | boot | maint | mailbox | health | dimmer | mem | bulk | scrub | noise | beacon | agqm | jorx
  | jorxRt | jport | memctl | bcnTgt | agq
  | shcfg | tstate | pattern | replay | jshade
  | tile | stencil | lant | lens | focus | mask | safe | speckle | scratch | beam
  deriving DecidableEq, Repr

/-- The place of a block type in the page map. -/
def PageKind.ix : PageKind → Nat
  | .device => 0 | .boot => 1 | .maint => 2 | .mailbox => 3 | .health => 4 | .dimmer => 5 | .mem => 6 | .bulk => 7
  | .scrub => 8 | .noise => 9 | .beacon => 10 | .agqm => 11 | .jorx => 12 | .jorxRt => 13 | .jport => 14 | .memctl => 15
  | .bcnTgt => 16 | .agq => 17 | .shcfg => 18 | .tstate => 19 | .pattern => 20 | .replay => 21 | .jshade => 22
  | .tile => 23 | .stencil => 24 | .lant => 25 | .lens => 26 | .focus => 27 | .mask => 28 | .safe => 29 | .speckle => 30
  | .scratch => 31 | .beam => 32

/-- The type code of BLK_ID (R516). -/
def PageKind.typeCode (k : PageKind) : Nat := if k.ix ≤ 22 then k.ix + 1 else k.ix + 9

/-- Instances of a block type (R516). -/
def PageKind.count : PageKind → Nat
  | .jorxRt => 4 | .jport => 20 | .memctl => 10 | .bcnTgt => 19 | .agq => 256
  | .shcfg | .tstate | .pattern | .replay | .jshade => 16
  | .tile | .stencil => 416
  | .lant | .lens | .focus | .mask | .safe | .speckle | .scratch | .beam => 52
  | _ => 1

/-- The pages of a physical prism (R516). -/
def PageKind.perPrism : PageKind → Bool
  | .tile | .stencil | .lant | .lens | .focus | .mask | .safe | .speckle | .scratch | .beam => true
  | _ => false

/-- The pages of a shade (R516). -/
def PageKind.perShade : PageKind → Bool
  | .shcfg | .tstate | .pattern | .replay | .jshade => true
  | _ => false

/-- The physical prism of an instance of a per-prism block. -/
def PageKind.prismOf (k : PageKind) (inst : Nat) : Nat :=
  match k with
  | .tile | .stencil => inst / 8
  | _ => inst

/-- Access codes (R15). -/
inductive Acc where
  | ro | rw | w1c | w1s | wo | rc
  deriving DecidableEq, Repr

/-- A field of a register. -/
structure Field where
  hi : Nat
  lo : Nat
  acc : Acc
  reset : Nat
  deriving DecidableEq, Repr

/-- A register, or `n` registers at a stride. -/
structure RegRow where
  name : String
  off : Nat
  n : Nat
  stride : Nat
  fields : List Field
  deriving DecidableEq, Repr

/-- One register. -/
def reg1 (name : String) (off : Nat) (fs : List Field) : RegRow := ⟨name, off, 1, 4, fs⟩
/-- An array of registers. -/
def regN (name : String) (off n stride : Nat) (fs : List Field) : RegRow := ⟨name, off, n, stride, fs⟩
def fRO (hi lo : Nat) (r : Nat := 0) : Field := ⟨hi, lo, .ro, r⟩
def fRW (hi lo : Nat) (r : Nat := 0) : Field := ⟨hi, lo, .rw, r⟩
def fW1C (hi lo : Nat) (r : Nat := 0) : Field := ⟨hi, lo, .w1c, r⟩
def fW1S (hi lo : Nat) : Field := ⟨hi, lo, .w1s, 0⟩
def fWO (hi lo : Nat) : Field := ⟨hi, lo, .wo, 0⟩
def fRC (hi lo : Nat) : Field := ⟨hi, lo, .rc, 0⟩

/-- Registers common to every page (R520, R522 to R524, R457). -/
def commonRegs : List RegRow := [
  reg1 "BLK_ID" 0x000 [fRO 15 0, fRO 31 16],
  reg1 "BLK_REV" 0x004 [fRO 7 0, fRO 15 8, fRO 19 16],
  reg1 "BLK_CAP" 0x008 [fRO 3 0 8, fRO 4 4 1, fRO 5 5, fRO 6 6, fRO 7 7, fRO 15 8],
  reg1 "BLK_OWNER" 0x00C [fRW 7 0],
  reg1 "BLK_CTRL" 0x010 [fWO 0 0, fWO 1 1],
  reg1 "BLK_STATUS" 0x014 [fRO 0 0, fRO 1 1, fRO 2 2],
  reg1 "BLK_ERR_STATUS" 0x018 [fW1C 0 0, fW1C 1 1, fW1C 2 2, fW1C 3 3, fW1C 4 4],
  reg1 "BLK_ERR_MASK" 0x01C [fRW 3 0],
  regN "CNT_SEL" 0x040 8 4 [fRW 7 0, fRW 15 8, fRW 16 16, fRW 17 17, fRW 18 18],
  regN "CNT_VAL" 0x080 16 4 [fRO 31 0]]

/-- Chapter 19, DEVICE (R525). -/
def deviceRegs : List RegRow := [
  reg1 "DEV_IDENT" 0x100 [fRO 15 0 0x9600, fRO 19 16, fRO 21 20],
  regN "DEV_SERIAL" 0x104 2 4 [fRO 31 0],
  reg1 "DEV_CAP" 0x10C [fRO 5 0 0x34, fRO 11 6 0x30, fRO 16 12 0x10, fRO 25 17 0x100],
  regN "TB" 0x110 2 4 [fRO 31 0],
  reg1 "DEV_SHADES" 0x118 [fRO 15 0, fRO 31 16],
  reg1 "DEV_BADACC" 0x11C [fRC 31 0],
  reg1 "VF_PWIN" 0x120 [fRW 5 0],
  regN "DEV_L2P" 0x200 48 4 [fRO 5 0, fRO 6 6]]

/-- Chapter 18, BOOT (R512). -/
def bootRegs : List RegRow := [
  reg1 "BOOT_STATUS" 0x100 [fRO 0 0, fRO 4 1, fRO 8 5, fRO 9 9, fRO 10 10, fRO 11 11, fRO 12 12],
  reg1 "BOOT_ALERT" 0x104 [fW1C 0 0, fW1C 1 1, fRO 2 2, fW1C 3 3, fW1C 4 4],
  reg1 "BOOT_CLK" 0x108 [fRO 0 0, fRO 1 1, fRO 2 2, fRO 3 3, fRO 4 4, fRO 9 5, fRO 10 10],
  regN "BOOT_SEQ" 0x10C 2 4 [fRO 31 0],
  regN "BOOT_RST_CAUSE" 0x120 4 4 [fRO 3 0, fRO 4 4],
  regN "BOOT_RST_TIME" 0x140 8 4 [fRO 31 0]]

/-- Chapter 19, MAINT (R527). -/
def maintRegs : List RegRow := [
  reg1 "MAINT_REQ" 0x100 [fRW 3 0, fRW 6 4, fW1S 8 8],
  reg1 "MAINT_STATUS" 0x104 [fRO 0 0, fRO 4 1, fRO 6 5, fRO 8 7, fRO 11 9, fRO 19 12, fRO 27 20],
  regN "MAINT_BUF" 0x108 2 4 [fRW 31 0],
  reg1 "MAINT_BUF_LEN" 0x110 [fRW 21 0],
  reg1 "MAINT_PROGRESS" 0x114 [fRO 9 0]]

/-- Chapter 19, MAILBOX (R529). -/
def mailboxRegs : List RegRow := [
  reg1 "MBX_CMD" 0x100 [fRW 7 0, fW1S 8 8],
  reg1 "MBX_STATUS" 0x104 [fRO 0 0, fW1C 1 1, fRO 15 8, fRO 24 16],
  regN "MBX_ARG" 0x110 8 4 [fRW 31 0],
  regN "MBX_DATA" 0x200 64 4 [fRO 31 0]]

/-- Chapter 17, HEALTH (R485). -/
def healthRegs : List RegRow := [
  regN "HL_PRISM" 0x100 52 4 [fRO 1 0, fRO 7 2, fRO 11 8, fRO 19 12, fRO 20 20, fRO 21 21],
  reg1 "HL_PERM" 0x200 [fRW 15 0 0x64, fRW 19 16 3],
  reg1 "HL_STATUS" 0x204 [fRO 0 0, fRO 6 1, fRO 9 7, fRO 10 10],
  reg1 "HL_FENCE_DROPS" 0x208 [fRC 31 0],
  reg1 "HL_UNFENCE" 0x20C [fRW 5 0, fW1S 6 6, fRO 9 8],
  reg1 "ST_CTRL" 0x210 [fRW 4 0 0x0A],
  reg1 "ST_STATUS" 0x214 [fRO 0 0, fRO 1 1]]

/-- Chapter 17, DIMMER (R486). -/
def dimmerRegs : List RegRow := [
  reg1 "DIM_CTRL" 0x100 [fRW 6 0 0x5F, fRW 10 7 2, fRW 15 11 0x16],
  reg1 "DIM_PLIM" 0x104 [fRW 10 0 0x578, fRW 21 11 0x672],
  reg1 "DIM_STATUS" 0x108 [fRO 4 0, fRO 8 5, fRO 9 9, fRO 10 10, fRO 11 11, fRO 12 12, fRO 13 13],
  reg1 "DIM_TEMP" 0x10C [fRO 7 0, fRO 15 8, fRO 23 16],
  reg1 "DIM_POWER" 0x110 [fRO 10 0, fRO 21 11],
  reg1 "DIM_CURRENT" 0x114 [fRO 11 0],
  reg1 "DIM_ERR" 0x118 [fW1C 0 0, fW1C 1 1, fW1C 2 2, fW1C 3 3],
  reg1 "DIM_SENS_SEL" 0x11C [fRW 7 0],
  reg1 "DIM_SENS" 0x120 [fRO 10 0, fRO 11 11]]

/-- Chapter 10, MEM (R306). -/
def memRegs : List RegRow := [
  regN "XLATE_ROOT_LO" 0x100 16 8 [fRW 0 0, fRW 31 12],
  regN "XLATE_ROOT_HI" 0x104 16 8 [fRW 15 0],
  regN "XLATE_ERR" 0x180 16 16 [fRO 3 0, fRO 5 4, fRO 6 6, fW1C 7 7, fRO 10 8],
  regN "XLATE_ERR_VA_LO" 0x184 16 16 [fRO 31 0],
  regN "XLATE_ERR_VA_HI" 0x188 16 16 [fRO 15 0],
  reg1 "MEM_DEEP_CAP" 0x280 [fRO 10 0],
  reg1 "MEM_HOSTWIN_BASE_LO" 0x284 [fRW 31 12],
  reg1 "MEM_HOSTWIN_BASE_HI" 0x288 [fRW 31 0],
  regN "MEM_HBM_OWNER" 0x400 72 4 [fRW 7 0 0xFF, fRW 15 8 0xFF, fRW 23 16 0xFF, fRW 31 24 0xFF],
  regN "MEM_DEEP_OWNER" 0x600 240 4 [fRW 7 0 0xFF, fRW 15 8 0xFF, fRW 23 16 0xFF, fRW 31 24 0xFF]]

/-- The error register of Beams (R307). -/
def beamErrFields : List Field := [fW1C 0 0, fW1C 1 1, fW1C 2 2, fW1C 3 3, fRO 7 4]

/-- Chapter 10, BULK (R307). -/
def bulkRegs : List RegRow := [
  regN "BULK_OWNER" 0x100 2 4 [fRW 7 0 0xFF, fRW 15 8 0xFF, fRW 23 16 0xFF, fRW 31 24 0xFF],
  reg1 "BULK_STATUS" 0x108 [fRO 7 0],
  reg1 "BEAM_ERR" 0x10C beamErrFields]

/-- Chapter 15, SCRUB (R444). -/
def scrubRegs : List RegRow := [
  reg1 "SCRUB_CTRL" 0x100 [fRW 3 0 4],
  reg1 "SCRUB_STATUS" 0x104 [fRO 8 0, fRO 19 10, fRO 20 20, fRO 21 21],
  regN "SCRUB_HBM_DIRTY" 0x140 9 4 [fRO 31 0 0xFFFFFFFF],
  regN "SCRUB_DEEP_DIRTY" 0x180 30 4 [fRO 31 0],
  regN "SCRUB_DEEP_RETAIN" 0x200 30 4 [fW1C 31 0]]

/-- Chapter 07, NOISE (R213). -/
def noiseRegs : List RegRow := [
  reg1 "NOISE_STATUS" 0x100 [fRO 3 0, fRO 8 4, fRO 9 9, fRO 10 10],
  reg1 "NOISE_ERR" 0x104 [fW1C 3 0, fW1C 7 4, fW1C 8 8]]

/-- Chapter 15, BEACON (R437). -/
def beaconRegs : List RegRow := [
  regN "BCN_SRC" 0x100 768 4 [fRW 3 0, fRW 8 4, fRO 9 9, fRO 10 10, fRO 14 11]]

/-- Chapter 16, AGQM (R461). -/
def agqmRegs : List RegRow := [
  reg1 "AGQ_DEVQ" 0x100 [fRW 7 0],
  reg1 "CNT_CTRL" 0x104 [fWO 0 0, fWO 1 1, fWO 2 2, fWO 3 3, fRO 4 4],
  reg1 "AGQ_DEV_DROP" 0x108 [fRC 31 0],
  reg1 "AGQ_DEV_ERR" 0x10C [fW1C 0 0],
  regN "AGQ_SHQ" 0x140 16 4 [fRW 7 0, fRW 8 8],
  regN "AGQ_TAG" 0x180 16 4 [fRW 4 0]]

/-- Chapter 13, JORX (R385). -/
def jorxRegs : List RegRow := [
  reg1 "JORX_ID" 0x100 [fRO 13 0, fRO 14 14],
  reg1 "JORX_PANE" 0x104 [fRW 9 0],
  reg1 "JORX_ENUM" 0x108 [fRO 3 0, fRO 5 4, fRO 6 6],
  reg1 "JORX_EPOCH" 0x10C [fRO 15 0, fRO 16 16],
  reg1 "JORX_CTRL" 0x110 [fW1S 0 0, fW1S 1 1, fW1S 2 2, fW1S 3 3, fRW 4 4, fRO 5 5],
  reg1 "JORX_MGMT" 0x114 [fRW 4 0 0x1F, fRW 24 5],
  reg1 "JORX_TSYNC" 0x118 [fRO 0 0, fRO 31 16],
  reg1 "JORX_TMO" 0x11C [fRW 15 0 0xC8],
  reg1 "JORX_VIA_LO" 0x120 [fRW 31 0 0x76543210],
  reg1 "JORX_VIA_HI" 0x124 [fRW 31 0 0xFEDCBA98],
  reg1 "JORX_SYNC" 0x128 [fRW 3 0, fRW 6 4, fRW 7 7],
  reg1 "JORX_PEER_SEL" 0x12C [fRW 13 0],
  reg1 "JORX_PEER" 0x130 [fRO 15 0, fRO 16 16, fRO 17 17],
  reg1 "JORX_ERR" 0x134 [fW1C 0 0, fW1C 1 1, fW1C 2 2, fW1C 3 3, fW1C 4 4, fW1C 5 5]]

/-- Chapter 13, JPORT (R385). -/
def jportRegs : List RegRow := [
  reg1 "JPORT_CTRL" 0x100 [fRW 0 0, fRW 1 1, fRW 2 2],
  reg1 "JPORT_STATUS" 0x104 [fRO 1 0, fRO 15 2, fRO 20 16],
  reg1 "JPORT_ERR" 0x108 [fW1C 0 0, fW1C 1 1, fW1C 2 2, fW1C 3 3]]

/-- Chapter 10, MEMCTL (R308). -/
def memctlRegs : List RegRow := [
  reg1 "MEMCTL_STATUS" 0x100 [fRO 0 0, fRO 1 1, fRO 2 2, fRO 3 3, fRO 15 8],
  reg1 "MEMCTL_ECC" 0x104 [fRC 15 0, fW1C 16 16, fRO 17 17],
  reg1 "MEMCTL_ECC_ADDR_LO" 0x108 [fRO 31 0],
  reg1 "MEMCTL_ECC_ADDR_HI" 0x10C [fRO 15 0]]

/-- Chapter 15, BCN_TGT (R437). -/
def bcnTgtRegs : List RegRow := [
  reg1 "BCN_THRESH" 0x100 [fRW 3 0],
  reg1 "BCN_RUN" 0x104 [fRO 3 0, fRO 7 4],
  reg1 "BCN_ACTIVATE" 0x108 [fWO 9 0],
  reg1 "BCN_COMPLETE" 0x10C [fWO 9 0],
  reg1 "BCN_MOD" 0x110 [fRW 15 0, fRW 23 16],
  reg1 "BCN_IDLE" 0x114 [fRW 0 0],
  reg1 "BCN_SPURIOUS" 0x118 [fRC 15 0],
  regN "BCN_PEND" 0x180 24 4 [fRO 31 0],
  regN "BCN_ACT" 0x200 24 4 [fRO 31 0]]

/-- Chapter 16, AGQ (R461). -/
def agqRegs : List RegRow := [
  reg1 "AGQ_CFG" 0x100 [fRW 15 0, fRW 31 16],
  reg1 "AGQ_STATUS" 0x104 [fRO 16 0, fRO 17 17 1, fRO 18 18],
  reg1 "AGQ_HEAD" 0x108 [fRO 31 0],
  reg1 "AGQ_POP" 0x10C [fWO 31 0],
  reg1 "AGQ_LOST" 0x110 [fRC 31 0],
  reg1 "AGQ_ERR" 0x114 [fW1C 0 0, fW1C 1 1],
  regN "AGQ_WIN" 0x800 512 4 [fRO 31 0]]

/-- Chapter 15, SHCFG (R425). -/
def shcfgRegs : List RegRow := [
  reg1 "SH_CTRL" 0x100 [fRW 0 0, fW1S 1 1, fW1S 2 2, fRW 3 3, fRW 9 4],
  reg1 "SH_STATUS" 0x104 [fRO 1 0, fRO 2 2, fRO 8 3, fRO 31 16],
  reg1 "SH_PRISM_LO" 0x108 [fRO 31 0],
  reg1 "SH_PRISM_HI" 0x10C [fRO 15 0],
  reg1 "SH_QUOTA" 0x110 [fRW 8 0, fRW 25 16],
  reg1 "SH_USED" 0x114 [fRO 8 0, fRO 25 16],
  reg1 "SH_QOS" 0x118 [fRW 3 0 1, fRW 7 4 1, fRW 11 8 1, fRW 13 12 2, fRW 14 14],
  reg1 "SH_JDEST_PANE" 0x11C [fRW 9 0, fRW 19 10, fRW 20 20],
  reg1 "SH_JDEST_POS" 0x120 [fRW 15 0, fRW 31 16],
  reg1 "SH_ERR" 0x124 [fW1C 0 0, fW1C 1 1, fW1C 2 2, fW1C 3 3]]

/-- Chapter 11, TSTATE (R335). -/
def tstateRegs : List RegRow := [
  reg1 "TS_COMMIT_BASE_LO" 0x100 [fRW 31 9],
  reg1 "TS_COMMIT_BASE_HI" 0x104 [fRW 15 0],
  regN "TS_CSEQ" 0x108 2 4 [fRW 31 0],
  reg1 "TS_CSLOT" 0x110 [fRW 15 0, fRW 31 16],
  reg1 "TS_CLINE" 0x114 [fRW 0 0],
  reg1 "TS_ERR" 0x118 [fW1C 0 0, fW1C 1 1, fW1C 2 2, fW1C 3 3, fW1C 4 4, fW1C 5 5, fW1C 6 6, fW1C 7 7, fW1C 8 8, fRO 15 12],
  reg1 "TS_PHASE_BASE" 0x11C [fRW 15 0, fRW 16 16],
  reg1 "TS_PHASE_CUR" 0x120 [fRO 2 0],
  regN "TS_PHASE" 0x140 12 4 [fRO 31 0],
  regN "TS_RCTRL" 0x200 16 0x20 [fRW 0 0, fRW 2 1],
  regN "TS_RUNITS" 0x204 16 0x20 [fRW 23 0],
  regN "TS_RDATA_A" 0x208 16 0x20 [fRW 31 0],
  regN "TS_RDATA_B" 0x20C 16 0x20 [fRW 31 0],
  regN "TS_RSEAL_A" 0x210 16 0x20 [fRW 31 0],
  regN "TS_RSEAL_B" 0x214 16 0x20 [fRW 31 0],
  regN "TS_RCSEQ_LO" 0x218 16 0x20 [fRW 31 0],
  regN "TS_RCSEQ_HI" 0x21C 16 0x20 [fRW 31 0],
  regN "TS_WRITTEN" 0x400 16 4 [fRO 23 0, fRO 24 24, fRO 25 25]]

/-- Chapter 12, PATTERN (R352): 16 entries at a stride of 0x20. -/
def patternRegs : List RegRow := [
  regN "PAT_CTRL" 0x100 16 0x20 [fRW 0 0, fRW 6 1, fRW 7 7, fRW 8 8, fRW 9 9, fRW 10 10, fRW 11 11, fRW 12 12, fRW 18 13, fRW 24 19],
  regN "PAT_WIN" 0x104 16 0x20 [fRW 15 0, fRW 31 16],
  regN "PAT_STRD" 0x108 16 0x20 [fRW 15 0, fRW 31 16],
  regN "PAT_GLOB" 0x10C 16 0x20 [fRW 15 0, fRW 31 16],
  regN "PAT_WORK" 0x110 16 0x20 [fRW 15 0, fRW 22 16],
  regN "PAT_PSTEP" 0x114 16 0x20 [fRW 15 0],
  reg1 "PAT_ERR" 0x300 [fW1C 0 0, fRO 7 4]]

/-- The padded latencies of R391 at reset, k = 0 to 15. -/
def ordPadReset : List Nat := [26, 96, 480, 400, 840, 720, 4000, 1520, 1216, 170, 950, 1216, 1024, 128, 2]

/-- Chapter 14, REPLAY (R416). -/
def replayRegs : List RegRow := [
  reg1 "REPLAY_CTRL" 0x100 [fRW 0 0, fW1S 1 1, fW1S 2 2, fW1S 3 3],
  reg1 "REPLAY_STATUS" 0x104 [fRO 0 0, fRO 1 1, fRO 2 2, fRO 3 3, fRO 4 4, fRO 5 5, fRO 9 6],
  reg1 "REPLAY_YSPACE" 0x108 [fRW 13 0 0x7D0],
  reg1 "REPLAY_LIMIT" 0x10C [fRW 3 0 3],
  regN "REPLAY_EPOCH" 0x110 2 4 [fRO 31 0],
  reg1 "REPLAY_ERR" 0x118 [fW1C 0 0, fW1C 1 1, fW1C 2 2, fW1C 3 3, fRO 6 4],
  regN "REPLAY_GCTRL" 0x200 8 16 [fRW 0 0, fRW 4 1, fRO 5 5, fRO 6 6],
  regN "REPLAY_GBASE_LO" 0x204 8 16 [fRW 31 6],
  regN "REPLAY_GBASE_HI" 0x208 8 16 [fRW 15 0],
  regN "REPLAY_GSIZE" 0x20C 8 16 [fRW 31 0]]
  ++ ordPadReset.mapIdx fun k r => reg1 "ORD_PAD" (0x300 + 4 * k) [fRW 15 0 r]

/-- Chapter 13, JSHADE (R385). -/
def jshadeRegs : List RegRow := [
  regN "JG_CTRL" 0x100 8 16 [fRW 0 0, fRW 1 1, fRO 2 2, fRW 31 16],
  regN "JG_PANES" 0x104 8 16 [fRW 9 0, fRW 19 10, fRW 29 20],
  regN "JG_POS" 0x108 8 16 [fRW 15 0],
  regN "JG_COUNT" 0x10C 8 16 [fRO 31 0],
  reg1 "JSH_STAT" 0x180 [fRW 15 0, fRW 16 16],
  reg1 "JSH_ERR" 0x184 [fW1C 0 0, fW1C 1 1, fW1C 2 2]]

/-- Chapter 02, TILE (R82). -/
def tileRegs : List RegRow := [
  reg1 "TILE_ARRAY_STATUS" 0x100 [fRO 3 0, fRO 7 4, fRO 9 8, fRO 10 10, fRO 11 11, fRO 15 12],
  reg1 "TILE_ARRAY_ERR" 0x104 [fW1C 0 0, fW1C 1 1, fRO 7 4],
  reg1 "TILE_SLIT_CTRL" 0x108 [fRW 0 0]]

/-- Chapter 03, STENCIL (R109). -/
def stencilRegs : List RegRow := [
  reg1 "STENCIL_STATUS" 0x100 [fRO 3 0, fRO 4 4],
  reg1 "STENCIL_ERR" 0x104 [fW1C 0 0, fW1C 1 1, fW1C 2 2, fW1C 3 3, fRO 15 8]]

/-- Chapter 08, LANT (R249). -/
def lantRegs : List RegRow := [
  reg1 "LANT_CTRL" 0x100 [fWO 0 0, fWO 1 1],
  reg1 "LANT_STATUS" 0x104 [fRO 0 0 1, fRO 1 1 1, fRO 2 2, fRO 3 3, fRO 4 4, fRO 8 5, fRO 9 9],
  reg1 "LANT_PC" 0x108 [fRW 13 0],
  reg1 "LANT_FAULT" 0x10C [fRO 7 0, fRO 11 8, fRO 14 12, fW1C 15 15],
  reg1 "LANT_FAULT_ADDR" 0x110 [fRO 13 0, fRO 21 16, fRO 24 22],
  reg1 "LANT_HALTCODE" 0x114 [fRO 15 0],
  reg1 "LANT_TMO" 0x118 [fRW 23 0 0x2710],
  regN "LANT_TOKBUSY" 0x11C 2 4 [fRO 31 0],
  regN "LANT_FRAME" 0x124 2 4 [fRO 31 0],
  regN "LANT_BPL_ADDR" 0x12C 2 4 [fRW 31 0],
  reg1 "LANT_BPL_CTRL" 0x134 [fRW 5 0, fW1S 6 6]]

/-- Chapter 06, LENS (R193). -/
def lensRegs : List RegRow := [
  reg1 "LENS_STATUS" 0x100 [fRO 0 0, fRO 1 1, fRO 7 2, fRO 13 8, fRO 14 14, fRO 15 15],
  reg1 "LENS_ERR" 0x104 [fW1C 0 0, fW1C 1 1, fRO 13 8]]

/-- Chapter 06, FOCUS (R195). -/
def focusRegs : List RegRow := [
  reg1 "FOCUS_STATUS" 0x100 [fRO 0 0, fRO 1 1],
  regN "FOCUS_NAN" 0x104 2 4 [fW1C 31 0],
  reg1 "FOCUS_ERR" 0x10C [fW1C 0 0, fW1C 1 1]]

/-- Chapter 04, MASK (R140). -/
def maskRegs : List RegRow := [
  reg1 "MASK_SEL" 0x100 [fRW 5 0],
  reg1 "MASK_STATE" 0x104 [fRO 0 0, fRO 1 1, fRO 2 2, fRO 3 3, fRO 4 4, fRO 5 5, fRO 6 6],
  reg1 "MASK_EPOCH" 0x108 [fRO 31 0],
  reg1 "MASK_PRESENT" 0x10C [fRO 31 0],
  reg1 "MASK_ERR" 0x110 [fW1C 0 0, fW1C 1 1, fW1C 2 2, fRO 13 8]]

/-- Chapter 05, SAFE (R166). -/
def safeRegs : List RegRow := [
  reg1 "SAFE_UQ" 0x100 [fRW 15 0, fRW 23 16, fRO 31 24],
  reg1 "SAFE_FLAGS" 0x104 [fW1C 0 0, fW1C 1 1, fW1C 2 2],
  reg1 "SAFE_RED" 0x108 [fRO 2 0],
  reg1 "SAFE_LSCALE" 0x10C [fRW 5 0, fRW 23 8],
  reg1 "SAFE_LSRUN" 0x110 [fRW 15 0],
  reg1 "SAFE_ABSURD" 0x114 [fRW 15 0, fRW 31 16],
  reg1 "SAFE_ABSURD_LIM" 0x118 [fRW 31 0 0xFFFFFFFF],
  reg1 "SAFE_ABSURD_N" 0x11C [fRO 31 0],
  regN "SAFE_STEP" 0x120 2 4 [fRW 31 0],
  reg1 "SAFE_STATUS" 0x128 [fRO 0 0, fRO 1 1],
  reg1 "SAFE_ERR" 0x12C [fW1C 0 0, fW1C 1 1, fW1C 2 2, fW1C 3 3, fRO 15 8, fRO 23 16],
  regN "SAFE_SAT" 0x140 9 4 [fRC 31 0],
  regN "SAFE_UNF" 0x180 9 4 [fRC 31 0]]

/-- Chapter 07, SPECKLE (R213). -/
def speckleRegs : List RegRow := [
  regN "SPECKLE_SEED" 0x100 2 4 [fRW 31 0],
  reg1 "SPECKLE_CTRL" 0x108 [fRW 0 0, fRO 4 1],
  reg1 "SPECKLE_ERR" 0x10C [fW1C 0 0, fW1C 1 1]]

/-- Chapter 10, SCRATCH (R305). -/
def scratchRegs : List RegRow := [
  reg1 "SCR_TS_WIN" 0x100 [fRW 14 0, fRW 30 16 0x4000],
  reg1 "SCR_POOL_BASE" 0x104 [fRW 16 0],
  reg1 "SCR_POOL_SIZE" 0x108 [fRW 16 0 0xFA00],
  reg1 "SCR_ECC" 0x10C [fRC 15 0, fW1C 16 16, fRO 18 17, fRO 21 19],
  reg1 "SCR_ECC_ADDR" 0x110 [fRO 22 0]]

/-- Chapter 10, BEAM (R307). -/
def beamRegs : List RegRow := [
  reg1 "BEAM_STATUS" 0x100 [fRO 3 0, fRO 23 8],
  reg1 "BEAM_ERR" 0x104 beamErrFields]

/-- Chapter 13, JORX_RT: routing entries (R365, R385). -/
def jorxRtRegs : List RegRow := [
  regN "JORX_RT" 0x100 512 4 [fRW 4 0, fRW 20 5, fRW 22 21, fRW 23 23]]

/-- The block-specific registers of a page (R520). -/
def PageKind.regs : PageKind → List RegRow
  | .device => deviceRegs | .boot => bootRegs | .maint => maintRegs | .mailbox => mailboxRegs | .health => healthRegs
  | .dimmer => dimmerRegs | .mem => memRegs | .bulk => bulkRegs | .scrub => scrubRegs | .noise => noiseRegs
  | .beacon => beaconRegs | .agqm => agqmRegs | .jorx => jorxRegs | .jorxRt => jorxRtRegs | .jport => jportRegs
  | .memctl => memctlRegs | .bcnTgt => bcnTgtRegs | .agq => agqRegs | .shcfg => shcfgRegs | .tstate => tstateRegs
  | .pattern => patternRegs | .replay => replayRegs | .jshade => jshadeRegs | .tile => tileRegs | .stencil => stencilRegs
  | .lant => lantRegs | .lens => lensRegs | .focus => focusRegs | .mask => maskRegs | .safe => safeRegs
  | .speckle => speckleRegs | .scratch => scratchRegs | .beam => beamRegs

/-- Does a row hold the register at an offset? -/
def RegRow.holds (r : RegRow) (off : Nat) : Bool :=
  decide (r.off ≤ off) && decide ((off - r.off) % r.stride = 0) && decide ((off - r.off) / r.stride < r.n)

/-- The bits of BLK_ERR_INJECT that a page supports (R524). -/
def PageKind.inject : PageKind → List Field
  | .tile => [fRW 0 0, fRW 1 1, fRW 2 2]
  | .lant => [fRW 0 0, fRW 1 1, fRW 3 3]
  | .scratch | .memctl => [fRW 0 0, fRW 1 1]
  | .beam => [fRW 4 4]
  | _ => []

/-- The fields of the register at an offset of a page; none for a reserved offset (R521). -/
def fieldsAt (k : PageKind) (off : Nat) : Option (List Field) :=
  match (commonRegs ++ reg1 "BLK_ERR_INJECT" 0x020 k.inject :: k.regs).find? fun r => r.holds off with
  | some r => some r.fields
  | none => none

/-- The mask of a field's bits. -/
def Field.mask (f : Field) : Nat := (2 ^ (f.hi + 1) - 2 ^ f.lo)

/-- The reset value of the fields of a register. -/
def resetOfFields (fs : List Field) : Nat := fs.foldl (fun a f => a + f.reset * 2 ^ f.lo) 0

end Sys2Proof.Machine
end

