-- ==== Sys2Proof/Machine/State.lean ====
section
/-! DEFINITION. The state of the LMA9600: every piece of state the spec names, as plain data. Registers that software reads and
writes whole live in `regs` under their page, instance and offset (R514 to R520); state inside a unit is typed. -/

namespace Sys2Proof.Machine

/-- Why a command can stop the machine. No rule of the spec stops the block itself: a failing operation halts its shade's
Lantern and the device goes on (R220, R221), so nothing raises this; the type is here for the host's interface. -/
inductive Fault where
  /-- Raised by nobody in this model. Safe: it could only stop a run. -/
  | stopped
  deriving DecidableEq, Repr

/-- Why a command can be refused. -/
inductive Refusal where
  /-- Raised by the arms of exec for a row that has no meaning yet. Safe: a refused command changes nothing. -/
  | notModelled (mnemonic : String)
  deriving DecidableEq, Repr

/-! ## The Lantern of a shade (chapter 08) -/

/-- One loop counter l0 to l3 (R234). -/
structure LoopCtr where
  active : Bool
  start : Nat
  endAddr : Nat
  /-- iterations left, the current one included -/
  remaining : Nat
  /-- bundles issued when it started: the larger, the more recently started -/
  stamp : Nat
  deriving DecidableEq, Repr

/-- One frame of the bundle store (R224 to R226). -/
structure Frame where
  valid : Bool
  /-- the recorded shade-virtual source address -/
  src : Nat
  /-- a BPL into the frame is in flight -/
  loading : Bool
  deriving DecidableEq, Repr

/-- The scalar and control state of a shade's Lantern (R231). -/
structure Lantern where
  halted : Bool
  /-- LANT_CTRL.STOP was written: halt after the next bundle issues -/
  stopReq : Bool
  /-- a WAIT holds its bundle since this timebase value -/
  waitSince : Option Nat
  /-- a YIELD is in progress, with its STEP_END -/
  yielding : Option Bool
  /-- a REPEAT is in progress: repetitions left -/
  rep : Option Nat
  pc : BitVec 14
  loops : Vector LoopCtr 4
  g : Vector W64 64
  p : BitVec 16
  /-- g-registers pending an asynchronous result (R238) -/
  pendG : BitVec 64
  tok : Vector (BitVec 6) 64
  frames : Vector Frame 64
  /-- RDS BUNDLES and CYCLES (R241) -/
  bundles : W64
  cycles : W64
  /-- the timebase at which the present yield-spacing interval began (R400) -/
  yieldAt : Nat
  /-- bundle address of the YIELD in progress -/
  yieldPc : Nat
  deriving DecidableEq, Repr

/-- The mask state of one mask object (R116). -/
structure MaskSt where
  epoch : W32
  cur : Bool
  built : Bool
  edited : Bool
  pend : Bool
  copy : Bool
  retired : Bool
  /-- present blocks as of the last MIRROR.BUILD of the current epoch -/
  present : W32
  /-- present blocks of the epoch last built -/
  presentNext : W32
  /-- bundle address of the YIELD whose commit started the copy (R119) -/
  copyAddr : Nat
  deriving DecidableEq, Repr

/-- A mask object's reset state (R116). -/
def MaskSt.reset : MaskSt := ⟨0, false, false, false, false, false, false, 0, 0, 0⟩

/-- An operation waiting in a unit queue: what its slot named, as resolved and captured at issue (R228, R231, R240). -/
structure QOp where
  id : Nat
  slot : Nat
  baddr : Nat
  op : SlotOp
  /-- the g-registers at issue, from which every operand is resolved (R231) -/
  g : Vector W64 64
  /-- the descriptor file at issue (R240) -/
  desc : FMap W64
  /-- the mask states at issue: the epochs and parities captured (R117) -/
  masks : FMap MaskSt
  /-- the seed and generator at issue (R200) -/
  seed : W64
  gen : Bool
  /-- SAFE_LSCALE.EXP and SAFE_STATUS.SKIP at issue (R159, R173) -/
  lsc : BitVec 6
  skip : Bool
  deriving DecidableEq, Repr

/-- An operation that has started and whose token is not yet released. -/
structure Running where
  q : QOp
  /-- its last effect is made: the release may reach the lead Lantern -/
  done : Bool
  /-- g-register results written at the release (R238) -/
  results : List (Nat × W64)
  deriving DecidableEq, Repr

/-! ## Tiles: the array, the Stencil and the store pipeline (chapters 02, 03, 04, 09) -/

/-- An accumulator pair: s is FP32, r is FP16 in units of ulp(s) (R65). -/
structure AccPair where
  s : W32
  r : BitVec 16
  deriving DecidableEq, Repr

/-- An array operation in one tile: the operation as captured, its problem, and the pass cursor captured at its start check
(R262). -/
structure Job where
  q : QOp
  p : Nat
  cursor : Nat
  /-- k-blocks of the reduction walk already passed over or multiplied -/
  kpos : Nat
  deriving DecidableEq, Repr

/-- A gathered block of an MMS pass: its block row and its payload slot (R135). -/
structure Gather where
  row : Nat
  slot : Nat
  deriving DecidableEq, Repr

/-- An arming of a problem by SILH (R137): the operation as captured and its control word. -/
structure SilArm where
  mo : Nat
  word : W64
  deriving DecidableEq, Repr

/-- A pass in one accumulator bank (R60). -/
structure Pass where
  bank : Bool
  opmode : Nat
  afmt : Nat
  bfmt : Nat
  fast : Bool
  acc : FMap AccPair
  /-- chunks promoted, to the limit of R69 -/
  chunks : Nat
  /-- operations whose multiplies are not over, oldest first -/
  jobs : List Job
  /-- the operation that opened it -/
  opener : Job
  /-- k range covered so far, for an Umbra entry (R148) -/
  k0 : Nat
  k1 : Nat
  /-- the STORE that closed it -/
  store : Option Job
  /-- the blocks gathered by an MMS pass, and the arming it consumed -/
  gather : Option (List Gather)
  sil : Option SilArm
  draining : Bool
  deriving DecidableEq, Repr

/-- An MMS in progress in a problem: the gather list not yet opened (R135). -/
structure MmsSt where
  job : Job
  col : Nat
  rest : List Gather
  sil : Option SilArm
  deriving DecidableEq, Repr

/-- A candidate of group assembly: a decided block of an open group (R105). -/
structure Cand where
  col : Nat
  score : W32
  /-- its STORE computes glints -/
  glen : Bool
  deriving DecidableEq, Repr

/-- An open STRIDED group of a problem (R105): its destination descriptor number and captured descriptors, its place, its next
block column and its candidates. -/
structure OpenGroup where
  tdc : Nat
  desc : FMap W64
  rho : Nat
  grp : Nat
  next : Nat
  cands : List Cand
  /-- the mode and stage of the STORE that opened it -/
  scw : W64
  /-- block row within the drained bank -/
  brow : Nat
  deriving DecidableEq, Repr

/-- A problem of a tile. -/
structure ProbSt where
  opened : Option Pass
  /-- closed banks, oldest first -/
  closed : List Pass
  nextBank : Bool
  arm : Option SilArm
  mms : Option MmsSt
  groups : List OpenGroup
  deriving DecidableEq, Repr

/-- A tile's array and Stencil. -/
structure TileSt where
  pack : Nat
  probs : Vector ProbSt 4
  /-- closed banks whose last promotion is complete, in that order, by problem (R77) -/
  drainQ : List Nat
  /-- the problem last granted a k-block (R535) -/
  granted : Nat
  /-- gated products not yet counted in units of 256 (R83) -/
  gated : Nat
  deriving DecidableEq, Repr

/-- An idle problem. -/
def ProbSt.reset : ProbSt := ⟨none, [], false, none, none, []⟩
/-- An idle tile. -/
def TileSt.reset : TileSt := ⟨0, Vector.replicate 4 ProbSt.reset, [], 3, 0⟩
/-- What an unlisted tile is. -/
def tileDefault (_ : Nat) : TileSt := TileSt.reset

/-- A drained partial on its way to a combine (R268): a tile's, or a prism's combined one. -/
structure Partial where
  prism : Nat
  tile : Nat
  job : Job
  opmode : Nat
  acc : FMap AccPair
  k0 : Nat
  k1 : Nat
  deriving DecidableEq, Repr

/-- One logged DWR: the words it wrote with their old contents, one for each tile of an LD, and the old pass cursors of the tiles
written (R252). -/
structure DwrLog where
  words : List (Nat × W64)
  cursors : List (Nat × Nat)
  deriving DecidableEq, Repr

/-- One fresh seed of the epoch's log (R203). -/
structure FreshLog where
  seed : W64
  used : Bool
  deriving DecidableEq, Repr

/-- One Umbra entry of a prism's queue (R148, R149): the place of its values in the layer's product and the values. -/
structure UmbraEntry where
  prism : Nat
  layer : Nat
  row0 : Nat
  col0 : Nat
  width : Nat
  k0 : Nat
  k1 : Nat
  /-- operations the shade had issued when the entry was made -/
  stamp : Nat
  /-- values in FP32, row by row -/
  ys : List W32
  deriving DecidableEq, Repr

/-- Safeguard and Speckle state of a shade that no register shows (R143, R146, R199, R332). -/
structure SafeSt where
  /-- sampling seed and generator, taken at the last step boundary (R146, R199) -/
  sampSeed : W64
  sampGen : Bool
  /-- a step boundary has been since shade reset (R199) -/
  stepped : Bool
  fresh : List FreshLog
  /-- SEED.FRESH commands served in this epoch -/
  freshUsed : Nat
  umbra : List UmbraEntry
  /-- the phase in force; since when its time runs, while the Lantern is not halted; and its time before the last halt (R332) -/
  phase : BitVec 3
  phaseAt : Nat
  phaseSpent : Nat
  /-- the timebase at the last step boundary, and rollbacks since it (R333) -/
  spanFrom : Nat
  rollbacks : Nat
  /-- region and SAFE_STEP of each write into a state region since the last commit (R324, R328) -/
  wsteps : List (Nat × Nat)
  deriving DecidableEq, Repr

/-- The result a member keeps of a collective (R374). -/
structure Kept where
  group : GroupIx
  number : Nat
  words : List W64
  dead : Bool
  deriving DecidableEq, Repr

/-- What a gatherer or root holds of a collective: the arrivals, by the lowest device each covers, and whether it has sent its own
on (R374). -/
structure Gathering where
  group : GroupIx
  number : Nat
  arrived : List (DevId × List W64)
  dead : Bool
  sent : Bool
  deriving DecidableEq, Repr

/-- A collective a member has issued and not completed: its operation, the BCAST_DATA messages still to come, and the release time and
result once the RELEASE is here. -/
structure Member where
  group : GroupIx
  number : Nat
  q : QOp
  need : Nat
  release : Option (Nat × List W64 × Bool)
  deriving DecidableEq, Repr

/-- A shade's collectives (R374): the number of the next one by group, the kept results, what gathers here, what runs, and how many
were issued since the last yield point by group. -/
structure CollSt where
  next : FMap Nat
  kept : List Kept
  gathers : List Gathering
  members : List Member
  issued : FMap Nat
  deriving DecidableEq, Repr

/-- What a replay record holds of a shade's typed state (R236, R402): the Lantern, and the state other units list. -/
structure Record where
  epoch : W64
  lan : Lantern
  cursors : FMap Nat
  masks : FMap MaskSt
  saf : SafeSt
  /-- registers of the shade's pages the record holds: key and value -/
  regs : List (Nat × W32)
  /-- maintained layer-table words (R252) -/
  layers : List (Nat × W64)
  /-- collective numbers and kept results (R382) -/
  collNext : FMap Nat
  kept : List Kept
  /-- glint sums: prism 256p + n's (R396, R402) -/
  glints : List (Nat × W64)
  deriving DecidableEq, Repr

/-- A rollback in progress: what began it (0 a fault, 1 FORCE, 2 the host) and the fault's code (R404, R453). -/
structure Rolling where
  trigger : Nat
  code : Nat
  deriving DecidableEq, Repr

/-- The replay state of a shade (R401 to R416), with what else holds it at a yield point: physical prisms whose self-test window
runs (R467), and a DVFS step (R482). -/
structure ReplaySt where
  epoch : W64
  /-- the two record slots -/
  slot0 : Option Record
  slot1 : Option Record
  newest : Bool
  rolling : Option Rolling
  preemptReq : Bool
  forceReq : Bool
  /-- REPLAY_STATUS.PREEMPTED -/
  preempted : Bool
  rbCount : Nat
  /-- of these, forced stops, which do not count toward the limit (R414) -/
  forced : Nat
  replaying : Bool
  hold : Bool
  /-- streams this epoch has sent on, with the next SEQ each had at its start (R403) -/
  streamLog : List (Nat × Nat)
  window : List Nat
  dvfs : Bool
  deriving DecidableEq, Repr

/-- A message awaiting its ACK or data (R370, R371): the operation's id, the remote shade, its SEQ or request tag, the place of the prism
in its shade, when it was sent, and the routing copy it was injected under. -/
structure OpenMsg where
  opId : Nat
  dev : DevId
  shade : ShadeIx
  get : Bool
  arg : Nat
  pos : Nat
  sentAt : Nat
  tsel : Bool
  deriving DecidableEq, Repr

/-- A combine slot of an adder tree (R268 to R270). -/
structure CombineSlot where
  prism : Nat
  tdc : Nat
  origin : Nat
  ctiles : Nat
  croot : Nat
  opmode : Nat
  acc : FMap AccPair
  /-- at the root of a PRISM combine: the prism partials combined so far -/
  pacc : FMap AccPair
  /-- tiles, and at the root prisms, that have delivered -/
  gotTiles : List Nat
  gotPrisms : List Nat
  k0 : Nat
  k1 : Nat
  /-- the STORE of the writer, once it has delivered (R268) -/
  writer : Option Job
  /-- the STOREs that delivered -/
  ids : List Nat
  deriving DecidableEq, Repr

/-- The tagged bundle in flight (R460): its address, RDS BUNDLES and CYCLES at its issue, its unit operations with their slots, and
those that have started and that have completed. -/
structure TagSt where
  baddr : Nat
  bundles : W64
  cycles : W64
  ops : List (Nat × Nat)
  started : List Nat
  ended : List Nat
  deriving DecidableEq, Repr

/-- A shade. -/
structure ShadeSt where
  lan : Lantern
  queue : List QOp
  running : List Running
  nextId : Nat
  desc : FMap W64
  cursors : FMap Nat
  dwrLog : List DwrLog
  masks : FMap MaskSt
  saf : SafeSt
  rep : ReplaySt
  colls : CollSt
  open_ : List OpenMsg
  combines : List CombineSlot
  /-- tile partials awaiting the adder tree, and prism partials awaiting the root (R269) -/
  partials : List Partial
  prismPartials : List Partial
  /-- origins of the pattern tables that stand in the work areas, by entry (R342) -/
  genTab : FMap (Option W64)
  /-- SH_STATUS.STATE: 0 OFF, 1 READY, 2 RESETTING, 3 KILLING -/
  life : Nat
  tag : Option TagSt
  deriving DecidableEq, Repr

/-! ## Beacon, Afterglow, counters (chapters 15 and 16) -/

/-- A held rise of a Beacon target's deliverable priority (R435). -/
structure Moderation where
  since : Nat
  count : Nat
  deriving DecidableEq, Repr

/-- Beacon: pending and active sources. Priorities and targets are registers (R432, R433). -/
structure BeaconSt where
  /-- pending sources, rising -/
  pend : List Nat
  /-- active sources with the priority recorded at ACTIVATE, rising -/
  act : List (Nat × Nat)
  /-- held rises, by target -/
  held : FMap (Option Moderation)
  deriving DecidableEq, Repr

/-- One packet of an Afterglow queue (R448, R449): its 8-byte words, the length word first. -/
structure Packet where
  pseq : W32
  cells : Nat
  words : List W64
  complete : Bool
  deriving DecidableEq, Repr

/-- An Afterglow queue (R446 to R455), oldest packet first. -/
structure AgQueue where
  packets : List Packet
  nextSeq : W32
  deriving DecidableEq, Repr

/-- A record waiting for the event SRAM's write port (R451). -/
structure Staged where
  queue : Nat
  typ : Nat
  shade : Option ShadeIx
  len : Nat
  /-- TIME and the body words -/
  words : List W64
  deriving DecidableEq, Repr

/-- A snapshot request of the collector (R458, R459). -/
structure SnapReq where
  /-- 0 PF, 1 CNT, 2 ARRAY -/
  source : Nat
  shade : Option ShadeIx
  inconsistent : Bool
  /-- the hold was set before the request -/
  wasHeld : Bool
  deriving DecidableEq, Repr

/-- Afterglow and the counter collector. -/
structure AfterglowSt where
  queues : FMap AgQueue
  staged : List Staged
  snaps : List SnapReq
  snapCount : Nat
  /-- shade holds of pages: 1 where set, by kind and instance (R458) -/
  shadeHold : FMap Bool
  /-- pages, keyed alike, whose device hold a shade reset has cleared since it was set (R459) -/
  devThaw : FMap Bool
  /-- clears that wait for the collector to copy their pages: their scope, and that of the snapshot under way (R459) -/
  clears : List (Option ShadeIx × Option ShadeIx)
  deriving DecidableEq, Repr

/-- The host side: MSI-X tables, the links and the last completions. -/
structure HostSt where
  /-- MSI-X mask bits: entry e of function f (0 PF, 1 + s VF s) at 64f + e -/
  msixMask : FMap Bool
  /-- MSI-X pending bits, keyed alike -/
  msixPba : FMap Bool
  /-- MSI-X messages sent, keyed alike -/
  msixSent : FMap Nat
  /-- VFs that exist under SR-IOV, as a mask -/
  vfs : Nat
  /-- data of the last register read -/
  readData : W64
  /-- the last read was completed as Unsupported Request -/
  readUR : Bool
  /-- TB_HI latches: PF, I3C, firmware, then VF s at 3 + s (R526) -/
  tbLatch : FMap (Option W32)
  /-- VF_PWIN.K of each VF (R519) -/
  pwin : FMap Nat
  deriving DecidableEq, Repr

/-! ## Health, maintenance and the Dimmer (chapter 17) -/

/-- What the fault logic keeps of the physical prisms (R465, R468, R474, R476, R479). -/
structure HealthSt where
  /-- timebase values of the faults attributed to a prism, newest last -/
  faults : FMap (List Nat)
  /-- timebase value at the end of a prism's last window -/
  tested : FMap Nat
  /-- PASS, TILE and UNIT of a prism's last window, as the mailbox shows them (R530) -/
  result : FMap Nat
  /-- prisms whose substitution is queued, in fence order -/
  subs : List Nat
  /-- the logical number a fenced prism held, and its owner -/
  former : FMap (Option (Nat × Nat))
  /-- sensor readings as DIM_SENS shows them, TEMP and EXCLUDED -/
  sensors : FMap Nat
  deriving DecidableEq, Repr

/-- What the maintenance token's holder has in hand (R472, R475, R503): the prism SPARE_SUB acts on, with its spare once it has one;
and the bytes a flash activity writes, by offset, with what RESULT is due. -/
structure MaintSt where
  subject : Option Nat
  spare : Option Nat
  unfencing : Bool
  flash : List (Nat × List Byte)
  refused : Bool
  /-- the flash buffer is still to be read -/
  reading : Bool
  /-- when the token was granted -/
  since : Nat
  deriving DecidableEq, Repr

/-- The Dimmer (R479 to R483). -/
structure DimmerSt where
  thermal : Nat
  power : Nat
  current : Nat
  /-- temperatures of the HBM stacks in °C -/
  stackTemp : FMap Nat
  /-- the FSTEP of a DVFS step that waits for yield points -/
  target : Option Nat
  /-- since when GATE has been 8 or more, and 0 -/
  highSince : Option Nat
  lowSince : Option Nat
  /-- when the last step was requested -/
  asked : Option Nat
  /-- failed transactions in a row, by entry of the VRM record -/
  vrmFails : FMap Nat
  /-- the droop detectors stretch the clock -/
  stretch : Bool
  deriving DecidableEq, Repr

/-! ## Power, reset, boot and the sideband interfaces (chapter 18) -/

/-- Pins and reset state held by the AON domain (R484, R488, R493, R495). -/
structure PowerSt where
  rstLow : Bool
  perstLow : Bool
  /-- the present low level has been reported (R497) -/
  heldSaid : Bool
  /-- a rail is out of tolerance since a brown-out -/
  railLow : Bool
  /-- in device reset: boot has not begun -/
  inReset : Bool
  /-- boot has begun and has neither ended nor stopped -/
  booting : Bool
  /-- THERMTRIP_N is asserted -/
  tripped : Bool
  /-- REFCLK has stopped -/
  noRef : Bool
  deriving DecidableEq, Repr

/-- The config records in effect since boot (R504). -/
structure ConfigSt where
  repair : W64
  vf : List Nat
  vfDefault : Bool
  vrm : List W32
  i3cAddr : BitVec 7
  pcieId : W32
  deriving DecidableEq, Repr

/-- The I3C target: its dynamic address and the in-band interrupts raised, by data byte (R506). -/
structure I3cSt where
  addr : Option (BitVec 7)
  ibis : FMap Nat
  deriving DecidableEq, Repr

/-- TAP instructions (R508). -/
inductive TapInstr where
  | bypass | idcode | samplePreload | extest | clamp | highz
  deriving DecidableEq, Repr

/-- The test access port: the instruction in force, the pins last sampled, and the boundary cells preloaded (R508). -/
structure TapSt where
  instr : TapInstr
  sampled : BitVec 24
  cells : BitVec 24
  /-- the identification code as last captured -/
  out : W32
  deriving DecidableEq, Repr

/-- The PCIe link: in L0, its rate in GT/s and its width (R505). -/
structure PcieSt where
  l0 : Bool
  rate : Nat
  width : Nat
  deriving DecidableEq, Repr

/-- The mailbox command that runs, as captured at its GO (R531). -/
structure MbxSt where
  op : Nat
  args : List W32
  deriving DecidableEq, Repr

/-! ## The noise source (chapter 07) -/

/-- A ring oscillator and its health tests (R210, R212). -/
structure Osc where
  /-- healthy and in use -/
  used : Bool
  /-- excluded after a failed test -/
  excl : Bool
  /-- samples of the start-up test still to pass -/
  left : Nat
  last : Bool
  /-- identical consecutive samples -/
  run : Nat
  first : Bool
  /-- samples of the window equal to the first -/
  same : Nat
  /-- samples of the window so far -/
  pos : Nat
  /-- failures since device reset -/
  fails : Nat
  deriving DecidableEq, Repr

/-- The noise source: oscillators, the conditioning block in progress (its raw bits, the first lowest, and their number), the pool
and the shades whose SEED.FRESH wait for it, in order (R211). -/
structure NoiseSt where
  osc : Vector Osc 4
  block : Nat
  bits : Nat
  pool : List W64
  waiting : List ShadeIx
  deriving DecidableEq, Repr

/-- The noise source at reset (R211). -/
def NoiseSt.reset : NoiseSt := ⟨Vector.replicate 4 ⟨false, false, 1024, false, 0, false, 0, 0, 0⟩, 0, 0, [], []⟩

/-! ## Jorx (chapter 13) -/

/-- A flit that a port has sent: its link sequence number and channel, the message it opens (a HEAD) or none, and which flit of the
message it is (R356, R357). -/
structure Flit where
  lseq : Nat
  vc : Nat
  msg : Option Msg
  part : Nat
  deriving DecidableEq, Repr

/-- A port (R355, R357, R380). -/
structure PortSt where
  /-- link sequence number of the next flit -/
  lseq : Nat
  /-- the last 256 flits sent, oldest first -/
  buf : List Flit
  /-- link sequence number of the last flit received in order -/
  rx : Nat
  /-- times in a row that the same flit was resent, and that flit's number -/
  resends : Nat
  resendFrom : Nat
  /-- timebase values of retrains, newest last -/
  retrains : List Nat
  /-- heartbeats missed since the last one received -/
  missed : Nat
  /-- a PROBE reply has come since -/
  replied : Bool
  /-- when training began or the port went DOWN -/
  since : Nat
  deriving DecidableEq, Repr

/-- What the device records of another device (R360, R380, R381). -/
structure Peer where
  epoch : BitVec 16
  alive : Bool
  deriving DecidableEq, Repr

/-- SYNC_N as this device drives and sees it (R378): it drives the line low; since when; and a BARRIER waits for the line. -/
structure SyncSt where
  low : Bool
  since : Nat
  /-- the line must still be released for a BARRIER that was issued -/
  want : Bool
  deriving DecidableEq, Repr

/-- The management tree (R374): a collective under way, the children that have arrived with their ARM bits, and a release that waits for
its time. -/
structure MgmtSt where
  running : Option MgmtKind
  arrived : List (PortIx × Bool)
  release : Option (MgmtKind × Nat × Bool)
  deriving DecidableEq, Repr

/-- The device's Jorx state. -/
structure JorxSt where
  ports : Vector PortSt 20
  peers : FMap (Option Peer)
  /-- next SEQ of each outbound stream -/
  outSeq : FMap Nat
  /-- highest SEQ accepted of each inbound stream, plus 1 -/
  inSeq : FMap Nat
  nextTag : Nat
  /-- ENUM: the last frame received, the frames sent and when sampling began -/
  enumLast : Option Nat
  enumSent : Nat
  enumFrom : Nat
  /-- JORX_PANE has been written since device reset (R363) -/
  paneWritten : Bool
  sync : SyncSt
  mgmt : MgmtSt
  /-- injection is held from this time for a snapshot (R383) -/
  holdFrom : Option Nat
  /-- when the parent last changed (R379) -/
  parentSince : Nat
  /-- what is left to slew, in 1/64 ns, and ticks since the last slewed one -/
  slew : Int
  slewTicks : Nat
  deriving DecidableEq, Repr

/-- A port that is DOWN. -/
def PortSt.reset : PortSt := ⟨0, [], 0, 0, 0, [], 0, false, 0⟩

/-- Jorx at device reset. -/
def JorxSt.reset : JorxSt :=
  ⟨Vector.replicate 20 PortSt.reset, FMap.empty, FMap.empty, FMap.empty, 0, none, 0, 0, false,
   ⟨false, 0, false⟩, ⟨none, [], none⟩, none, 0, 0, 0⟩

/-- A shade's collectives at shade reset. -/
def CollSt.reset : CollSt := ⟨FMap.empty, [], [], [], FMap.empty⟩

/-! ## The device -/

/-- The state of the device. -/
structure State where
  /-- commands waiting, first in first out (the model's own) -/
  pending : List Instr
  /-- the model's counter of free values taken (the model's own) -/
  fresh : Nat
  /-- TIMEBASE, in ns (R3) -/
  tb : W64
  regs : FMap W32
  mem : FMap Byte
  /-- words of memory that hold an error, by address over 8: 1 correctable, 2 uncorrectable (R276, R281) -/
  ecc : FMap Nat
  /-- tiles, physical prism p's tile t at 8p + t -/
  tiles : FMap TileSt
  /-- glint accumulators, tile 8p + t's for descriptor n at 256(8p + t) + n (R396) -/
  glints : FMap W64
  /-- what counters in units of 256 have not yet counted, by page, instance and event (R83, R194, R196, R214) -/
  units : FMap Nat
  /-- owners: physical prism p at p (R419), Afterglow queue q at 64 + q (R456) -/
  owner : FMap Nat
  shades : Vector ShadeSt 16
  bcn : BeaconSt
  agq : AfterglowSt
  host : HostSt
  health : HealthSt
  noise : NoiseSt
  jorx : JorxSt
  maint : MaintSt
  dim : DimmerSt
  power : PowerSt
  config : ConfigSt
  i3c : I3cSt
  tap : TapSt
  pcie : PcieSt
  mbx : Option MbxSt
  /-- units being zeroed: bulk Beam, deep tier, unit (R423) -/
  scrubs : List (Nat × Bool × Nat)
  /-- where the core clock stands in its run of 16 cycles, in sixtieths of a cycle (R480 to R482) -/
  coreFrac : Nat
  /-- the conditions of cycle events that held in the last cycle seen, by page, instance and event (R457) -/
  inCond : FMap Bool
  deriving DecidableEq, Repr

/-! ## The device right after power-on -/

/-- A Lantern's reset state (R224, R234, R238, R242, R249): halted, bundle address 0, every register, token and loop clear, no frame
valid. -/
def Lantern.reset : Lantern :=
  ⟨true, false, none, none, none, 0, Vector.replicate 4 ⟨false, 0, 0, 0, 0⟩, Vector.replicate 64 0, 0, 0, Vector.replicate 64 0,
   Vector.replicate 64 ⟨false, 0, false⟩, 0, 0, 0, 0⟩

/-- Safeguard and Speckle state at reset. -/
def SafeSt.reset : SafeSt := ⟨0, false, false, [], 0, [], 0, 0, 0, 0, 0, []⟩

/-- Replay state at reset: no record (R401, R417). -/
def ReplaySt.reset : ReplaySt := ⟨0, none, none, false, none, false, false, false, 0, 0, false, false, [], [], false⟩

/-- A shade that is OFF (R440). -/
def ShadeSt.reset : ShadeSt :=
  ⟨Lantern.reset, [], [], 0, FMap.empty, FMap.empty, [], FMap.empty, SafeSt.reset, ReplaySt.reset, CollSt.reset, [], [], [], [],
   FMap.empty, 0, none⟩

/-- Health state at device reset. -/
def HealthSt.reset : HealthSt := ⟨FMap.empty, FMap.empty, FMap.empty, [], FMap.empty, FMap.empty⟩

/-- No maintenance activity. -/
def MaintSt.reset : MaintSt := ⟨none, none, false, [], false, false, 0⟩

/-- The Dimmer at device reset. -/
def DimmerSt.reset : DimmerSt := ⟨0, 0, 0, FMap.empty, none, none, none, none, FMap.empty, false⟩

/-- The defaults of the config records (R504). -/
def ConfigSt.default : ConfigSt := ⟨0, List.replicate 23 680, true, [], 0x5A, 0⟩

/-- BOOT_RST_CAUSE_0 as power-on writes it: VALID, POWER_ON (R512). The key is that of offset 0x120 of the BOOT page. -/
def powerOnLog : Nat × W32 := (1 * 1024 * 4096 + 0x120, 16)

/-- The device right after a power-on reset, before boot (R440, R495): RST_N is low (R492). -/
def State.reset : State where
  pending := []
  fresh := 0
  tb := 0
  regs := ⟨[powerOnLog]⟩
  mem := FMap.empty
  ecc := FMap.empty
  tiles := FMap.empty
  glints := FMap.empty
  units := FMap.empty
  owner := FMap.empty
  shades := Vector.replicate 16 ShadeSt.reset
  bcn := ⟨[], [], FMap.empty⟩
  agq := ⟨FMap.empty, [], [], 0, FMap.empty, FMap.empty, []⟩
  host := ⟨FMap.empty, FMap.empty, FMap.empty, 0, 0, false, FMap.empty, FMap.empty⟩
  health := HealthSt.reset
  noise := NoiseSt.reset
  jorx := JorxSt.reset
  maint := MaintSt.reset
  dim := DimmerSt.reset
  power := ⟨true, true, false, false, true, false, false, false⟩
  config := ConfigSt.default
  i3c := ⟨none, FMap.empty⟩
  tap := ⟨.bypass, 0, 0, 0⟩
  pcie := ⟨false, 0, 0⟩
  mbx := none
  scrubs := []
  coreFrac := 0
  inCond := FMap.empty

end Sys2Proof.Machine
end

