-- ==== Sys2Proof/Machine/Ops.lean ====
section
/-! DEFINITION. The named operations that every unit shares: registers by page (R514 to R521), block counters (R457), prisms and
shades (R419, R470), Beacon (R430 to R436), Afterglow records (R448 to R453), fault records and halts (R220 to R223, R242). -/

namespace Sys2Proof.Machine

/-! ## Registers -/

/-- Every block type, in the order of `PageKind.ix`. -/
def PageKind.all : List PageKind :=
  [.device, .boot, .maint, .mailbox, .health, .dimmer, .mem, .bulk, .scrub, .noise, .beacon, .agqm, .jorx, .jorxRt, .jport, .memctl,
   .bcnTgt, .agq, .shcfg, .tstate, .pattern, .replay, .jshade, .tile, .stencil, .lant, .lens, .focus, .mask, .safe, .speckle,
   .scratch, .beam]

/-- The block type at a place of the page map. -/
def PageKind.ofIx (i : Nat) : PageKind := (PageKind.all[i]?).getD .device

/-- The key of a page's register. A shade's state that its lead prism's page shows (R249) is kept under instance 512 + shade. -/
def rkey (k : PageKind) (inst off : Nat) : Nat := (k.ix * 1024 + inst) * 4096 + off

/-- The instance under which a shade's own registers of a per-prism page are kept. -/
def shInst (sh : ShadeIx) : Nat := 512 + sh.val

/-- The reset target of a Beacon source (R432). -/
def bcnTargetReset (n : Nat) : Nat := if 0x020 ≤ n ∧ n < 0x120 then 3 + (n - 0x020) / 16 else 2

/-- What an unlisted register reads as: its reset value. -/
def regDefault (key : Nat) : W32 :=
  let off := key % 4096
  let k := PageKind.ofIx (key / 4096 / 1024)
  if k = .beacon ∧ 0x100 ≤ off then BitVec.ofNat 32 (bcnTargetReset ((off - 0x100) / 4) * 16)
  else match fieldsAt k off with
    | some fs => BitVec.ofNat 32 (resetOfFields fs)
    | none => 0

/-- The stored value of a register. -/
def State.getR (s : State) (k : PageKind) (inst off : Nat) : Nat := (s.regs.get regDefault (rkey k inst off)).toNat

/-- Store a register. -/
def State.setR (s : State) (k : PageKind) (inst off v : Nat) : State :=
  { s with regs := s.regs.set regDefault (rkey k inst off) (BitVec.ofNat 32 v) }

/-- A field of a register. -/
def State.getF (s : State) (k : PageKind) (inst off hi lo : Nat) : Nat := bitsOf (s.getR k inst off) hi lo

/-- A number with its bits [hi:lo] replaced. -/
def putBits (w hi lo v : Nat) : Nat :=
  w - bitsOf w hi lo * 2 ^ lo + (v % 2 ^ (hi + 1 - lo)) * 2 ^ lo

/-- Store a field of a register. -/
def State.setF (s : State) (k : PageKind) (inst off hi lo v : Nat) : State :=
  s.setR k inst off (putBits (s.getR k inst off) hi lo v)

/-- Is one bit of a register set? -/
def State.bitR (s : State) (k : PageKind) (inst off i : Nat) : Bool := bitOf (s.getR k inst off) i

/-- Set bits of a register. -/
def State.orR (s : State) (k : PageKind) (inst off m : Nat) : State := s.setR k inst off (s.getR k inst off ||| m)

/-- Clear bits of a register. -/
def State.clrR (s : State) (k : PageKind) (inst off m : Nat) : State :=
  s.setR k inst off (s.getR k inst off - (s.getR k inst off &&& m))

/-- Add to a count that stops at its field's largest value. -/
def State.satAdd (s : State) (k : PageKind) (inst off hi lo n : Nat) : State :=
  s.setF k inst off hi lo (min (2 ^ (hi + 1 - lo) - 1) (s.getF k inst off hi lo + n))

/-- A pair of registers read as one 64-bit number, the lower offset in the low half (R514). -/
def State.getR64 (s : State) (k : PageKind) (inst off : Nat) : Nat :=
  s.getR k inst off + 2 ^ 32 * s.getR k inst (off + 4)

/-- Store a pair of registers. -/
def State.setR64 (s : State) (k : PageKind) (inst off v : Nat) : State :=
  (s.setR k inst off (v % 2 ^ 32)).setR k inst (off + 4) (v / 2 ^ 32 % 2 ^ 32)

/-! ## Counters (R457, R458) -/

/-- A freeze hold is set on the page's counters (R458). -/
def State.frozen (s : State) (k : PageKind) (inst : Nat) : Bool :=
  (s.bitR .agqm 0 0x104 4 && !s.agq.devThaw.get (fun _ => false) (k.ix * 1024 + inst)) || s.agq.shadeHold.get (fun _ => false) (k.ix * 1024 + inst)

/-- Add n to counter i of a page; each wrap at 2^48 adds 1 to a chained odd partner (R457). -/
def State.addCounter (s : State) (k : PageKind) (inst i n : Nat) : State :=
  let v := s.getR64 k inst (0x80 + 8 * i) + n
  let s := s.setR64 k inst (0x80 + 8 * i) (v % 2 ^ 48)
  if 2 ^ 48 ≤ v ∧ i % 2 = 0 ∧ s.bitR k inst (0x40 + 4 * (i + 1)) 17 ∧ s.bitR k inst (0x40 + 4 * (i + 1)) 18 then
    s.setR64 k inst (0x80 + 8 * (i + 1)) ((s.getR64 k inst (0x80 + 8 * (i + 1)) + v / 2 ^ 48) % 2 ^ 48)
  else s

/-- Counter i of a page counts event ev (of qualifier q). -/
def State.counts (s : State) (k : PageKind) (inst ev q i : Nat) : Bool :=
  let sel := s.getR k inst (0x40 + 4 * i)
  bitOf sel 18 && bitsOf sel 7 0 == ev && bitsOf sel 15 8 == q && !(i % 2 == 1 && bitOf sel 17)

/-- Counters of a page that select an event, with a qualifier, count: n under LEVEL, e under EDGE (R457). -/
def State.countAs (s : State) (k : PageKind) (inst ev q n e : Nat) : State :=
  if (n = 0 && e = 0) || ev = 0 || s.frozen k inst then s
  else (List.range 8).foldl (fun s i =>
    if s.counts k inst ev q i then s.addCounter k inst i (if s.bitR k inst (0x40 + 4 * i) 16 then n else e) else s) s

/-- n occurrences of an event of a page's counter table, with a qualifier: EDGE equals LEVEL (R457). -/
def State.countQ (s : State) (k : PageKind) (inst ev q n : Nat) : State := s.countAs k inst ev q n n

/-- n occurrences of an event of a page. -/
def State.count (s : State) (k : PageKind) (inst ev n : Nat) : State := s.countQ k inst ev 0 n

/-- A condition that held for n cycles: LEVEL counts the cycles, EDGE its one entry (R457). -/
def State.countSpan (s : State) (k : PageKind) (inst ev n : Nat) : State := s.countAs k inst ev 0 n (min n 1)

/-- What an unlisted condition is. -/
def condDefault (_ : Nat) : Bool := false

/-- One cycle of a cycle event: LEVEL counts every cycle in which its condition holds, EDGE only the entries into it (R457). -/
def State.cycleEv (s : State) (k : PageKind) (inst ev : Nat) (on : Bool) : State :=
  let key := (k.ix * 1024 + inst) * 256 + ev
  let s' := if on then s.countAs k inst ev 0 1 (b2n !(s.inCond.get condDefault key)) else s
  { s' with inCond := s'.inCond.set condDefault key on }

/-- n occurrences of an event that its table counts in units of 256: what is left over waits for the next. -/
def State.countUnits (s : State) (k : PageKind) (inst ev n : Nat) : State :=
  let key := (k.ix * 1024 + inst) * 256 + ev
  let v := s.units.get (fun _ => 0) key + n
  { s with units := s.units.set (fun _ => 0) key (v % 256) }.count k inst ev (v / 256)

/-! ## Prisms and shades (R419, R470) -/

/-- The physical prism that holds a logical number (DEV_L2P_n, R525). -/
def State.l2p (s : State) (n : Nat) : Option Nat :=
  let r := s.getR .device 0 (0x200 + 4 * n)
  if bitOf r 6 then some (bitsOf r 5 0) else none

/-- The owner of a physical prism (R419). -/
def State.ownerP (s : State) (p : Nat) : Nat := s.owner.get (fun _ => 0xFF) p

/-- The owner of an Afterglow queue (R456). -/
def State.ownerQ (s : State) (q : Nat) : Nat := s.owner.get (fun _ => 0xFF) (64 + q)

def State.setOwnerP (s : State) (p v : Nat) : State := { s with owner := s.owner.set (fun _ => 0xFF) p v }
def State.setOwnerQ (s : State) (q v : Nat) : State := { s with owner := s.owner.set (fun _ => 0xFF) (64 + q) v }

/-- The logical prisms of a shade, ascending (SH_PRISM, R425). -/
def State.logicalOf (s : State) (sh : ShadeIx) : List Nat :=
  (List.range 48).filter fun n => match s.l2p n with
    | some p => s.ownerP p == sh.val
    | none => false

/-- The physical prisms of a shade in ascending logical order. -/
def State.prismsOf (s : State) (sh : ShadeIx) : List Nat := (s.logicalOf sh).filterMap s.l2p

/-- The logical number of the lead prism (SH_CTRL.LEAD, R425). -/
def State.leadL (s : State) (sh : ShadeIx) : Nat := s.getF .shcfg sh.val 0x100 9 4

/-- The physical prism that leads a shade. -/
def State.leadP (s : State) (sh : ShadeIx) : Nat := (s.l2p (s.leadL sh)).getD 0

/-- The shade that owns a physical prism. -/
def State.shadeOfPrism (s : State) (p : Nat) : Option ShadeIx :=
  if h : s.ownerP p < 16 then some ⟨s.ownerP p, h⟩ else none

/-- SH_CTRL.EN. -/
def State.enabled (s : State) (sh : ShadeIx) : Bool := s.bitR .shcfg sh.val 0x100 0

/-- A shade's state. -/
def State.sh (s : State) (sh : ShadeIx) : ShadeSt := s.shades[sh.val]

/-- Change a shade's state. -/
def State.modSh (s : State) (sh : ShadeIx) (f : ShadeSt → ShadeSt) : State :=
  { s with shades := s.shades.set sh.val (f s.shades[sh.val]) }

/-- Change a shade's Lantern. -/
def State.modLan (s : State) (sh : ShadeIx) (f : Lantern → Lantern) : State :=
  s.modSh sh fun x => { x with lan := f x.lan }

/-- Events of the Lantern's own counter table count on the lead prism's page (R249, R250). -/
def State.countLant (s : State) (sh : ShadeIx) (ev n : Nat) : State := s.count .lant (s.leadP sh) ev n

/-- DIM_STATUS.FSTEP (R482). -/
def State.fstep (s : State) : Nat := s.getF .dimmer 0 0x108 4 0

/-- Core cycles of a time in ns at the present core clock, FSTEP k standing for 0.80 GHz + k × 50 MHz (R287, R482). -/
def State.nsCycles (s : State) (ns : Nat) : Nat := ceilDiv (ns * (16 + s.fstep)) 20

/-! ## Error registers (R521, R524) -/

/-- An event of BLK_ERR_STATUS bit i, unless masked (R524). -/
def State.blkErr (s : State) (k : PageKind) (page i : Nat) : State :=
  if i < 4 ∧ s.bitR k page 0x1C i then s else s.orR k page 0x18 (2 ^ i)

/-- Set W1C bits of a block's own error register, kept under `inst` and shown on page `page`: BLK_ERR follows (R524). -/
def State.setErr (s : State) (k : PageKind) (inst page off m : Nat) : State :=
  (s.orR k inst off m).blkErr k page 0

/-- RSVD_WR of a page is set, and DEVICE counts one RSVD_WRITES event (R521, R532). -/
def State.rsvdWr (s : State) (k : PageKind) (page : Nat) : State := (s.orR k page 0x14 1).count .device 0 4 1

/-! ## Beacon (R430 to R436) -/

/-- A source number that R430 names. -/
def bcnValid (n : Nat) : Bool :=
  decide (n ≤ 0x00B) || (decide (0x020 ≤ n) && decide (n < 0x120) && decide ((n - 0x020) % 16 < 5))
  || (decide (0x120 ≤ n) && decide (n < 0x2F0))

/-- PRIO of a source. -/
def State.bcnPrio (s : State) (n : Nat) : Nat := s.getF .beacon 0 (0x100 + 4 * n) 3 0
/-- TARGET of a source. -/
def State.bcnTarget (s : State) (n : Nat) : Nat := s.getF .beacon 0 (0x100 + 4 * n) 8 4

/-- The largest of a list of numbers, 0 for none. -/
def maxOf : List Nat → Nat
  | [] => 0
  | a :: l => max a (maxOf l)

/-- The running priority of a target (R433). -/
def State.bcnRun (s : State) (t : Nat) : Nat :=
  maxOf ((s.bcn.act.filter fun a => s.bcnTarget a.1 == t).map Prod.snd)

/-- A source qualifies at a target: above THRESH and RUN (R434). -/
def State.bcnQualifies (s : State) (t n : Nat) : Bool :=
  s.bcnTarget n == t && decide (s.getF .bcnTgt t 0x100 3 0 < s.bcnPrio n) && decide (s.bcnRun t < s.bcnPrio n)

/-- The deliverable priority of a target (R434). -/
def State.bcnD (s : State) (t : Nat) : Nat := maxOf ((s.bcn.pend.filter fun n => s.bcnQualifies t n).map s.bcnPrio)

/-- The function that serves a target: 0 the PF, 1 + s VF s (R421, R434); none for the Warden cores and for a VF that does not
exist. -/
def State.bcnFunction (s : State) (t : Nat) : Option Nat :=
  if t < 2 then none
  else if t = 2 then some 0
  else if s.bitR .shcfg (t - 3) 0x100 3 then some 0
  else if bitOf s.host.vfs (t - 3) then some (t - 2)
  else none

/-- What an MSI-X entry's mask bit is after reset, as PCIe has it. -/
def maskReset (_ : Nat) : Bool := true

/-- Send one MSI-X message on entry e of a function, or set its pending bit when the entry is masked (R434). -/
def State.msixSend (s : State) (f e : Nat) : State :=
  if s.host.msixMask.get maskReset (64 * f + e) then
    { s with host := { s.host with msixPba := s.host.msixPba.set (fun _ => false) (64 * f + e) true } }
  else
    { s with host := { s.host with
        msixSent := s.host.msixSent.set (fun _ => 0) (64 * f + e) (s.host.msixSent.get (fun _ => 0) (64 * f + e) + 1) } }

/-- Moderation of a target ends; the whole microseconds it held a rise are counted (R438). -/
def State.bcnUnhold (s : State) (t : Nat) : State :=
  match s.bcn.held.get (fun _ => none) t with
  | none => s
  | some m => { s with bcn := { s.bcn with held := s.bcn.held.set (fun _ => none) t none } }.count .bcnTgt t 6 ((s.tb.toNat - m.since) / 1000)

/-- Deliver a rise of D at a target: an MSI-X message on entry D, or the core's interrupt input (R434, R438). -/
def State.bcnSend (s : State) (t : Nat) : State :=
  let s := s.bcnUnhold t
  if t < 2 then s.count .bcnTgt t 1 1
  else match s.bcnFunction t with
    | none => s
    | some f => ((s.msixSend f (s.bcnD t)).clrR .bcnTgt t 0x114 1).count .bcnTgt t 1 1

/-- After a change at a target whose deliverable priority was d0: a rise is sent, or held by moderation when it is from 0 and the
target is not idle (R434, R435). -/
def State.bcnAfter (s : State) (t d0 : Nat) : State :=
  let d := s.bcnD t
  if d = 0 then s.bcnUnhold t
  else if d ≤ d0 then s
  else if d0 ≠ 0 then s.bcnSend t
  else if s.getF .bcnTgt t 0x110 15 0 = 0 then s.bcnSend t
  else if s.bitR .bcnTgt t 0x114 0 then (s.bcnSend t).count .bcnTgt t 7 1
  else { s with bcn := { s.bcn with held := s.bcn.held.set (fun _ => none) t (some ⟨s.tb.toNat, 0⟩) } }

/-- One more source has become pending while a rise is held: COUNT of them end moderation (R435). -/
def State.bcnCount (s : State) (t n : Nat) : State :=
  match s.bcn.held.get (fun _ => none) t with
  | none => s
  | some m =>
    if s.bcnQualifies t n then
      let c := m.count + 1
      let lim := s.getF .bcnTgt t 0x110 23 16
      if lim ≠ 0 ∧ lim ≤ c then s.bcnSend t
      else { s with bcn := { s.bcn with held := s.bcn.held.set (fun _ => none) t (some ⟨m.since, c⟩) } }
    else s

/-- Insert into a rising list. -/
def insSorted (n : Nat) : List Nat → List Nat
  | [] => [n]
  | a :: l => if n < a then n :: a :: l else if n = a then a :: l else a :: insSorted n l

/-- A source is a shade's own, and that shade is resetting or being killed: raises are discarded (R436). -/
def State.bcnDiscards (s : State) (n : Nat) : Bool :=
  if h : 0x020 ≤ n ∧ n < 0x120 then 2 ≤ (s.sh ⟨(n - 0x020) / 16, by omega⟩).life else false

/-- Raise a source (R433): its PEND bit is set at its target, unless its priority is 0 or it is already pending. -/
def State.raise (s : State) (n : Nat) : State :=
  if !bcnValid n || s.bcnPrio n == 0 || s.bcn.pend.contains n || s.bcnDiscards n then s
  else
    let t := s.bcnTarget n
    let d0 := s.bcnD t
    (({ s with bcn := { s.bcn with pend := insSorted n s.bcn.pend } }).bcnAfter t d0).bcnCount t n

/-- The source of unit k of a shade (R430): 0 LANT, 1 SAFE, 2 JSH, 3 TSTATE, 4 REPLAY. -/
def shadeSrc (sh : ShadeIx) (k : Nat) : Nat := 0x020 + 16 * sh.val + k
/-- The source of a physical prism (R430): 0 MACHINE, 1 FENCE, 2 SELFTEST, 3 SENSOR. -/
def prismSrc (p k : Nat) : Nat := 0x220 + 4 * p + k

/-! ## Afterglow records (R448 to R453) -/

/-- Cells of a packet of LEN bytes (R448). -/
def cellsOf (len : Nat) : Nat := ceilDiv len 64

/-- Cells the staging buffer holds (R451). -/
def State.stagedCells (s : State) : Nat := (s.agq.staged.map fun r => cellsOf r.len).foldl (· + ·) 0

/-- A dropped record counts in AGQ_DEV_DROP (R451). -/
def State.dropRecord (s : State) : State := s.satAdd .agqm 0 0x108 31 0 1

/-- Stage a record for a queue, dropped when the 128-cell buffer is full (R451). -/
def State.stageTo (s : State) (q typ : Nat) (sh : Option ShadeIx) (body : List Nat) : State :=
  let len := 16 + 8 * body.length
  if 128 < s.stagedCells + cellsOf len then s.dropRecord
  else { s with agq := { s.agq with staged := s.agq.staged ++
           [⟨q, typ, sh, len, s.tb :: body.map (BitVec.ofNat 64)⟩] } }

/-- A record of a shade, to its shade queue, or dropped when that queue is not enabled or not the shade's (R451). -/
def State.shadeRecord (s : State) (sh : ShadeIx) (typ : Nat) (body : List Nat) : State :=
  let r := s.getR .agqm 0 (0x140 + 4 * sh.val)
  if bitOf r 8 && s.ownerQ (bitsOf r 7 0) == sh.val then s.stageTo (bitsOf r 7 0) typ (some sh) body
  else s.dropRecord

/-- A device record, to the device queue, or dropped when DEVICE does not own that queue (R451). -/
def State.deviceRecord (s : State) (typ : Nat) (body : List Nat) : State :=
  let q := s.getF .agqm 0 0x100 7 0
  if s.ownerQ q == 0xFE then s.stageTo q typ none body else s.dropRecord

/-! ## Tokens, halts and fault records (R220 to R223, R237, R242) -/

/-- Add 1 to a token's count (R242). -/
def Lantern.tokUp (l : Lantern) (t : Tok) : Lantern :=
  match t with
  | none => l
  | some t => { l with tok := l.tok.set t.toNat (l.tok[t.toNat] + 1) }

/-- Take 1 from a token's count (R242). -/
def Lantern.tokDown (l : Lantern) (t : Tok) : Lantern :=
  match t with
  | none => l
  | some t => { l with tok := l.tok.set t.toNat (if l.tok[t.toNat] = 0 then 0 else l.tok[t.toNat] - 1) }

/-- Registers stop being pending (R238). -/
def Lantern.unpend (l : Lantern) (gs : List Nat) : Lantern :=
  gs.foldl (fun l g => { l with pendG := l.pendG &&& ~~~ (BitVec.ofNat 64 (2 ^ g)) }) l

/-- Registers become pending (R238). -/
def Lantern.mkPend (l : Lantern) (gs : List Nat) : Lantern :=
  gs.foldl (fun l g => { l with pendG := l.pendG ||| BitVec.ofNat 64 (2 ^ g) }) l

/-- Operations are discarded or abandoned: tokens released, registers no longer pending, nothing written (R221, R238, R242). -/
def Lantern.discard (l : Lantern) (ops : List SlotOp) : Lantern :=
  ops.foldl (fun l o => (l.tokDown o.tok).unpend o.gAsync) l

/-- The Lantern halts: the LANT source is signalled on every halt (R237). The time of the phase in force stops (R332);
PREEMPT and FORCE are cleared (R416). -/
def State.halt (s : State) (sh : ShadeIx) : State :=
  (s.modSh sh fun x => { x with
    lan := { x.lan with halted := true, stopReq := false, waitSince := none }
    rep := { x.rep with preemptReq := false, forceReq := false }
    saf := if x.lan.halted then x.saf else { x.saf with phaseSpent := x.saf.phaseSpent + (s.tb.toNat - x.saf.phaseAt) } }).raise
    (shadeSrc sh 0)

/-! ## Tagged bundles (R460) -/

/-- Take a free value: the model's counter advances. -/
def State.tick (s : State) : State := { s with fresh := s.fresh + 1 }

/-- The stage word of one operation: SLOT, and times that this model leaves free, or 0xF_FFFF where they were not reached. -/
def TagSt.stageWord (t : TagSt) (n : Nat) (o : Nat × Nat) : Nat :=
  let f := (Config.freeWide n).toNat
  let start := if t.started.contains o.1 then bitsOf f 19 0 else 0xFFFFF
  let mid := if t.started.contains o.1 then bitsOf f 39 20 else 0xFFFFF
  let last := if t.ended.contains o.1 then bitsOf f 59 40 else 0xFFFFF
  o.2 + start * 2 ^ 4 + mid * 2 ^ 24 + last * 2 ^ 44

/-- An operation is still waiting or running. -/
def ShadeSt.pendingOp (x : ShadeSt) (id : Nat) : Bool := (x.queue.any fun q => q.id == id) || x.running.any fun r => r.q.id == id

/-- The TAG record of the shade's tagged bundle is written when the last of its operations has completed, or at once when one was
discarded or abandoned. -/
def State.tagSettle (s : State) (sh : ShadeIx) : State :=
  match (s.sh sh).tag with
  | none => s
  | some t =>
    let gone := t.ops.filter fun o => !(s.sh sh).pendingOp o.1
    let lost := gone.any fun o => !t.ended.contains o.1
    if lost || gone.length == t.ops.length then
      let ws := t.ops.zipIdx.map fun o => t.stageWord (s.fresh + o.2) o.1
      let s := { s with fresh := s.fresh + t.ops.length }
      (s.modSh sh fun x => { x with tag := none }).shadeRecord sh 0x09
        ([t.baddr % 2 ^ 14 + b2n lost * 2 ^ 14, t.bundles.toNat, t.cycles.toNat] ++ ws)
    else s

/-- An operation of the tagged bundle has completed. -/
def State.tagOver (s : State) (sh : ShadeIx) (id : Nat) : State :=
  s.modSh sh fun x => { x with tag := x.tag.map fun t => { t with ended := id :: t.ended } }

/-- An operation of the tagged bundle has started. -/
def State.tagStart (s : State) (sh : ShadeIx) (id : Nat) : State :=
  s.modSh sh fun x => { x with tag := x.tag.map fun t => { t with started := id :: t.started } }

/-- Every operation waiting in a unit queue of the shade is discarded, its token released as though it had completed (R221). -/
def State.discardQueue (s : State) (sh : ShadeIx) : State :=
  let q := (s.sh sh).queue
  (((s.modSh sh fun x => { x with queue := [], lan := x.lan.discard (q.map fun o => o.op) })).countLant sh 0x0B q.length).tagSettle sh

/-- Classes of faults (R249). -/
inductive FClass where
  | decode | issue | start | access | machine | report
  deriving DecidableEq, Repr

def FClass.code : FClass → Nat
  | .decode => 0 | .issue => 1 | .start => 2 | .access => 3 | .machine => 4 | .report => 5

/-- Where a fault came from: the slot (0xF for none), the bundle, the physical prism and the tile (R222). -/
structure FSrc where
  slot : Nat
  baddr : Nat
  pprism : Nat
  tile : Nat
  deriving DecidableEq, Repr

/-- Record a fault of a shade (R222): LANT_FAULT and LANT_FAULT_ADDR when VALID is clear, else one FAULT_LOST event; the LANT
source; one FAULT record. Nothing is recorded during a shade reset (R443). -/
def State.recordFault (s : State) (sh : ShadeIx) (code : Nat) (c : FClass) (src : FSrc) : State :=
  if 2 ≤ (s.sh sh).life then s
  else
    let i := shInst sh
    let s := if s.bitR .lant i 0x10C 15 then s.countLant sh 0x0A 1
      else (s.setR .lant i 0x10C (code % 256 + src.slot % 16 * 256 + c.code * 4096 + 32768)).setR .lant i 0x110
        (src.baddr % 16384 + src.pprism % 64 * 65536 + src.tile % 8 * 4194304)
    (s.raise (shadeSrc sh 0)).shadeRecord sh 0x01
      [code % 256 + c.code * 256 + src.slot % 16 * 4096 + src.baddr % 16384 * 65536 + src.pprism % 64 * 2 ^ 30 + src.tile % 8 * 2 ^ 36]

/-- A decode or issue fault: nothing of the bundle takes effect and the Lantern halts with LANT_PC at it (R220). -/
def State.bundleFault (s : State) (sh : ShadeIx) (c : FClass) (f : SlotFault) : State :=
  (s.recordFault sh f.code c ⟨f.slot, (s.sh sh).lan.pc.toNat, s.leadP sh, 0⟩).halt sh

/-- Running operations that satisfy f are dropped: tokens released, registers no longer pending, nothing written (R238, R242). -/
def State.dropRunning (s : State) (sh : ShadeIx) (f : QOp → Bool) : State :=
  let out := (s.sh sh).running.filter fun r => f r.q
  (s.modSh sh fun x => { x with running := x.running.filter fun r => !f r.q, lan := x.lan.discard (out.map fun r => r.q.op) }).tagSettle sh

/-- An operation of slots 3 and 4. -/
def QOp.isArray (q : QOp) : Bool :=
  match q.op with
  | .array _ _ => true
  | _ => false

/-- The key of a tile. -/
def tileKey (p t : Nat) : Nat := 8 * p + t

/-- A tile's state. -/
def State.tile (s : State) (p t : Nat) : TileSt := s.tiles.get tileDefault (tileKey p t)

/-- Change a tile. -/
def State.modTile (s : State) (p t : Nat) (f : TileSt → TileSt) : State :=
  { s with tiles := s.tiles.set tileDefault (tileKey p t) (f (s.tile p t)) }

/-- A tile abandons its passes and its group assembly (R79, R108, R137). -/
def TileSt.abandon (t : TileSt) : TileSt :=
  { t with probs := t.probs.map fun x => { x with opened := none, closed := [], arm := none, mms := none, groups := [] }, drainQ := [] }

/-- Every tile of the shade abandons its passes; its combine slots are discarded (R79, R271). -/
def State.abandonArray (s : State) (sh : ShadeIx) : State :=
  let s := (s.prismsOf sh).foldl (fun s p => (List.range 8).foldl (fun s t => s.modTile p t TileSt.abandon) s) s
  (s.modSh sh fun x => { x with combines := [], partials := [], prismPartials := [] }).dropRunning sh QOp.isArray

/-- A start or access fault: the shade stops issuing and halts, every queued operation is discarded, its tiles abandon their
passes, and the other running operations complete (R79, R221). -/
def State.stopFault (s : State) (sh : ShadeIx) (code : Nat) (c : FClass) (src : FSrc) : State :=
  (((s.recordFault sh code c src).halt sh).discardQueue sh).abandonArray sh

/-- A REPORT fault: written as R222 states, and the shade continues (R223). -/
def State.reportFault (s : State) (sh : ShadeIx) (code : Nat) (src : FSrc) : State := s.recordFault sh code .report src

/-- What a running operation becomes when operation id is complete: one with neither token nor results has nothing to release. -/
def Running.complete (id : Nat) (results : List (Nat × W64)) (r : Running) : Option Running :=
  match decide (r.q.id = id), decide (r.q.op.tok = none ∧ results = []) with
  | true, true => none
  | true, false => some { r with done := true, results := results }
  | false, _ => some r

/-- An operation is complete: its token release is due, and results for g-registers go with it (R230, R238). -/
def State.finish (s : State) (sh : ShadeIx) (id : Nat) (results : List (Nat × W64)) : State :=
  ((s.tagOver sh id).modSh sh fun x => { x with running := x.running.filterMap (Running.complete id results) }).tagSettle sh

end Sys2Proof.Machine
end

