-- ==== Sys2Proof/Machine/Memory.lean ====
section
/-! DEFINITION. The memories of the device (chapter 10): tile scratch, prism pools, bundle stores, the physical map, shade windows
(R277), translation (R288 to R292) and accesses by memory-space code (R255), each byte of every space at one key. -/

namespace Sys2Proof.Machine

/-- A byte of tile scratch, by physical prism, tile and physical offset (R272). -/
def tsKey (p t off : Nat) : Nat := 2 ^ 50 + (p * 8 + t) * 2 ^ 20 + off
/-- A byte of a prism pool (R272). -/
def poolKey (p off : Nat) : Nat := 2 ^ 51 + p * 2 ^ 23 + off
/-- A byte of a Lantern's bundle store (R224). -/
def storeKey (p off : Nat) : Nat := 2 ^ 52 + p * 2 ^ 21 + off
/-- A byte of the config flash (R502). -/
def flashKey (off : Nat) : Nat := 2 ^ 53 + off
/-- A byte of PCIe memory space (R286). -/
def hostKey (a : Nat) : Nat := 2 ^ 64 + a % 2 ^ 64

/-- What an unlisted byte reads as. -/
def memDefault (_ : Nat) : Byte := 0

/-! ## Words in error (R276, R281, R524) -/

/-- The HBM stack of a physical address (R279). -/
def hbmStack (pa : Nat) : Nat := bitsOf (bitsOf pa 15 8 ^^^ bitsOf pa 23 16 ^^^ bitsOf pa 31 24) 7 5

/-- The deep-tier controller of a physical address; R284 does not place a line of data on a controller, so this is the model's. -/
def deepCtl (pa : Nat) : Nat := pa / 64 % 2

/-- The page that injects into the storage of a key: block type and instance (R524). -/
def injectPage (k : Nat) : Option (PageKind × Nat) :=
  if 2 ^ 53 ≤ k then none
  else if 2 ^ 52 ≤ k then some (.lant, (k - 2 ^ 52) / 2 ^ 21)
  else if 2 ^ 51 ≤ k then some (.scratch, (k - 2 ^ 51) / 2 ^ 23)
  else if 2 ^ 50 ≤ k then some (.tile, (k - 2 ^ 50) / 2 ^ 20)
  else if 0x080000000000 ≤ k then some (.memctl, 8 + deepCtl k)
  else some (.memctl, hbmStack k)

/-- The error of the word at a key: 0 none, 1 correctable, 2 uncorrectable. -/
def State.eccAt (s : State) (k : Nat) : Nat := s.ecc.get (fun _ => 0) (k / 8)

/-- Put an error into the word at a key, or take it out. -/
def State.setEcc (s : State) (k e : Nat) : State := { s with ecc := s.ecc.set (fun _ => 0) (k / 8) e }

/-- An armed ECC injection of a block takes effect on the word it writes now (R524): the bit clears and INJ_DONE is set. -/
def State.injectInto (s : State) (kind : PageKind) (inst k : Nat) : State :=
  let r := s.getR kind inst 0x20
  if bitsOf r 1 0 = 0 then s
  else
    let two := bitOf r 1
    ((s.clrR kind inst 0x20 (if two then 2 else 1)).orR kind inst 0x18 16).setEcc k (if two then 2 else 1)

/-- The word at a key is written: an old error is gone, and an armed injection puts a new one in. A word is its first byte's. -/
def State.eccWrite (s : State) (k : Nat) : State :=
  if k % 8 ≠ 0 then s
  else match injectPage k with
    | none => s
    | some b => (s.setEcc k 0).injectInto b.1 b.2 k

/-- Read one byte. -/
def State.rd (s : State) (k : Nat) : Byte := s.mem.get memDefault k
/-- Write one byte. -/
def State.wr (s : State) (k : Nat) (b : Byte) : State := { s with mem := s.mem.set memDefault k b }.eccWrite k
/-- Read n bytes. -/
def State.rdN (s : State) (k n : Nat) : List Byte := s.mem.getList memDefault k n
/-- Read a little-endian number of n bytes. -/
def State.rdNat (s : State) (k n : Nat) : Nat := leNat (s.rdN k n)
/-- Write a list of bytes. -/
def State.wrN (s : State) (k : Nat) (bs : List Byte) : State :=
  { s with mem := s.mem.setList memDefault k bs, ecc := s.ecc.clearRange (ceilDiv k 8) ((k + bs.length) / 8) }.eccWrite k
/-- Zero a range of keys. -/
def State.zeroRange (s : State) (lo hi : Nat) : State :=
  { s with mem := s.mem.clearRange lo hi, ecc := s.ecc.clearRange (ceilDiv lo 8) (hi / 8) }

/-! ## The physical map (R278) -/

/-- HBM: 288 GiB from 0. -/
def hbmTop : Nat := 288 * 2 ^ 30
def deepBase : Nat := 0x080000000000
def hostBase : Nat := 0x0C0000000000
def hostTop : Nat := 0x100000000000
def regBase : Nat := 0xF00000000000
def regTop : Nat := 0xF00004000000

/-- The tiers of the physical map. -/
inductive Tier where
  | hbm | deep | host | regs | unmapped
  deriving DecidableEq, Repr

/-- MEM_DEEP_CAP in GiB (R283). -/
def State.deepCap (s : State) : Nat := s.getF .mem 0 0x280 10 0

/-- The tier of a physical address (R278); the deep tier's data occupies its first MEM_DEEP_CAP GiB. -/
def State.tierOf (s : State) (pa : Nat) : Tier :=
  if pa < hbmTop then .hbm
  else if deepBase ≤ pa ∧ pa < deepBase + s.deepCap * 2 ^ 30 then .deep
  else if hostBase ≤ pa ∧ pa < hostTop then .host
  else if regBase ≤ pa ∧ pa < regTop then .regs
  else .unmapped

/-- The owner of an HBM unit (R306). -/
def State.hbmOwner (s : State) (u : Nat) : Nat := s.getF .mem 0 (0x400 + 4 * (u / 4)) (8 * (u % 4) + 7) (8 * (u % 4))
/-- The owner of a deep-tier unit (R306). -/
def State.deepOwner (s : State) (u : Nat) : Nat := s.getF .mem 0 (0x600 + 4 * (u / 4)) (8 * (u % 4) + 7) (8 * (u % 4))

/-- The key of a physical address: HBM and the deep tier lie at their own addresses, host addresses go through the base (R286). -/
def State.physKey (s : State) (pa : Nat) : Nat :=
  if hostBase ≤ pa ∧ pa < hostTop then
    hostKey (s.getR64 .mem 0 0x284 + (pa - hostBase))
  else pa

/-! ## Faults of accesses -/

/-- A failed walk, as XLATE_ERR records it (R291, R306). -/
structure XlErr where
  cause : Nat
  level : Nat
  write : Bool
  va : Nat
  deriving DecidableEq, Repr

/-- An error register that a fault also sets: a group header of a tensor descriptor (R94), a mirror entry of a mask object
(R124), a pattern table of an entry (R345), a replay-guard range (R409), a seal (R321), the place of a word in error (R276, R281). -/
inductive Mark where
  | none
  | header (td : Nat)
  | index (mo : Nat)
  | overCap (entry : Nat)
  | guard (range : Nat)
  | seal (bit region : Nat)
  | ecc (key : Nat)
  deriving DecidableEq, Repr

/-- A fault an operation meets: its code, class, the prism and tile, the walk that failed, if one did, and its mark. -/
structure OpFault where
  code : Nat
  cls : FClass
  prism : Nat
  tile : Nat
  xl : Option XlErr
  mark : Mark
  deriving DecidableEq, Repr

def F_ALIGN : Nat := 0x03
def F_BOUND : Nat := 0x04
def F_XLATE : Nat := 0x05
def F_WALK_DEVICE : Nat := 0x06
def F_GUARD : Nat := 0x07
def F_TOKEN_TIMEOUT : Nat := 0x08
def F_YIELD_LATE : Nat := 0x09
def F_ECC_UNCORR : Nat := 0x10
def F_RESIDUE : Nat := 0x11
def F_LOCKSTEP : Nat := 0x12
def F_NOC_CRC : Nat := 0x13
def F_LINK_DOWN : Nat := 0x20
def F_DEST_DEAD : Nat := 0x21
def F_PRECISION_LIMIT : Nat := 0x30
def F_MAINT_BUSY : Nat := 0x40
def F_FENCED : Nat := 0x41

/-- An access fault without a walk. -/
def accFault (code p t : Nat) : OpFault := ⟨code, .access, p, t, none, .none⟩
/-- A start-class RSVD_FIELD. -/
def startFault (p t : Nat) : OpFault := ⟨RSVD_FIELD, .start, p, t, none, .none⟩

/-- The prism and tile that hold the word at a key: none of HBM and the deep tier. -/
def keyPlace (k : Nat) : Nat × Nat :=
  match injectPage k with
  | some (.tile, i) => (i / 8, i % 8)
  | some (.scratch, i) => (i, 0)
  | some (.lant, i) => (i, 0)
  | _ => (63, 0)

/-- ECC_UNCORR at a key (R276, R281). -/
def eccFault (k : Nat) : OpFault := ⟨F_ECC_UNCORR, .machine, (keyPlace k).1, (keyPlace k).2, none, .ecc k⟩

/-- A state, and the fault that stopped the work, if one did: what was done before it stays. -/
structure Res where
  s : State
  err : Option OpFault
  deriving DecidableEq, Repr

def Res.ok (s : State) : Res := ⟨s, none⟩

/-- Go on unless a fault stopped the work. -/
def Res.andThen (r : Res) (f : State → Res) : Res :=
  match r.err with
  | none => f r.s
  | some _ => r

/-- Do the work for each item in turn until a fault. -/
def resFold {α : Type} (f : State → α → Res) : State → List α → Res
  | s, [] => .ok s
  | s, x :: xs => (f s x).andThen fun s => resFold f s xs

/-- Use a read that may fault. -/
def Res.withRead {α : Type} (s : State) (r : Except OpFault α) (f : α → Res) : Res :=
  match r with
  | .error e => ⟨s, some e⟩
  | .ok a => f a

/-! ## Translation (R288 to R291) -/

/-- Bytes a leaf maps at a level (R288). -/
def pageSize : Nat → Nat
  | 2 => 2 ^ 30 | 1 => 2 ^ 21 | _ => 2 ^ 16

/-- Alignment of the table a pointer at a level names: the L0 tables are 256 B (R288). -/
def tableAlign (level : Nat) : Nat := if level = 1 then 256 else 4096

/-- The index of a virtual address at a level (R288). -/
def vaIndex (va level : Nat) : Nat :=
  match level with
  | 3 => bitsOf va 47 39 | 2 => bitsOf va 38 30 | 1 => bitsOf va 29 21 | _ => bitsOf va 20 16

/-- What a walk answers: a physical address, or the fault code and, for XLATE, its cause and level. -/
inductive Walk where
  | ok (pa : Nat)
  | bad (code cause level : Nat)
  /-- a table entry in error (R281) -/
  | ecc (key : Nat)
  deriving DecidableEq, Repr

/-- The checks of a table pointer, after alignment: WALK_DEVICE, then TABLE_SPACE, then FOREIGN (R290, R291). -/
def State.tableCheck (s : State) (sh : ShadeIx) (pa level : Nat) : Option Walk :=
  match s.tierOf pa with
  | .regs => some (.bad F_WALK_DEVICE 0 level)
  | .host => some (.bad F_WALK_DEVICE 0 level)
  | .hbm =>
    let o := s.hbmOwner (pa / 2 ^ 30)
    if o = sh.val ∨ o = 0xFE then none else some (.bad F_XLATE 7 level)
  | _ => some (.bad F_XLATE 6 level)

/-- A leaf must lie in units of the walking shade, when it lies in HBM or the deep tier (R290). -/
def State.leafOwned (s : State) (sh : ShadeIx) (pa : Nat) : Bool :=
  if pa < hbmTop then s.hbmOwner (pa / 2 ^ 30) == sh.val
  else if deepBase ≤ pa ∧ pa < deepBase + 2 ^ 40 then
    (if pa - deepBase < 960 * 2 ^ 30 then s.deepOwner ((pa - deepBase) / 2 ^ 30) == sh.val else false)
  else true

/-- The walk from a table at a level down (R290, R291). -/
def State.walkFrom (s : State) (sh : ShadeIx) (va : Nat) (write : Bool) : Nat → Nat → Walk
  | level, table =>
    let e := s.rdNat (table + 8 * vaIndex va level) 8
    let frame := bitsOf e 47 8 * 256
    if s.eccAt (table + 8 * vaIndex va level) = 2 then .ecc (table + 8 * vaIndex va level)
    else if !bitOf e 0 then .bad F_XLATE 1 level
    else if bitsOf e 7 3 ≠ 0 ∨ bitsOf e 63 48 ≠ 0 then .bad F_XLATE 3 level
    else if (bitOf e 1 && level == 3) || (!bitOf e 1 && level == 0) then .bad F_XLATE 4 level
    else if bitOf e 1 then
      if frame % pageSize level ≠ 0 then .bad F_XLATE 5 level
      else if !s.leafOwned sh frame then .bad F_XLATE 7 level
      else if write && !bitOf e 2 then .bad F_XLATE 2 level
      else .ok (frame + va % pageSize level)
    else if frame % tableAlign level ≠ 0 then .bad F_XLATE 5 level
    else match s.tableCheck sh frame level with
      | some w => w
      | none => match level with
        | 0 => .bad F_XLATE 4 0
        | l + 1 => s.walkFrom sh va write l frame

/-- A walk for a shade's virtual address (R288 to R291), beginning with XLATE_ROOT. -/
def State.walk (s : State) (sh : ShadeIx) (va : Nat) (write : Bool) : Walk :=
  let lo := s.getR .mem 0 (0x100 + 8 * sh.val)
  let root := bitsOf lo 31 12 * 4096 + s.getF .mem 0 (0x104 + 8 * sh.val) 15 0 * 2 ^ 32
  if !bitOf lo 0 then .bad F_XLATE 8 3
  else match s.tableCheck sh root 3 with
    | some w => w
    | none => s.walkFrom sh va write 3 root

/-- Record a failed walk in XLATE_ERR of the shade, when VALID is clear (R291, R306). -/
def State.recordXlate (s : State) (sh : ShadeIx) (walker : Nat) (x : XlErr) : State :=
  let o := 0x180 + 16 * sh.val
  if s.bitR .mem 0 o 7 then s
  else ((s.setR .mem 0 o (x.cause + x.level * 16 + b2n x.write * 64 + 128 + walker * 256)).setR .mem 0 (o + 4) (x.va % 2 ^ 32)).setR
    .mem 0 (o + 8) (x.va / 2 ^ 32 % 65536)

/-! ## Accesses by memory space (R255, R257, R277) -/

/-- Who makes an access: the shade, the physical prism and tile that run the operation, and the g-registers it captured at issue,
from which a generated pattern takes its origins (R340). -/
structure Ctx where
  sh : ShadeIx
  prism : Nat
  tile : Nat
  g : Vector W64 64
  deriving DecidableEq, Repr

/-- SCR_TS_WIN of a prism: base and size in bytes (R277). -/
def State.tsWin (s : State) (p : Nat) : Nat × Nat :=
  let r := s.getR .scratch p 0x100
  (bitsOf r 14 0 * 64, bitsOf r 30 16 * 64)
/-- The pool window of a prism: base and size in bytes (R277). -/
def State.poolWin (s : State) (p : Nat) : Nat × Nat :=
  (s.getF .scratch p 0x104 16 0 * 128, s.getF .scratch p 0x108 16 0 * 128)

/-- The tier a translated memory-space code names (R255). -/
def spaceTier (space : Nat) : Tier :=
  match space with
  | 0xA => .hbm | 0xB => .deep | 0xC => .host | _ => .unmapped

/-- The key of a byte of a space, or the access fault it meets: outside the window BOUND, a failed walk, outside the tier BOUND. -/
def State.resolve (s : State) (c : Ctx) (space addr : Nat) (write : Bool) : Except OpFault Nat :=
  if space ≤ 8 then
    let t := if space = 8 then c.tile else space
    let w := s.tsWin c.prism
    if addr < w.2 then .ok (tsKey c.prism t (w.1 + addr)) else .error (accFault F_BOUND c.prism t)
  else if space = 9 then
    let w := s.poolWin c.prism
    if addr < w.2 then .ok (poolKey c.prism (w.1 + addr)) else .error (accFault F_BOUND c.prism c.tile)
  else if 2 ^ 48 ≤ addr then .error (accFault F_BOUND c.prism c.tile)
  else match s.walk c.sh addr write with
    | .bad code cause level => .error ⟨code, .access, c.prism, c.tile, if code = F_XLATE then some ⟨cause, level, write, addr⟩ else none, .none⟩
    | .ecc k => .error (eccFault k)
    | .ok pa => if s.tierOf pa = spaceTier space then .ok (s.physKey pa) else .error (accFault F_BOUND c.prism c.tile)

/-- Read one byte of a space; a word in uncorrectable error is a machine fault (R276, R281). -/
def State.rdS (s : State) (c : Ctx) (space addr : Nat) : Except OpFault Byte :=
  match s.resolve c space addr false with
  | .ok k => if s.eccAt k = 2 then .error (eccFault k) else .ok (s.rd k)
  | .error e => .error e

/-- Read n bytes of a space. -/
def State.rdSN (s : State) (c : Ctx) (space addr : Nat) : Nat → Except OpFault (List Byte)
  | 0 => .ok []
  | n + 1 => do
    let b ← s.rdS c space addr
    let bs ← s.rdSN c space (addr + 1) n
    .ok (b :: bs)

/-- Read a little-endian number of n bytes of a space. -/
def State.rdSNat (s : State) (c : Ctx) (space addr n : Nat) : Except OpFault Nat :=
  match s.rdSN c space addr n with
  | .ok bs => .ok (leNat bs)
  | .error e => .error e

/-- The guard range of a write, as the shade's replay registers name them (R409): base and size of range n, when it is enabled and
names the space. -/
def State.guardHit (s : State) (sh : ShadeIx) (space addr : Nat) (n : Nat) : Bool :=
  let o := 0x200 + 16 * n
  let g := s.getR .replay sh.val o
  let base := s.getR .replay sh.val (o + 4) / 64 * 64 + s.getF .replay sh.val (o + 8) 15 0 * 2 ^ 32
  let size := s.getR .replay sh.val (o + 12) * 64
  let sp := if space ≤ 7 then 8 else space
  bitOf g 0 && bitsOf g 4 1 == sp && decide (base ≤ addr) && decide (addr < base + size)

/-- A write meets the replay guard (R409): in a TAINTED range it is not made and is a GUARD fault; in the other enabled ranges
that hold it, it marks the range WRITTEN. -/
def State.guardWrite (s : State) (c : Ctx) (space addr : Nat) : Res :=
  let hits := (List.range 8).filter fun n => s.guardHit c.sh space addr n
  match hits.find? fun n => s.bitR .replay c.sh.val (0x200 + 16 * n) 5 with
  | some n => ⟨s, some ⟨F_GUARD, .access, c.prism, c.tile, none, .guard n⟩⟩
  | none => .ok (hits.foldl (fun s n => s.orR .replay c.sh.val (0x200 + 16 * n) 64) s)

/-- Write one byte of a space, past the replay guard. -/
def State.wrS (s : State) (c : Ctx) (space addr : Nat) (b : Byte) : Res :=
  match s.resolve c space addr true with
  | .error e => ⟨s, some e⟩
  | .ok k => (s.guardWrite c space addr).andThen fun s => .ok (s.wr k b)

/-- Write bytes of a space in rising order. -/
def State.wrSN (s : State) (c : Ctx) (space addr : Nat) : List Byte → Res
  | [] => .ok s
  | b :: bs => (s.wrS c space addr b).andThen fun s => s.wrSN c space (addr + 1) bs

/-- Read a field of `w` bits at a bit address of a space (R30): little-endian bit order covers every packing. -/
def State.rdBits (s : State) (c : Ctx) (space bit w : Nat) : Except OpFault Nat :=
  match s.rdSNat c space (bit / 8) (ceilDiv (bit % 8 + w) 8) with
  | .ok v => .ok (v / 2 ^ (bit % 8) % 2 ^ w)
  | .error e => .error e

/-- Write bits [hi:lo] of one byte of a space, leaving the others (R275), past the replay guard; a word in uncorrectable error is a
machine fault. -/
def State.wrPart (s : State) (c : Ctx) (space addr hi lo v : Nat) : Res :=
  match s.resolve c space addr true with
  | .error e => ⟨s, some e⟩
  | .ok k =>
    if s.eccAt k = 2 then ⟨s, some (eccFault k)⟩
    else (s.guardWrite c space addr).andThen fun s => .ok (s.wr k (BitVec.ofNat 8 (putBits (s.rd k).toNat hi lo v)))

/-- Write a field of `w` bits at a bit address of a space, leaving the other bits of its bytes. -/
def State.wrBits (s : State) (c : Ctx) (space bit w v : Nat) : Res :=
  let o := bit % 8
  if o = 0 ∧ w % 8 = 0 then s.wrSN c space (bit / 8) (leBytes (w / 8) v)
  else if o + w ≤ 8 then s.wrPart c space (bit / 8) (o + w - 1) o v
  else (s.wrPart c space (bit / 8) 7 o v).andThen fun s => s.wrPart c space (bit / 8 + 1) (o + w - 9) 0 (v / 2 ^ (8 - o))

end Sys2Proof.Machine
end

