-- ==== Sys2Proof/Machine/Num.lean ====
section
/-! DEFINITION. Exact numbers, the sixteen element formats, and quantisation (chapter 01, R18 to R50). A value is held exactly
(a sign, a magnitude m and a power of two); it is rounded only where a rule of the spec rounds it. -/

namespace Sys2Proof.Machine

/-- An exact value: a NaN (payloads are not carried, R21), an infinity, or (−1)^neg × m × 2^e. -/
inductive Val where
  | nan
  | inf (neg : Bool)
  | fin (neg : Bool) (m : Nat) (e : Int)
  deriving DecidableEq, Repr

/-- +0. -/
def Val.zero : Val := .fin false 0 0
/-- +1. -/
def Val.one : Val := .fin false 1 0

/-- The value of an integer. -/
def Val.ofInt (i : Int) : Val := .fin (decide (i < 0)) i.natAbs 0

def Val.isNan : Val → Bool
  | .nan => true
  | _ => false

def Val.isFinite : Val → Bool
  | .fin _ _ _ => true
  | _ => false

/-- A finite value equal to zero, of either sign. -/
def Val.isZero : Val → Bool
  | .fin _ m _ => m == 0
  | _ => false

def Val.isNeg : Val → Bool
  | .nan => false
  | .inf n => n
  | .fin n _ _ => n

def Val.neg : Val → Val
  | .nan => .nan
  | .inf n => .inf (!n)
  | .fin n m e => .fin (!n) m e

def Val.abs : Val → Val
  | .nan => .nan
  | .inf _ => .inf false
  | .fin _ m e => .fin false m e

/-- Multiply by 2^k, exactly. -/
def Val.scale (v : Val) (k : Int) : Val :=
  match v with
  | .fin n m e => .fin n m (e + k)
  | v => v

/-- m × 2^(e − e0) for e0 ≤ e, as a natural number. -/
def alignTo (m : Nat) (e e0 : Int) : Nat := m * 2 ^ (e - e0).toNat

/-- Exact product with IEEE special values (R45). -/
def Val.mul : Val → Val → Val
  | .nan, _ => .nan
  | _, .nan => .nan
  | .inf a, .inf b => .inf (a != b)
  | .inf a, .fin b m _ => if m = 0 then .nan else .inf (a != b)
  | .fin a m _, .inf b => if m = 0 then .nan else .inf (a != b)
  | .fin a m e, .fin b n f => .fin (a != b) (m * n) (e + f)

/-- A signed magnitude as an integer. -/
def sgn (neg : Bool) (m : Nat) : Int := if neg then -(m : Int) else m

/-- Exact sum with IEEE special values (R45). A zero sum of values of unlike signs is +0. -/
def Val.add : Val → Val → Val
  | .nan, _ => .nan
  | _, .nan => .nan
  | .inf a, .inf b => if a = b then .inf a else .nan
  | .inf a, .fin _ _ _ => .inf a
  | .fin _ _ _, .inf b => .inf b
  | .fin a m e, .fin b n f =>
    let e0 := min e f
    let i := sgn a (alignTo m e e0) + sgn b (alignTo n f e0)
    if i = 0 then .fin (a && b) 0 0 else .fin (decide (i < 0)) i.natAbs e0

def Val.sub (x y : Val) : Val := x.add y.neg

/-- Exact sum of a list, +0 for none. -/
def Val.sum (xs : List Val) : Val := xs.foldl Val.add .zero

/-- x < y for numbers; false when either is NaN. −0 and +0 are equal. -/
def Val.lt : Val → Val → Bool
  | .nan, _ => false
  | _, .nan => false
  | .inf a, .inf b => a && !b
  | .inf a, .fin _ _ _ => a
  | .fin _ _ _, .inf b => !b
  | .fin a m e, .fin b n f =>
    let e0 := min e f
    decide (sgn a (alignTo m e e0) < sgn b (alignTo n f e0))

/-- x = y as numbers; false when either is NaN. -/
def Val.eqv (x y : Val) : Bool := !x.isNan && !y.isNan && !x.lt y && !y.lt x

/-- x ≤ y as numbers. -/
def Val.le (x y : Val) : Bool := x.lt y || x.eqv y

/-- The maximum of R48: NaN when either is NaN; of two equal values the first operand (the one with the lower index),
so that callers pass the lower index first. -/
def Val.maxFirst (x y : Val) : Val := if x.isNan || y.isNan then .nan else if x.lt y then y else x

/-- The minimum of R48, the first operand of two equal values. -/
def Val.minFirst (x y : Val) : Val := if x.isNan || y.isNan then .nan else if y.lt x then y else x

/-- The maximum of two values without indices: +0 of two unlike zeros (R48). -/
def Val.maxPlain (x y : Val) : Val :=
  if x.isNan || y.isNan then .nan
  else if x.isZero && y.isZero then (if x.isNeg then y else x)
  else if x.lt y then y else x

/-- The minimum of two values without indices: −0 of two unlike zeros (R48). -/
def Val.minPlain (x y : Val) : Val :=
  if x.isNan || y.isNan then .nan
  else if x.isZero && y.isZero then (if x.isNeg then x else y)
  else if y.lt x then y else x

/-! ## Rounding -/

/-- floor(log2(num / den)) for positive num and den. -/
def floorLog2Rat (num den : Nat) : Int :=
  let l : Int := (Nat.log2 num : Int) - (Nat.log2 den : Int)
  if 0 ≤ l then (if num < den * 2 ^ l.toNat then l - 1 else l)
  else (if num * 2 ^ (-l).toNat < den then l - 1 else l)

/-- num/den × 2^k as a fraction of naturals. -/
def shiftRat (num den : Nat) (k : Int) : Nat × Nat :=
  if 0 ≤ k then (num * 2 ^ k.toNat, den) else (num, den * 2 ^ (-k).toNat)

/-- How a magnitude between two neighbours is rounded: to nearest with ties to even (R36), stochastically with the 16 bits
supplied (R37), toward zero, or away from zero. -/
inductive Rounding where
  | rne
  | sr (r : Nat)
  | down
  | up
  deriving DecidableEq, Repr

/-- Round the non-negative fraction num/den to an integer. -/
def roundRat (rd : Rounding) (num den : Nat) : Nat :=
  let lo := num / den
  let rem := num % den
  match rd with
  | .rne => if den < 2 * rem || (2 * rem = den && lo % 2 = 1) then lo + 1 else lo
  | .sr r => if rem ≠ 0 && 65536 ≤ rem * 65536 / den + r then lo + 1 else lo
  | .down => lo
  | .up => if rem = 0 then lo else lo + 1

/-- How a floating layout spends its top exponent. -/
inductive Special where
  /-- infinities and NaNs as IEEE 754 -/
  | ieee
  /-- one NaN magnitude, no infinity (E4M3) -/
  | e4m3
  /-- every code is finite -/
  | finite
  deriving DecidableEq, Repr

/-- A floating-point element layout (R19). -/
structure Layout where
  ebits : Nat
  mbits : Nat
  bias : Nat
  special : Special
  deriving DecidableEq, Repr

def Layout.f32 : Layout := ⟨8, 23, 127, .ieee⟩
def Layout.bf16 : Layout := ⟨8, 7, 127, .ieee⟩
def Layout.f16 : Layout := ⟨5, 10, 15, .ieee⟩
def Layout.e4m3 : Layout := ⟨4, 3, 7, .e4m3⟩
def Layout.e5m2 : Layout := ⟨5, 2, 15, .ieee⟩
def Layout.e3m2 : Layout := ⟨3, 2, 3, .finite⟩
def Layout.e2m3 : Layout := ⟨2, 3, 1, .finite⟩
def Layout.e2m1 : Layout := ⟨2, 1, 1, .finite⟩

/-- The place of the sign bit. -/
def Layout.sbit (l : Layout) : Nat := l.ebits + l.mbits

/-- The magnitude code of the largest finite value. -/
def Layout.maxCode (l : Layout) : Nat :=
  match l.special with
  | .ieee => (2 ^ l.ebits - 1) * 2 ^ l.mbits - 1
  | .e4m3 => 2 ^ (l.ebits + l.mbits) - 2
  | .finite => 2 ^ (l.ebits + l.mbits) - 1

/-- The code of +infinity, where there is one. -/
def Layout.infCode (l : Layout) : Nat := (2 ^ l.ebits - 1) * 2 ^ l.mbits

/-- The positive canonical NaN (R21). -/
def Layout.nanCode (l : Layout) : Nat :=
  match l.special with
  | .ieee => (2 ^ l.ebits - 1) * 2 ^ l.mbits + 2 ^ (l.mbits - 1)
  | _ => 2 ^ (l.ebits + l.mbits) - 1

/-- The value a code stands for (R19, R20). -/
def Layout.decode (l : Layout) (w : Nat) : Val :=
  let s := bitOf w l.sbit
  let e := (w / 2 ^ l.mbits) % 2 ^ l.ebits
  let m := w % 2 ^ l.mbits
  let top := e = 2 ^ l.ebits - 1
  match l.special with
  | .ieee =>
    if top then (if m = 0 then .inf s else .nan)
    else if e = 0 then .fin s m (1 - (l.bias : Int) - l.mbits)
    else .fin s (2 ^ l.mbits + m) ((e : Int) - l.bias - l.mbits)
  | .e4m3 =>
    if top ∧ m = 2 ^ l.mbits - 1 then .nan
    else if e = 0 then .fin s m (1 - (l.bias : Int) - l.mbits)
    else .fin s (2 ^ l.mbits + m) ((e : Int) - l.bias - l.mbits)
  | .finite =>
    if e = 0 then .fin s m (1 - (l.bias : Int) - l.mbits)
    else .fin s (2 ^ l.mbits + m) ((e : Int) - l.bias - l.mbits)

/-- The magnitude code of num/den × 2^e rounded in a layout with unbounded top (R36, R37): subnormals keep the lowest grid. -/
def Layout.roundMag (l : Layout) (rd : Rounding) (num den : Nat) (e : Int) : Nat :=
  if num = 0 then 0
  else
    let top := floorLog2Rat num den + e
    let emin : Int := 1 - (l.bias : Int)
    let ex := if top < emin then emin else top
    let q := shiftRat num den (e - (ex - l.mbits))
    let n := roundRat rd q.1 q.2
    (ex - emin).toNat * 2 ^ l.mbits + n

/-- What a rounding answers: the code, and the events it counts (R41, R42). -/
structure Enc where
  code : Nat
  sat : Bool
  unf : Bool
  deriving DecidableEq, Repr

/-- An element with no event. -/
def Enc.plain (c : Nat) : Enc := ⟨c, false, false⟩

/-- Attach the sign bit. -/
def Layout.signed (l : Layout) (neg : Bool) (c : Nat) : Nat := if neg then c + 2 ^ l.sbit else c

/-- The rounding that decides whether a magnitude is out of range: what SR draws does not, a magnitude beyond the largest finite value
is out of range (R37). -/
def Rounding.range : Rounding → Rounding
  | .sr _ => .up
  | r => r

/-- Encode the magnitude num/den × 2^e with a sign under the range rules of R37, R41 and R42: saturate, or infinity or NaN
under IEEE. -/
def Layout.encodeRat (l : Layout) (rd : Rounding) (ieee : Bool) (neg : Bool) (num den : Nat) (e : Int) : Enc :=
  let c := l.roundMag rd num den e
  if l.roundMag rd.range num den e ≤ l.maxCode then ⟨l.signed neg c, false, num ≠ 0 && c = 0⟩
  else if ieee then
    match l.special with
    | .ieee => ⟨l.signed neg l.infCode, false, false⟩
    | .e4m3 => ⟨l.nanCode, false, false⟩
    | .finite => ⟨l.signed neg l.maxCode, true, false⟩
  else ⟨l.signed neg l.maxCode, true, false⟩

/-- Encode any value in a plain layout (R41). -/
def Layout.encode (l : Layout) (rd : Rounding) (ieee : Bool) (v : Val) : Enc :=
  match v with
  | .nan => match l.special with
    | .finite => .plain 0
    | _ => .plain l.nanCode
  | .inf n => match l.special with
    | .ieee => .plain (l.signed n l.infCode)
    | .e4m3 => if ieee then .plain l.nanCode else ⟨l.signed n l.maxCode, true, false⟩
    | .finite => ⟨l.signed n l.maxCode, true, false⟩
  | .fin n m e => l.encodeRat rd ieee n m 1 e

/-- The value of a binary32 word. -/
def f32 (w : Nat) : Val := Layout.f32.decode w
/-- Round to binary32, to nearest even, IEEE overflow. -/
def toF32 (v : Val) : Nat := (Layout.f32.encode .rne true v).code
/-- Round a value to the binary32 grid. -/
def Val.rnd32 (v : Val) : Val := f32 (toF32 v)
/-- Round to FP16, to nearest even, IEEE overflow. -/
def toF16 (v : Val) : Nat := (Layout.f16.encode .rne true v).code
/-- The value of an FP16 word. -/
def f16 (w : Nat) : Val := Layout.f16.decode w

/-- Round num/den × 2^e to a p-bit significand with unbounded exponent range, to nearest even (R34 step 2). -/
def rndSig (p : Nat) (neg : Bool) (num den : Nat) (e : Int) : Val :=
  if num = 0 then .fin neg 0 0
  else
    let ex := floorLog2Rat num den - (p - 1 : Nat)
    let q := shiftRat num den (-ex)
    .fin neg (roundRat .rne q.1 q.2) (e + ex)

/-- x / y rounded to a 24-bit significand with unbounded exponent; the special values of IEEE division. -/
def Val.div24 : Val → Val → Val
  | .nan, _ => .nan
  | _, .nan => .nan
  | .inf _, .inf _ => .nan
  | .inf a, .fin b _ _ => .inf (a != b)
  | .fin a _ _, .inf b => .fin (a != b) 0 0
  | .fin a m e, .fin b n f =>
    if n = 0 then (if m = 0 then .nan else .inf (a != b)) else rndSig 24 (a != b) m n (e - f)

/-! ## The sixteen element formats (R18) -/

/-- The element formats, in the order of their codes (R18). -/
inductive Fmt where
  | fp32 | bf16 | fp16 | e4m3 | e5m2 | e2m1
  | mxE4M3 | mxE5M2 | mxE3M2 | mxE2M3 | mxfp4 | mxint8
  | lt2 | lb1 | bs8 | bs8u
  deriving DecidableEq, Repr

/-- Every 4-bit code names a format (R18). -/
def Fmt.ofCode (c : Nat) : Fmt :=
  match c % 16 with
  | 0 => .fp32 | 1 => .bf16 | 2 => .fp16 | 3 => .e4m3 | 4 => .e5m2 | 5 => .e2m1
  | 6 => .mxE4M3 | 7 => .mxE5M2 | 8 => .mxE3M2 | 9 => .mxE2M3 | 10 => .mxfp4 | 11 => .mxint8
  | 12 => .lt2 | 13 => .lb1 | 14 => .bs8 | _ => .bs8u

def Fmt.code : Fmt → Nat
  | .fp32 => 0 | .bf16 => 1 | .fp16 => 2 | .e4m3 => 3 | .e5m2 => 4 | .e2m1 => 5
  | .mxE4M3 => 6 | .mxE5M2 => 7 | .mxE3M2 => 8 | .mxE2M3 => 9 | .mxfp4 => 10 | .mxint8 => 11
  | .lt2 => 12 | .lb1 => 13 | .bs8 => 14 | .bs8u => 15

/-- The width of one element in bits (R19, R24, R27 to R29). -/
def Fmt.width : Fmt → Nat
  | .fp32 => 32 | .bf16 | .fp16 => 16
  | .e2m1 | .mxfp4 => 4
  | .mxE3M2 | .mxE2M3 => 6
  | .lt2 => 2 | .lb1 => 1
  | .e4m3 | .e5m2 | .mxE4M3 | .mxE5M2 | .mxint8 | .bs8 | .bs8u => 8

/-- The floating layout of the elements, where they are floating (R19). -/
def Fmt.layout : Fmt → Option Layout
  | .fp32 => some .f32 | .bf16 => some .bf16 | .fp16 => some .f16
  | .e4m3 | .mxE4M3 => some .e4m3
  | .e5m2 | .mxE5M2 => some .e5m2
  | .mxE3M2 => some .e3m2 | .mxE2M3 => some .e2m3
  | .e2m1 | .mxfp4 => some .e2m1
  | .mxint8 | .lt2 | .lb1 | .bs8 | .bs8u => none

/-- The kind of block scale: none, E8M0 or FP16 (R22, R27 to R29). -/
inductive ScaleKind where
  | none | e8m0 | fp16
  deriving DecidableEq, Repr

def Fmt.scaleKind : Fmt → ScaleKind
  | .fp32 | .bf16 | .fp16 | .e4m3 | .e5m2 | .e2m1 => .none
  | .mxE4M3 | .mxE5M2 | .mxE3M2 | .mxE2M3 | .mxfp4 | .mxint8 | .bs8 | .bs8u => .e8m0
  | .lt2 | .lb1 => .fp16

/-- Elements of one scale block: 32 for MX, 64 for LT2, LB1, BS8 and BS8U, 1 for the plain formats. -/
def Fmt.blockLen : Fmt → Nat
  | .fp32 | .bf16 | .fp16 | .e4m3 | .e5m2 | .e2m1 => 1
  | .mxE4M3 | .mxE5M2 | .mxE3M2 | .mxE2M3 | .mxfp4 | .mxint8 => 32
  | .lt2 | .lb1 | .bs8 | .bs8u => 64

/-- Bytes of one block scale. -/
def Fmt.scaleBytes (f : Fmt) : Nat :=
  match f.scaleKind with
  | .none => 0 | .e8m0 => 1 | .fp16 => 2

/-- Tile scales apply to formats 0x3 to 0xB only (R25). -/
def Fmt.tileScaled (f : Fmt) : Bool := decide (3 ≤ f.code) && decide (f.code ≤ 11)

/-- The value of an element code before any scale (R19, R24, R27 to R29). -/
def Fmt.elem (f : Fmt) (w : Nat) : Val :=
  match f with
  | .mxint8 | .bs8 => let i := sextN 8 w; .fin (decide (i < 0)) i.natAbs (-6)
  | .bs8u => .fin false (w % 256) (-7)
  | .lt2 => match w % 4 with
    | 1 => .one
    | 3 => .fin true 1 0
    | _ => .zero
  | .lb1 => if w % 2 = 1 then .one else .fin true 1 0
  | f => match f.layout with
    | some l => l.decode w
    | none => .zero

/-- The value of an E8M0 scale code (R22). -/
def e8m0 (c : Nat) : Val := if c % 256 = 255 then .nan else .fin false 1 ((c % 256 : Nat) - 127)

/-- The value of a block-scale code of a format; 1 where the format has none. -/
def Fmt.scaleVal (f : Fmt) (c : Nat) : Val :=
  match f.scaleKind with
  | .none => .one
  | .e8m0 => e8m0 c
  | .fp16 => f16 c

/-- The value of a stored tile scale: one that is zero, negative, infinite or NaN makes its region NaN (R25). -/
def tileScaleVal (w : Nat) : Val :=
  match f16 w with
  | .fin false (m + 1) e => .fin false (m + 1) e
  | _ => .nan

/-- An element with its scales applied, exactly (R23, R27 to R29). -/
def Fmt.value (f : Fmt) (el sc : Nat) (t : Val) : Val := ((f.elem el).mul (f.scaleVal sc)).mul t

/-! ## The quantisation control word (R32) -/

/-- A quantisation control word (R32). -/
structure QCW where
  dst : Fmt
  round : Nat
  ieee : Bool
  noclip : Bool
  tileScale : Nat
  axis : Bool
  rsvd : Nat
  deriving DecidableEq, Repr

/-- The fields of a QCW (R32). -/
def QCW.ofNat (w : Nat) : QCW :=
  { dst := Fmt.ofCode (bitsOf w 3 0), round := bitsOf w 5 4, ieee := bitOf w 6, noclip := bitOf w 7,
    tileScale := bitsOf w 9 8, axis := bitOf w 10, rsvd := bitsOf w 15 11 }

/-- The contents R33 refuses with RSVD_FIELD. -/
def QCW.bad (q : QCW) : Bool :=
  decide (2 ≤ q.round) || q.tileScale == 3 || (q.tileScale != 0 && !q.dst.tileScaled) || q.rsvd != 0

def QCW.isSR (q : QCW) : Bool := q.round == 1

/-- The rounding of one element: RNE, or SR with the 16 bits of its logical element index. -/
def QCW.rounding (q : QCW) (r : Nat) : Rounding := if q.isSR then .sr (r % 65536) else .rne

/-- The largest finite element value m of R34 and R35, as n × 2^e. -/
def Fmt.maxElem : Fmt → Nat × Int
  | .fp32 => (2 ^ 24 - 1, 104)
  | .bf16 => (2 ^ 8 - 1, 120)
  | .fp16 => (65504, 0)
  | .e4m3 | .mxE4M3 => (448, 0)
  | .e5m2 | .mxE5M2 => (57344, 0)
  | .mxE3M2 => (28, 0)
  | .mxE2M3 => (15, -1)
  | .e2m1 | .mxfp4 => (6, 0)
  | .mxint8 | .bs8 => (127, -6)
  | .bs8u => (255, -7)
  | .lt2 | .lb1 => (1, 0)

/-- e of R35: the exponent of the largest finite element value. -/
def Fmt.maxExp : Fmt → Int
  | .mxE4M3 => 8 | .mxE5M2 => 15 | .mxE3M2 => 4 | .mxE2M3 => 2 | .mxfp4 => 2
  | _ => 0

/-- The largest magnitude of the finite values of a list, as (m, e). -/
def maxMag : List Val → Val
  | [] => .zero
  | v :: vs => match v with
    | .fin _ m e => let r := maxMag vs; if r.lt (.fin false m e) then .fin false m e else r
    | _ => maxMag vs

/-- ceil(log2(num/den)) for positive num and den. -/
def ceilLog2Rat (num den : Nat) : Int :=
  let l := floorLog2Rat num den
  let q := shiftRat num den (-l)
  if q.1 = q.2 then l else l + 1

/-- The computed tile scale of R34 step 1: a / (m × 2^ceil(log2(a/m))) rounded toward +∞ to FP16, 1.0 when a is 0. -/
def computeTileScale (f : Fmt) (a : Val) : Nat :=
  match a with
  | .fin _ am ae =>
    if am = 0 then 0x3C00
    else
      let mx := f.maxElem
      let q := shiftRat am mx.1 (ae - mx.2)
      let k := ceilLog2Rat q.1 q.2
      let t := shiftRat q.1 q.2 (-k)
      Layout.f16.roundMag .up t.1 t.2 0
  | _ => 0x3C00

/-- Step 2 of R34: the source divided by the tile scale, to a 24-bit significand. -/
def applyTileScale (on : Bool) (t : Val) (x : Val) : Val := if on then x.div24 t else x

/-- The block scale exponent X of R35, clamped. -/
def blockExp (f : Fmt) (noclip : Bool) (a : Val) : Int :=
  match a with
  | .fin _ am ae =>
    let x := if noclip then
        let mx := f.maxElem
        let q := shiftRat am mx.1 (ae - mx.2)
        ceilLog2Rat q.1 q.2
      else floorLog2Rat am 1 + ae - f.maxExp
    if x < -127 then -127 else if 127 < x then 127 else x
  | _ => 0

/-- A scale-block integer element (MXINT8, BS8, BS8U): q = |x| / (2^sc × 2^-frac) rounded; the codes of R24, R29 and R41. -/
def intElem (frac : Nat) (unsigned : Bool) (rd : Rounding) (sc : Int) (v : Val) : Enc :=
  match v with
  | .fin n m e =>
    let q := shiftRat m 1 (e - sc + frac)
    let k := roundRat rd q.1 q.2
    let top := roundRat rd.range q.1 q.2
    if unsigned then
      if n && m ≠ 0 then ⟨0, true, false⟩
      else if 255 < top then ⟨255, true, false⟩ else ⟨k, false, m ≠ 0 && k = 0⟩
    else
      if 127 < top then ⟨if n then 129 else 127, true, false⟩
      else ⟨if n then (256 - k) % 256 else k, false, m ≠ 0 && k = 0⟩
  | _ => .plain 0

/-- Steps 4 to 6 of R34 for one element of a block under scale exponent sc. -/
def quantElem (f : Fmt) (rd : Rounding) (ieee : Bool) (sc : Int) (v : Val) : Enc :=
  match f with
  | .mxint8 | .bs8 => intElem 6 false rd sc v
  | .bs8u => intElem 7 true rd sc v
  | f => match f.layout with
    | some l => l.encode rd ieee (v.scale (-sc))
    | none => .plain 0

/-- What quantising one scale block (or one plain element) answers. -/
structure QBlock where
  /-- the block-scale code (0 where the format has none) -/
  scale : Nat
  /-- the element codes with their events -/
  els : List Enc
  /-- a saturation event of the scale itself (R39) -/
  satScale : Bool
  /-- the non-finite flag of R50 is set -/
  nonfinite : Bool
  deriving DecidableEq, Repr

/-- Does a code of a plain layout stand for an infinity or a NaN (R50)? -/
def Fmt.codeNonfinite (f : Fmt) (c : Nat) : Bool := !(f.elem c).isFinite

/-- The mean magnitude of a block as a fraction: (num, den, e) (R39). -/
def meanMag (xs : List Val) : Nat × Nat × Int :=
  match (xs.map Val.abs).foldl Val.add .zero with
  | .fin _ m e => (m, xs.length, e)
  | _ => (0, 1, 0)

/-- |x| / s as a fraction for positive s. -/
def ratioMag (x s : Val) : Nat × Nat :=
  match x, s with
  | .fin _ m e, .fin _ n f => let q := shiftRat m n (e - f); (q.1, q.2)
  | _, _ => (0, 1)

/-- The LT2 code of one element under scale s (R39). -/
def lt2Elem (rd : Rounding) (s x : Val) : Nat :=
  if s.isZero then 0
  else
    let q := ratioMag x s
    let one := if x.isNeg && !x.isZero then 3 else 1
    match rd with
    | .sr r =>
      if q.2 ≤ q.1 then one
      else if q.1 ≠ 0 && decide (65536 ≤ q.1 * 65536 / q.2 + r) then one else 0
    | _ => if 2 * q.1 < q.2 then 0 else one

/-- The LB1 code of one element under scale s (R40). -/
def lb1Elem (rd : Rounding) (s x : Val) : Nat :=
  let nonneg := !(x.isNeg && !x.isZero)
  match rd with
  | .sr r =>
    if s.isZero then b2n nonneg
    else
      let q := ratioMag x s
      let n := min q.1 q.2
      -- (1 ± min(|x|/s, 1)) / 2 as a fraction
      let f := if nonneg then q.2 + n else q.2 - n
      b2n (decide (65536 ≤ f * 65536 / (2 * q.2) + r))
  | _ => b2n nonneg

/-- Quantise the real elements of one scale block (or one element of a plain format), each with the 16 stochastic bits of
its index; the sources already divided by their tile scale (R34 to R42, R50). -/
def quantBlock (q : QCW) (xs : List (Val × Nat)) : QBlock :=
  let vs := xs.map Prod.fst
  let bad := vs.any fun v => !v.isFinite
  match q.dst.scaleKind with
  | .none =>
    match q.dst.layout with
    | some l =>
      let es := xs.map fun x => l.encode (q.rounding x.2) q.ieee x.1
      ⟨0, es, false, bad || es.any fun e => q.dst.codeNonfinite e.code⟩
    | none => ⟨0, [], false, bad⟩
  | .e8m0 =>
    if bad then ⟨255, xs.map fun _ => .plain 0, false, true⟩
    else
      let a := maxMag vs
      let x := if a.isZero then 0 else blockExp q.dst q.noclip a
      let es := xs.map fun y => quantElem q.dst (q.rounding y.2) q.ieee x y.1
      ⟨(x + 127).toNat, es, false, es.any fun e => q.dst.codeNonfinite e.code⟩
  | .fp16 =>
    if bad then ⟨0x7E00, xs.map fun _ => .plain 0, false, true⟩
    else
      let mm := meanMag vs
      let sc := Layout.f16.encodeRat .rne false false mm.1 mm.2.1 mm.2.2
      let s := f16 sc.code
      let es := xs.map fun y => Enc.plain
        (if q.dst = .lt2 then lt2Elem (q.rounding y.2) s y.1 else lb1Elem (q.rounding y.2) s y.1)
      ⟨sc.code, es, sc.sat, false⟩

/-- How many elements of a list of results saturated. -/
def countSat (b : QBlock) : Nat := (b.els.filter fun e => e.sat).length + b2n b.satScale
/-- How many elements underflowed. -/
def countUnf (b : QBlock) : Nat := (b.els.filter fun e => e.unf).length

end Sys2Proof.Machine
end

