-- ==== Sys2Proof/Machine/Tensor.lean ====
section
/-! DEFINITION. The descriptor file (R251), tensor descriptors and their checks (R253 to R257), mask objects and their areas (R111 to
R115), BSG tensors (R84 to R94), and the place of every element of a tensor. -/

namespace Sys2Proof.Machine

/-! ## The descriptor file (R251) -/

/-- An unlisted descriptor word: shade reset writes zeros (R252). -/
def descDefault (_ : Nat) : W64 := 0

/-- Word w of tensor descriptor n. -/
def tdWord (n w : Nat) : Nat := n * 16 + w
/-- Word w of mask object descriptor n. -/
def moWord (n w : Nat) : Nat := 4096 + n * 8 + w
/-- Word w of chain descriptor n. -/
def cdWord (n w : Nat) : Nat := 4608 + n * 8 + w
/-- Word w of layer-table entry n. -/
def layerWord (n w : Nat) : Nat := 5120 + n * 8 + w
/-- Word w of loop descriptor n of a tile. -/
def ldWord (t n w : Nat) : Nat := 8192 + (t * 32 + n) * 16 + w

/-- A descriptor word. -/
def dget (d : FMap W64) (k : Nat) : Nat := (d.get descDefault k).toNat

/-- Bits [hi:lo] of a descriptor whose word 0 lies at key k; a field lies in one word, or starts on a word and spans to the next. -/
def dbits (d : FMap W64) (k hi lo : Nat) : Nat :=
  bitsOf (dget d (k + lo / 64) + 2 ^ 64 * (if hi / 64 = lo / 64 then 0 else dget d (k + lo / 64 + 1))) (hi - lo / 64 * 64) (lo - lo / 64 * 64)

/-! ## Tensor descriptors (R253) -/

/-- A tensor descriptor, its fields read (R253). -/
structure TD where
  num : Nat
  fmt : Fmt
  space : Nat
  rank : Nat
  moen : Bool
  mo : Nat
  esel : Bool
  baxis : Bool
  tsen : Bool
  hdrRsvd : Nat
  bsgw : Nat
  base : Nat
  sbase : Nat
  tsbase : Nat
  hbase : Nat
  obase : Nat
  /-- the sizes and strides of the six dimension fields -/
  sizes6 : List Nat
  strides6 : List Int
  tailRsvd : Nat
  deriving DecidableEq, Repr

/-- Read tensor descriptor n of a descriptor file. -/
def readTD (d : FMap W64) (n : Nat) : TD :=
  let k := tdWord n 0
  let w0 := dget d k
  { num := n, fmt := Fmt.ofCode (bitsOf w0 3 0), space := bitsOf w0 7 4, rank := bitsOf w0 10 8, moen := bitOf w0 11, mo := bitsOf w0 17 12,
    esel := bitOf w0 18, baxis := bitOf w0 19, tsen := bitOf w0 20, hdrRsvd := bitsOf w0 31 21, bsgw := bitsOf w0 63 32,
    base := dget d (k + 1), sbase := dget d (k + 2), tsbase := dget d (k + 3), hbase := dget d (k + 4), obase := dget d (k + 5),
    sizes6 := (List.range 6).map fun i => dbits d k (415 + 32 * i) (384 + 32 * i),
    strides6 := (List.range 6).map fun i => sextN 64 (dget d (k + 9 + i)), tailRsvd := dget d (k + 15) }

def TD.sizes (t : TD) : List Nat := t.sizes6.take t.rank
def TD.strides (t : TD) : List Int := t.strides6.take t.rank
/-- Block edge: 0 for a dense tensor (R92). -/
def TD.edge (t : TD) : Nat :=
  match bitsOf t.bsgw 1 0 with
  | 1 => 16 | 2 => 32 | 3 => 64 | _ => 0
def TD.isBsg (t : TD) : Bool := t.edge != 0
def TD.strided (t : TD) : Bool := bitOf t.bsgw 2
def TD.slots (t : TD) : Nat := bitsOf t.bsgw 6 3
/-- The product of a list of sizes. -/
def prodL (l : List Nat) : Nat := l.foldl (· * ·) 1
/-- Size of the last dimension. -/
def TD.cols (t : TD) : Nat := (t.sizes.getLast?).getD 1
/-- Size of the second-last dimension; 1 for rank 1 (R261). -/
def TD.rows (t : TD) : Nat := if t.rank < 2 then 1 else (t.sizes[t.rank - 2]?).getD 1
/-- Sizes of the leading dimensions. -/
def TD.lead (t : TD) : List Nat := t.sizes.take (t.rank - 2)
/-- Scale-block length of the format (R87); 1 where it has no scale block. -/
def TD.sblk (t : TD) : Nat := t.fmt.blockLen
/-- Access width of a memory space (R255). -/
def spaceWidth (space : Nat) : Nat := if space = 9 then 128 else 64

/-- Payload and scale bytes of one block (R91). -/
def payloadBytes (f : Fmt) (b : Nat) : Nat := b * b * f.width / 8
/-- Scales of one block line (R87). -/
def lineScales (f : Fmt) (b : Nat) : Nat := max 1 (b / f.blockLen)
def blockScaleBytes (f : Fmt) (b : Nat) : Nat := if f.scaleKind = .none then 0 else b * lineScales f b * f.scaleBytes

/-- Block rows and columns of a BSG tensor (R84). -/
def TD.brows (t : TD) : Nat := ceilDiv t.rows t.edge
def TD.bcols (t : TD) : Nat := ceilDiv t.cols t.edge
/-- Groups of a block row (R84). -/
def TD.groups (t : TD) : Nat := ceilDiv t.bcols 8
/-- Global block rows (R84). -/
def TD.grows (t : TD) : Nat := prodL t.lead * t.brows

/-- The BSG parameter word breaks R93. -/
def TD.bsgwBad (t : TD) : Bool :=
  let s := t.slots
  (t.strided && t.isBsg && (s == 0 || decide (8 < s))) || ((!t.strided || !t.isBsg) && s != 0)
  || (!t.isBsg && t.strided) || bitsOf t.bsgw 31 7 != 0 || (t.isBsg && decide (t.rank < 2))

/-- The dimension along which elements are packed: the one of stride 1, else the last (R254). -/
def TD.packedDim (t : TD) : Nat :=
  match t.strides.findIdx? fun x => x == 1 with
  | some i => i
  | none => t.rank - 1

/-- A dimension larger than 1 with stride 0: a broadcast (R254). -/
def TD.broadcast (t : TD) : Bool := (t.sizes.zip t.strides).any fun p => decide (1 < p.1) && p.2 == 0

/-- R254 finds the descriptor reserved. `bc` allows a broadcast. -/
def TD.rsvd (t : TD) (bc : Bool) : Bool :=
  let dense := !t.isBsg
  let sizeOk := (t.sizes.all fun n => n != 0) && ((t.sizes6.drop t.rank).all fun n => n == 0)
  let ones := (t.sizes.zip t.strides).filter fun p => decide (1 < p.1) && p.2 == 1
  t.rank == 0 || t.rank == 7 || decide (0xD ≤ t.space) || t.hdrRsvd != 0 || t.tailRsvd != 0
  || (!t.moen && (t.mo != 0 || t.esel))
  || (t.baxis && (t.rank == 1 || decide (t.fmt.code ≤ 5))) || (t.tsen && !t.fmt.tileScaled)
  || !sizeOk || decide (2 ^ 64 ≤ prodL t.sizes) || ((t.strides6.drop t.rank).any fun x => x != 0)
  || t.bsgwBad
  || (dense && (((t.sizes.zip t.strides).any fun p => p.1 == 1 && p.2 != 0)
      || ((t.sizes.any fun n => decide (1 < n)) && ones.length != 1)
      || (!t.moen && (t.hbase != 0 || t.obase != 0)) || (t.moen)
      || (decide (t.fmt.code ≤ 5) && t.sbase != 0) || (!t.tsen && t.tsbase != 0)
      || (!bc && t.broadcast)))
  || (!dense && ((t.strides6.any fun x => x != 0) || (t.strided && t.obase != 0 && !t.moen)))

/-- R256: a base that is not a multiple of its space's access width, or a stride that is not a multiple of 8 × the width in bits. -/
def TD.misaligned (t : TD) : Bool :=
  let w := spaceWidth t.space
  let bases := [t.base] ++ (if decide (6 ≤ t.fmt.code) then [t.sbase] else []) ++ (if t.tsen then [t.tsbase] else [])
    ++ (if t.isBsg && !t.moen then (if t.strided then [t.hbase] else [t.hbase, t.obase]) else [])
  (bases.any fun b => b % w != 0)
  || (!t.isBsg && (((List.range t.rank).filter fun i => i != t.packedDim).any fun i =>
        ((t.strides[i]?).getD 0).natAbs * t.fmt.width % (8 * w) != 0))

/-! ## Mask objects (R111 to R115) -/

/-- A mask object descriptor (R111). -/
structure MOD where
  bsize : Nat
  en : Bool
  rows : Nat
  cols : Nat
  bitmap : Nat
  layout : Nat
  score : Nat
  cap : Nat
  rsvd : Bool
  deriving DecidableEq, Repr

def readMO (d : FMap W64) (n : Nat) : MOD :=
  let k := moWord n 0
  let w0 := dget d k
  { bsize := bitsOf w0 1 0, en := bitOf w0 2, rows := bitsOf w0 31 8, cols := bitsOf w0 55 32, bitmap := dget d (k + 1),
    layout := dget d (k + 2), score := dget d (k + 3), cap := bitsOf (dget d (k + 4)) 31 0,
    rsvd := bitsOf w0 7 3 != 0 || bitsOf w0 63 56 != 0 || bitsOf (dget d (k + 4)) 63 32 != 0 || dget d (k + 5) != 0
      || dget d (k + 6) != 0 || dget d (k + 7) != 0 }

def MOD.edge (m : MOD) : Nat :=
  match m.bsize with
  | 1 => 16 | 2 => 32 | 3 => 64 | _ => 0

/-- The issue check of a mask object (R112): RSVD_FIELD, or ALIGN. -/
def MOD.check (m : MOD) : Option Nat :=
  if !m.en || m.bsize == 0 || m.rows == 0 || m.cols == 0 || m.cap == 0 || m.rsvd then some RSVD_FIELD
  else if m.bitmap % 64 ≠ 0 ∨ m.layout % 64 ≠ 0 ∨ m.score % 64 ≠ 0 then some F_ALIGN
  else none

def pad64 (x : Nat) : Nat := ceilDiv x 64 * 64
/-- NB, the blocks of the grid (R112). -/
def MOD.nb (m : MOD) : Nat := m.rows * m.cols
def MOD.groups (m : MOD) : Nat := ceilDiv m.cols 8
/-- Sb and Sl (R114). -/
def MOD.sb (m : MOD) : Nat := ceilDiv m.nb 512 * 64
def MOD.hdrBytes (m : MOD) : Nat := pad64 (m.rows * m.groups * 2)
def MOD.ofsBytes (m : MOD) : Nat := pad64 ((m.rows + 1) * 4)
def MOD.cofsBytes (m : MOD) : Nat := pad64 ((m.cols + 1) * 4)
def MOD.sl (m : MOD) : Nat := m.hdrBytes + m.ofsBytes + m.cofsBytes + m.cap * 8
def MOD.bitmapAt (m : MOD) (e : Nat) : Nat := m.bitmap + e * m.sb
def MOD.headerAt (m : MOD) (e : Nat) : Nat := m.layout + e * m.sl
def MOD.ofsAt (m : MOD) (e : Nat) : Nat := m.headerAt e + m.hdrBytes
def MOD.cofsAt (m : MOD) (e : Nat) : Nat := m.ofsAt e + m.ofsBytes
def MOD.mirrorAt (m : MOD) (e : Nat) : Nat := m.cofsAt e + m.cofsBytes

/-- What an unlisted mask state reads as. -/
def maskDefault (_ : Nat) : MaskSt := MaskSt.reset

/-- The parity a governed descriptor captures (R113, R117): CUR for CURRENT, 1 − CUR for NEXT. -/
def capParity (ms : FMap MaskSt) (t : TD) : Nat :=
  let c := b2n (ms.get maskDefault t.mo).cur
  if t.esel then 1 - c else c

/-- R113 refuses a governed tensor. -/
def TD.governedBad (t : TD) (m : MOD) : Bool :=
  t.moen && (t.edge != m.edge || t.strided || !(t.lead.all fun n => n == 1) || t.brows != m.rows || t.bcols != m.cols)

/-! ## Footprints (R257) -/

/-- The lowest and highest element offsets of a dense tensor. -/
def TD.extent (t : TD) : Int × Int :=
  (t.sizes.zip t.strides).foldl (fun (a : Int × Int) p =>
    let d : Int := ((p.1 - 1 : Nat) : Int) * p.2
    if d < 0 then (a.1 + d, a.2) else (a.1, a.2 + d)) (0, 0)

/-- The shape of the scale plane's block positions (R31). -/
def TD.scaleShape (t : TD) : List Nat :=
  let ax := if t.baxis then t.rank - 2 else t.rank - 1
  t.sizes.mapIdx fun i n => if i = ax then ceilDiv n t.sblk else n

/-- Regions of the tile-scale plane (R31). -/
def TD.regionCount (t : TD) : Nat := prodL t.lead * ceilDiv t.rows 64 * ceilDiv t.cols 64

/-- The byte ranges a descriptor covers in its space: (first, length), for a parity-covering CAP where it is governed (R113, R257); `rows` global block rows
hold the payload of a STRIDED part (R171). -/
def TD.ranges (t : TD) (cap : Nat) (rows : Option Nat := none) : List (Int × Nat) :=
  let ts := if t.tsen then [((t.tsbase : Int), 2 * t.regionCount)] else []
  if !t.isBsg then
    let e := t.extent
    let lo := (t.base : Int) + (e.1 * t.fmt.width).fdiv 8
    let hi := (t.base : Int) + ((e.2 + 1) * t.fmt.width + 7).fdiv 8
    [(lo, (hi - lo).toNat)] ++ (if t.fmt.scaleKind = .none then [] else [((t.sbase : Int), prodL t.scaleShape * t.fmt.scaleBytes)]) ++ ts
  else
    let p := payloadBytes t.fmt t.edge
    let sc := blockScaleBytes t.fmt t.edge
    let n := if t.moen then 2 * cap else if t.strided then rows.getD t.grows * t.groups * t.slots else 0
    [((t.base : Int), n * p)] ++ (if sc = 0 then [] else [((t.sbase : Int), n * sc)])
    ++ (if t.moen then [] else [((t.hbase : Int), t.grows * t.groups * 2)]
          ++ (if t.strided then [] else [((t.obase : Int), (t.grows + 1) * 4)])) ++ ts

/-- R257 at issue, for one prism: an on-die footprint outside the window, or an address sum that passes 2^48. -/
def State.footprintBad (s : State) (p : Nat) (t : TD) (cap : Nat) (rows : Option Nat := none) : Bool :=
  let lim : Nat := if t.space ≤ 8 then (s.tsWin p).2 else if t.space = 9 then (s.poolWin p).2 else 2 ^ 48
  (t.ranges cap rows).any fun r => decide (r.1 < 0) || decide ((lim : Int) < r.1 + r.2)

/-! ## The place of an element -/

/-- A row-major index of coordinates in a shape. -/
def linIndex (shape coords : List Nat) : Nat :=
  (shape.zip coords).foldl (fun a p => a * p.1 + p.2) 0

/-- The coordinates of a linear index (R11), outermost first; the outermost coordinate is not reduced. -/
def unIndex : List Nat → Nat → List Nat
  | [], _ => []
  | [_], i => [i]
  | _ :: shape, i =>
    let inner := prodL shape
    (i / inner) :: unIndex shape (i % inner)

/-- Every coordinate lies below its size. -/
def inShape (shape coords : List Nat) : Bool := (shape.zip coords).all fun p => decide (p.2 < p.1)

/-- Where an element lies: the bit address of its code, the byte address of its block scale and of its tile scale, all in the
tensor's space. -/
structure ELoc where
  bit : Nat
  scale : Option Nat
  ts : Option Nat
  deriving DecidableEq, Repr

/-- The byte address of the tile scale of an element (R31). -/
def TD.tsAddr (t : TD) (co : List Nat) : Option Nat :=
  if t.tsen then
    let c := (co.getLast?).getD 0
    let r := if t.rank < 2 then 0 else (co[t.rank - 2]?).getD 0
    some (t.tsbase + 2 * ((linIndex t.lead (co.take (t.rank - 2)) * ceilDiv t.rows 64 + r / 64) * ceilDiv t.cols 64 + c / 64))
  else none

/-- The place of an element of a dense tensor. -/
def TD.denseLoc (t : TD) (co : List Nat) : ELoc :=
  let off : Int := (co.zip t.strides).foldl (fun (a : Int) p => a + (p.1 : Int) * p.2) 0
  let ax := if t.baxis then t.rank - 2 else t.rank - 1
  let sco := co.mapIdx fun i c => if i = ax then c / t.sblk else c
  { bit := ((t.base : Int) * 8 + off * t.fmt.width).toNat,
    scale := if t.fmt.scaleKind = .none then none else some (t.sbase + linIndex t.scaleShape sco * t.fmt.scaleBytes),
    ts := t.tsAddr co }

/-- A group header (R85). -/
structure Hdr where
  map : Nat
  count : Nat
  tag : Nat
  deriving DecidableEq, Repr

def Hdr.ofNat (w : Nat) : Hdr := ⟨bitsOf w 7 0, bitsOf w 11 8, bitsOf w 15 12⟩
def Hdr.toNat (h : Hdr) : Nat := h.map + h.count * 256 + h.tag * 4096

/-- Block columns that exist in group g. -/
def TD.groupCols (t : TD) (g : Nat) : Nat := min 8 (t.bcols - 8 * g)

/-- The check of a group header (R94). -/
def TD.hdrBad (t : TD) (g : Nat) (h : Hdr) : Bool :=
  h.count != popBits 8 h.map || decide (2 ^ t.groupCols g ≤ h.map) || (t.strided && decide (t.slots < h.count))
  || (h.count != 0 && h.tag != t.fmt.code)

/-- The space and address of a group header: the tensor's own plane, or the captured layout in HBM (R88, R113, R302). -/
def TD.hdrPlace (t : TD) (m : MOD) (e rho g : Nat) : Nat × Nat :=
  if t.moen then (0xA, m.headerAt e + (rho * t.groups + g) * 2) else (t.space, t.hbase + (rho * t.groups + g) * 2)

/-- The space and address of an offset-table entry. -/
def TD.ofsPlace (t : TD) (m : MOD) (e rho : Nat) : Nat × Nat :=
  if t.moen then (0xA, m.ofsAt e + rho * 4) else (t.space, t.obase + rho * 4)

/-! ## Generated patterns (R339 to R345) -/

/-- The register of pattern entry n (R352). -/
def State.pat (s : State) (sh : ShadeIx) (n off : Nat) : Nat := s.getR .pattern sh.val (0x100 + 0x20 * n + off)

/-- The pattern entry that makes a mask object generated (R339). -/
def State.genEntry (s : State) (sh : ShadeIx) (mo : Nat) : Option Nat :=
  (List.range 16).find? fun n => bitOf (s.pat sh n 0) 0 && bitsOf (s.pat sh n 0) 6 1 == mo

/-- The origins an operation captured for an entry: row0 and col0 (R340). -/
def State.genOrigin (s : State) (sh : ShadeIx) (g : Vector W64 64) (n : Nat) : Nat × Nat :=
  let w := ((g.toList)[bitsOf (s.pat sh n 0) 18 13]?.getD 0).toNat
  (bitsOf w 31 0, bitsOf w 63 32)

/-- The place of a prism in its shade's ascending logical order. -/
def State.posOf (s : State) (sh : ShadeIx) (p : Nat) : Nat := ((s.prismsOf sh).findIdx? fun x => x == p).getD 0

/-- Size in bytes of the work area of a generated object: the list, OFS and COFS (R342). -/
def MOD.workBytes (m : MOD) : Nat := 128 + ceilDiv ((m.rows + 1) * 4) 128 * 128 + ceilDiv ((m.cols + 1) * 4) 128 * 128

/-- A capture of a generated object that R339 or R344 refuses at issue, with the origins read from the g-registers of that moment. -/
def State.genRsvd (s : State) (sh : ShadeIx) (t : TD) (m : MOD) : Bool :=
  match (if t.moen then s.genEntry sh t.mo else none) with
  | none => false
  | some n =>
    let ctl := s.pat sh n 0
    let strd := s.pat sh n 8
    let work := s.pat sh n 0x10
    let o := s.genOrigin sh (s.sh sh).lan.g n
    let span := ((s.prismsOf sh).length - 1) * bitsOf (s.pat sh n 0x14) 15 0
    t.esel || m.bsize != 3 || bitsOf ctl 12 8 == 0
    || (bitOf ctl 9 && (bitsOf strd 15 0 == 0 || decide (bitsOf strd 15 0 ≤ bitsOf strd 31 16)))
    || (bitOf ctl 11 && bitsOf work 22 16 == 0)
    || decide (65536 < o.1 + span + m.rows) || decide (65536 < o.2 + m.cols)

/-- The work area of a generated object leaves the pool window (R342). -/
def State.genBound (s : State) (sh : ShadeIx) (t : TD) (m : MOD) : Bool :=
  match (if t.moen then s.genEntry sh t.mo else none) with
  | none => false
  | some n => (s.prismsOf sh).any fun p => decide ((s.poolWin p).2 < bitsOf (s.pat sh n 0x10) 15 0 * 128 + m.workBytes)

/-- The issue check of a tensor descriptor named by an operation (R93, R112, R113, R254, R256, R257, R342, R344): the first fault code.
`spaces` are the memory-space codes the place accepts; `ps` are the prisms that run
the operation and `foot` is the descriptor as one of them addresses it. -/
def State.checkTDWith (s : State) (sh : ShadeIx) (d : FMap W64) (n : Nat) (spaces : List Nat) (bc : Bool)
    (ps : List Nat) (foot : TD → Nat → TD × Option Nat) : Option Nat :=
  let t := readTD d n
  let m := readMO d t.mo
  if t.rsvd bc || !spaces.contains t.space then some RSVD_FIELD
  else match (if t.moen then m.check else none) with
    | some c => some c
    | none =>
      if t.governedBad m then some RSVD_FIELD
      else if s.genRsvd sh t m then some RSVD_FIELD
      else if t.misaligned then some F_ALIGN
      else if s.genBound sh t m then some F_BOUND
      else if ps.any fun p => s.footprintBad p (foot t p).1 m.cap (foot t p).2 then some F_BOUND
      else none

/-- The issue check of a tensor descriptor that every prism sees whole. -/
def State.checkTD (s : State) (sh : ShadeIx) (d : FMap W64) (n : Nat) (spaces : List Nat) (bc : Bool) : Option Nat :=
  s.checkTDWith sh d n spaces bc (s.prismsOf sh) fun t _ => (t, none)

/-- Presence of local block (r, c) of a generated object (R340). -/
def State.genPresent (s : State) (c : Ctx) (n r cc : Nat) : Except OpFault Bool := do
  let ctl := s.pat c.sh n 0
  let o := s.genOrigin c.sh c.g n
  let gr := o.1 + s.posOf c.sh c.prism * bitsOf (s.pat c.sh n 0x14) 15 0 + r
  let gc := o.2 + cc
  let win := s.pat c.sh n 4
  let strd := s.pat c.sh n 8
  let glob := s.pat c.sh n 0xC
  let work := s.pat c.sh n 0x10
  let causal := !bitOf ctl 7 || decide (gc ≤ gr)
  let w := bitOf ctl 8 && decide (gr ≤ gc + bitsOf win 15 0) && decide (gc ≤ gr + bitsOf win 31 16)
  let t := bitOf ctl 9 && decide ((((gr : Int) - gc) % (bitsOf strd 15 0 : Nat)) = (bitsOf strd 31 16 : Nat))
  let gl := bitOf ctl 10 && (decide (gc < bitsOf glob 15 0) || decide (gr < bitsOf glob 31 16))
  if !causal then .ok false
  else if w || t || gl then .ok true
  else do
    let li ← if bitOf ctl 11 then do
        let es ← s.rdSN c 9 (bitsOf work 15 0 * 128) (2 * bitsOf work 22 16)
        .ok ((List.range (bitsOf work 22 16)).any fun i => leNat ((es.drop (2 * i)).take 2) == gc)
      else .ok false
    if li then .ok true
    else if bitOf ctl 12 then do
      let lmo := bitsOf ctl 24 19
      let d := (s.sh c.sh).desc
      let m := readMO d lmo
      if m.rows ≤ gr ∨ m.cols ≤ gc then .ok false
      else do
        let b := gr * m.cols + gc
        let byte ← s.rdS c 0xA (m.bitmapAt (b2n ((s.sh c.sh).masks.get maskDefault lmo).cur) + b / 8)
        .ok (bitOf byte.toNat (b % 8))
    else .ok false

/-- Present blocks among the first n columns of a local row of a generated object. -/
def State.genCount (s : State) (c : Ctx) (n r : Nat) : Nat → Except OpFault Nat
  | 0 => .ok 0
  | k + 1 => do
    let a ← s.genCount c n r k
    let b ← s.genPresent c n r k
    .ok (a + b2n b)

/-- OFS of a generated object: present blocks in the rows before r (R341). -/
def State.genOfs (s : State) (c : Ctx) (n cols : Nat) : Nat → Except OpFault Nat
  | 0 => .ok 0
  | r + 1 => do
    let a ← s.genOfs c n cols r
    let b ← s.genCount c n r cols
    .ok (a + b)

/-- MAP of a group of a generated object. -/
def State.genMap (s : State) (c : Ctx) (n r g cols : Nat) : Nat → Except OpFault Nat
  | 0 => .ok 0
  | j + 1 => do
    let a ← s.genMap c n r g cols j
    let b ← if 8 * g + j < cols then s.genPresent c n r (8 * g + j) else .ok false
    .ok (a + b2n b * 2 ^ j)

/-- The entry behind a governed tensor, when its object is generated. -/
def State.genOf (s : State) (c : Ctx) (t : TD) : Option Nat := if t.moen then s.genEntry c.sh t.mo else none

/-- Read and check a group header; a failing one is a start-class RSVD_FIELD (R94). A generated object's header is made (R341). -/
def State.rdHdr (s : State) (c : Ctx) (t : TD) (m : MOD) (e rho g : Nat) : Except OpFault Hdr :=
  match s.genOf c t with
  | some n => do
    let map ← s.genMap c n rho g m.cols 8
    .ok ⟨map, popBits 8 map, t.fmt.code⟩
  | none => do
    let pl := t.hdrPlace m e rho g
    let w ← s.rdSNat c pl.1 pl.2 2
    let h := Hdr.ofNat w
    if t.hdrBad g h then .error { startFault c.prism c.tile with mark := .header t.num } else .ok h

/-- Present blocks of the groups before g in a global block row. -/
def State.countBefore (s : State) (c : Ctx) (t : TD) (m : MOD) (e rho : Nat) : Nat → Except OpFault Nat
  | 0 => .ok 0
  | g + 1 => do
    let n ← s.countBefore c t m e rho g
    let h ← s.rdHdr c t m e rho g
    .ok (n + h.count)

/-- OFS of a global block row (R89). -/
def State.rdOfs (s : State) (c : Ctx) (t : TD) (m : MOD) (e rho : Nat) : Except OpFault Nat :=
  match s.genOf c t with
  | some n => s.genOfs c n m.cols rho
  | none =>
    let pl := t.ofsPlace m e rho
    s.rdSNat c pl.1 pl.2 4

/-- The slot of the block at a global block row and block column, or none where it is absent (R89, R90). -/
def State.findSlot (s : State) (c : Ctx) (t : TD) (m : MOD) (e rho bc : Nat) : Except OpFault (Option Nat) := do
  let g := bc / 8
  let j := bc % 8
  let h ← s.rdHdr c t m e rho g
  if !bitOf h.map j then .ok none
  else if t.strided then .ok (some ((rho * t.groups + g) * t.slots + popBits j h.map))
  else do
    let o ← s.rdOfs c t m e rho
    let n ← s.countBefore c t m e rho g
    .ok (some (o + n + popBits j h.map))

/-- The mirror entries of a block column: block rows and slots, ascending (R122, R124). -/
def State.colEntries (s : State) (c : Ctx) (t : TD) (m : MOD) (e col : Nat) : Except OpFault (List (Nat × Nat)) :=
  match s.genOf c t with
  | some n => (List.range m.rows).foldlM (fun (acc : List (Nat × Nat)) r => do
      let b ← s.genPresent c n r col
      if b then do
        let o ← s.genOfs c n m.cols r
        let k ← s.genCount c n r col
        .ok (acc ++ [(r, o + k)])
      else .ok acc) []
  | none => do
    let a ← s.rdSNat c 0xA (m.cofsAt e + 4 * col) 4
    let b ← s.rdSNat c 0xA (m.cofsAt e + 4 * (col + 1)) 4
    (List.range (b - a)).foldlM (fun (acc : List (Nat × Nat)) i => do
      let w ← s.rdSNat c 0xA (m.mirrorAt e + 8 * (a + i)) 8
      if m.rows ≤ bitsOf w 23 0 ∨ m.cap ≤ bitsOf w 63 32 ∨ bitsOf w 31 24 ≠ 0 then
        .error { startFault c.prism c.tile with mark := .index t.mo }
      else .ok (acc ++ [(bitsOf w 23 0, bitsOf w 63 32)])) []

/-- The slot of the block at (row, column) found by a walk down its block column (R132). -/
def State.colFind (s : State) (c : Ctx) (t : TD) (m : MOD) (e row col : Nat) : Except OpFault (Option Nat) := do
  let es ← s.colEntries c t m e col
  .ok ((es.find? fun x => x.1 == row).map Prod.snd)

/-- The payload and scale addresses of a slot; a governed tensor's lie at parity × CAP (R91, R113). -/
def TD.slotAddr (t : TD) (m : MOD) (e slot : Nat) : Nat × Nat :=
  let k := (if t.moen then e * m.cap else 0) + slot
  (t.base + k * payloadBytes t.fmt t.edge, t.sbase + k * blockScaleBytes t.fmt t.edge)

/-- The place within a block of its element (r, c) (R87, R91). -/
def TD.inBlock (t : TD) (addr : Nat × Nat) (r c : Nat) (ts : Option Nat) : ELoc :=
  let line := if t.baxis then c else r
  let pos := if t.baxis then r else c
  { bit := addr.1 * 8 + (r * t.edge + c) * t.fmt.width,
    scale := if t.fmt.scaleKind = .none then none
      else some (addr.2 + (line * lineScales t.fmt t.edge + pos / t.sblk) * t.fmt.scaleBytes),
    ts := ts }

/-- The place of the element at coordinates of any tensor; none where its block is absent. -/
def State.elemLoc (s : State) (c : Ctx) (t : TD) (m : MOD) (e : Nat) (co : List Nat) : Except OpFault (Option ELoc) :=
  if !t.isBsg then .ok (some (t.denseLoc co))
  else do
    let cc := (co.getLast?).getD 0
    let r := (co[t.rank - 2]?).getD 0
    let rho := linIndex t.lead (co.take (t.rank - 2)) * t.brows + r / t.edge
    match ← s.findSlot c t m e rho (cc / t.edge) with
    | none => .ok none
    | some slot => .ok (some (t.inBlock (t.slotAddr m e slot) (r % t.edge) (cc % t.edge) (t.tsAddr co)))

/-- An element as stored: its code, block-scale code and tile-scale value. -/
structure Raw where
  code : Nat
  scale : Nat
  ts : Nat
  deriving DecidableEq, Repr

/-- Read an element's code and scales at its place. -/
def State.rdRaw (s : State) (c : Ctx) (t : TD) (l : ELoc) : Except OpFault Raw := do
  let code ← s.rdBits c t.space l.bit t.fmt.width
  let sc ← match l.scale with
    | none => .ok 0
    | some a => s.rdSNat c t.space a t.fmt.scaleBytes
  let ts ← match l.ts with
    | none => .ok 0x3C00
    | some a => s.rdSNat c t.space a 2
  .ok ⟨code, sc, ts⟩

/-- The value of a stored element (R23, R25). -/
def TD.rawVal (t : TD) (r : Raw) : Val := t.fmt.value r.code r.scale (if t.tsen then tileScaleVal r.ts else .one)

/-- The value of the element at coordinates; none where its block is absent. -/
def State.rdElem (s : State) (c : Ctx) (t : TD) (m : MOD) (e : Nat) (co : List Nat) : Except OpFault (Option Val) := do
  match ← s.elemLoc c t m e co with
  | none => .ok none
  | some l => do
    let r ← s.rdRaw c t l
    .ok (some (t.rawVal r))

/-- A reserved LT2 code was decoded (R27). -/
def TD.lt2Rsvd (t : TD) (r : Raw) : Bool := decide (t.fmt = .lt2) && r.code == 2

/-- Coordinates of every element of a shape, in order of linear index. -/
def allCoords (shape : List Nat) : List (List Nat) := (List.range (prodL shape)).map (unIndex shape)

end Sys2Proof.Machine
end

