-- ==== Sys2Proof/Machine/Lantern.lean ====
section
/-! DEFINITION. What a bundle does when it issues (chapter 08): predicates, waits, unit queues, scalar results, control flow, and the
issue itself as one shared operation over the decoded slots (R217, R227 to R246). The issue check of the units is an argument. -/

namespace Sys2Proof.Machine

/-- A predicate; p0 reads true (R238). -/
def Lantern.pred (l : Lantern) (p : BitVec 4) : Bool := p == 0 || l.p.getLsbD p.toNat

/-- A slot acts: its predicate is true, as p0 is (R216, R217). -/
def acts (l : Lantern) (sl : Slot) : Bool := l.pred sl.psel

/-- A g-register. -/
def Lantern.greg (l : Lantern) (g : GReg) : W64 := l.g[g.toNat]

/-- A WAIT is satisfied (R243). -/
def waitOk (l : Lantern) : WaitMode → Bool
  | .all g => (List.range 64).all fun i => !((l.greg g).getLsbD i) || l.tok[i]? == some 0
  | .any g => l.greg g == 0 || (List.range 64).any fun i => (l.greg g).getLsbD i && l.tok[i]? == some 0
  | .one t => l.tok[t.toNat] == 0

/-! ## Unit queues (R228) -/

/-- The unit queues an operation enters: array queues 0 to 7 by tile, Lens contexts 8 and 9, Focus 10, Stencil and mask agents 11,
Beam b at 12 + b, Jorx 28, Speckle and Umbra 29, telemetry 30. -/
def unitKeys (slot : Nat) : SlotOp → List Nat
  | .array _ a => (List.range 8).filter fun t => a.tiles.getLsbD t
  | .lens _ _ => [if slot = 5 then 8 else 9]
  | .focus _ _ => [10]
  | .mask _ => [11]
  | .beam (.copy b _ _ _ _) => [12 + b.toNat]
  | .beam (.scrub b _ _ _) => [12 + b.toNat]
  | .jorx _ => [28]
  | .spk _ => [29]
  | .tel _ => [30]
  | _ => []

/-- Entries of a unit queue (R228). -/
def queueDepth (k : Nat) : Nat :=
  if k < 8 then 8 else if k < 12 then 4 else if k < 28 then 8 else if k = 28 then 16 else if k = 29 then 4 else 8

/-- Entries held in a unit queue. -/
def queueUse (q : List QOp) (k : Nat) : Nat := (q.filter fun o => (unitKeys o.slot o.op).contains k).length

/-- Every unit queue that an acting slot feeds has room for what the bundle places in it (R227). -/
def queuesHaveRoom (q : List QOp) (ss : List Slot) : Bool :=
  let ks := ss.flatMap fun s => unitKeys s.ix s.op
  ks.all fun k => decide (queueUse q k + (ks.filter fun j => j == k).length ≤ queueDepth k)

/-- Every token that a slot names has a count below 63 (R227). -/
def tokensFree (l : Lantern) (ss : List Slot) : Bool :=
  ss.all fun s => match s.op.tok with
    | none => true
    | some t => decide (l.tok[t.toNat].toNat < 63)

/-- An entry may start: no earlier entry of the shade waits in one of its unit queues; in an array queue only an operation of the
same problem holds it back (R228, R229). -/
def blocks (a b : QOp) : Bool :=
  (unitKeys b.slot b.op).any fun k => (unitKeys a.slot a.op).contains k &&
    (match a.op, b.op with
     | .array _ x, .array _ y => x.p == y.p
     | _, _ => true)

/-- The oldest entry that satisfies `f` and that no earlier entry holds back. -/
def firstStart (f : QOp → Bool) : List QOp → List QOp → Option QOp
  | _, [] => none
  | before, o :: rest =>
    if f o && !(before.any fun b => blocks b o) then some o else firstStart f (before ++ [o]) rest

/-! ## Scalar results (R239 to R241) -/

/-- An immediate: sign-extended, or with EXT.HI above it (R239, R246). -/
def immVal (ext : Option (BitVec 32)) (imm : BitVec 32) : W64 :=
  match ext with
  | none => imm.signExtend 64
  | some hi => hi ++ imm

/-- The two-operand arithmetic of the scalar map (R239). -/
def aluVal (op : AluOp) (a b : W64) : W64 :=
  match op with
  | .add => a + b
  | .sub => a - b
  | .mul => a * b
  | .and => a &&& b
  | .or => a ||| b
  | .xor => a ^^^ b
  | .shl => a <<< (b.toNat % 64)
  | .shr => a >>> (b.toNat % 64)
  | .sar => a.sshiftRight (b.toNat % 64)
  | .minu => if a.ult b then a else b
  | .maxu => if a.ult b then b else a

/-- a COND b (R239). -/
def condVal (c : Cond) (a b : W64) : Bool :=
  match c with
  | .eq => a == b
  | .ne => a != b
  | .lts => a.slt b
  | .les => a.sle b
  | .ltu => a.ult b
  | .leu => a.ule b
  | .tst => (a &&& b) != 0
  | .ntst => (a &&& b) == 0

/-- p[PA] FN p[PB] (R239). -/
def pfnVal (f : PFn) (a b : Bool) : Bool :=
  match f with
  | .and => a && b
  | .or => a || b
  | .xor => a != b
  | .andn => a && !b

/-- The key in the descriptor file of the word RDD or DWR names, for tile t of an LD (R240). -/
def DescRef_key (d : DescRef) (t : Nat) : Nat :=
  match d with
  | .td n w => tdWord n.toNat w.toNat
  | .mo n w => moWord n.toNat w.toNat
  | .cd n w => cdWord n.toNat w.toNat
  | .layer n w => layerWord n.toNat w.toNat
  | .ld n w _ => ldWord t n.toNat w.toNat

/-- The tiles whose copy of a descriptor word is named. -/
def DescRef_tiles (d : DescRef) : List Nat :=
  match d with
  | .ld _ _ ts => (List.range 8).filter fun t => ts.getLsbD t
  | _ => [0]

/-- RDS (R241). -/
def State.rdsVal (s : State) (sh : ShadeIx) (sel : Nat) : W64 :=
  match sel with
  | 0 => BitVec.ofNat 64 (s.getR64 .safe (shInst sh) 0x120)
  | 1 => s.tb
  | 2 => BitVec.ofNat 64 sh.val
  | 3 => BitVec.ofNat 64 (s.logicalOf sh).length
  | 4 => BitVec.ofNat 64 (s.leadL sh)
  | 5 => BitVec.ofNat 64 (s.getR64 .speckle (shInst sh) 0x100)
  | 6 => BitVec.ofInt 64 (sextN 6 (s.getF .safe (shInst sh) 0x10C 5 0))
  | 7 => BitVec.ofNat 64 (s.getF .safe (shInst sh) 0x108 2 0)
  | 8 => (s.sh sh).lan.bundles
  | _ => (s.sh sh).lan.cycles

/-- The g-register result a scalar operation writes at issue, from the state before its bundle (R238, R239). -/
def State.gResult (s : State) (sh : ShadeIx) (ext : Option (BitVec 32)) (o : ScalarOp) : Option (GReg × W64) :=
  let l := (s.sh sh).lan
  match o with
  | .movi gd imm => some (gd, immVal ext imm)
  | .mov gd ga => some (gd, l.greg ga)
  | .alu op gd ga gb => some (gd, aluVal op (l.greg ga) (l.greg gb))
  | .addi gd ga imm => some (gd, l.greg ga + immVal ext imm)
  | .rdd gd d => some (gd, (s.sh sh).desc.get descDefault (DescRef_key d ((DescRef_tiles d).headD 0)))
  | .rds gd sel => some (gd, s.rdsVal sh sel.val)
  | _ => none

/-- The predicate result a scalar operation writes at issue (R239). -/
def State.pResult (s : State) (sh : ShadeIx) (ext : Option (BitVec 32)) (o : ScalarOp) : Option (BitVec 4 × Bool) :=
  let l := (s.sh sh).lan
  match o with
  | .cmp pd c ga gb => some (pd, condVal c (l.greg ga) (l.greg gb))
  | .cmpi pd c ga imm => some (pd, condVal c (l.greg ga) (immVal ext imm))
  | .plog pd f pa pb => some (pd, pfnVal f (l.pred pa) (l.pred pb))
  | _ => none

/-- Write a g-register. -/
def Lantern.setG (l : Lantern) (g : GReg) (v : W64) : Lantern := { l with g := l.g.set g.toNat v }

/-- Write a predicate; a write to p0 does not reach it (R238). -/
def Lantern.setP (l : Lantern) (p : BitVec 4) (v : Bool) : Lantern :=
  if p = 0 then l
  else { l with p := if v then l.p ||| BitVec.ofNat 16 (2 ^ p.toNat) else l.p &&& ~~~ (BitVec.ofNat 16 (2 ^ p.toNat)) }

/-- The LD entry at (tile, n) is a nest entry: KIND = 0 (R258, R259). -/
def isNest (d : FMap W64) (t n : Nat) : Bool := !bitOf (dget d (ldWord t n 0)) 0

/-- What an unlisted pass cursor reads as. -/
def curDefault (_ : Nat) : Nat := 0

/-- DWR (R240, R252, R262): the word of every prism's copy (and of every tile of TILES for an LD), and one entry of the log with the
old contents and the tiles' old cursors. An LD that is, or becomes, a nest entry has its cursor set to zero in every tile written. -/
def dwrOne (num : Nat) (isLd : Bool) (v : W64) (d : DescRef) (x : ShadeSt) (t : Nat) : ShadeSt :=
  let k := DescRef_key d t
  let desc := x.desc.set descDefault k v
  { x with
    desc := desc
    cursors := if isLd && (isNest x.desc t num || isNest desc t num) then x.cursors.set curDefault (t * 32 + num) 0 else x.cursors }

/-- The tiles a DWR writes: those of TILES for an LD; the other files have one word. -/
def dwrTiles (d : DescRef) : List Nat :=
  match d with
  | .ld _ _ _ => DescRef_tiles d
  | _ => [0]

/-- The number of the LD that a DWR writes, and whether it writes one. -/
def dwrLd (d : DescRef) : Nat × Bool :=
  match d with
  | .ld n _ _ => (n.toNat, true)
  | _ => (0, false)

def ShadeSt.dwr (x : ShadeSt) (d : DescRef) (v : W64) : ShadeSt :=
  let ts := dwrTiles d
  let n := dwrLd d
  let old : DwrLog := ⟨ts.map fun t => (DescRef_key d t, x.desc.get descDefault (DescRef_key d t)),
    if n.2 then ts.map fun t => (t * 32 + n.1, x.cursors.get curDefault (t * 32 + n.1)) else []⟩
  let x := ts.foldl (dwrOne n.1 n.2 v d) x
  { x with dwrLog := x.dwrLog ++ [old] }

/-! ## Control flow (R233 to R237) -/

/-- A taken branch ends every loop whose body does not hold its target (R234). -/
def Lantern.leaveLoops (l : Lantern) (target : Nat) : Lantern :=
  { l with loops := l.loops.map fun c =>
      if c.active && !(decide (c.start ≤ target) && decide (target ≤ c.endAddr)) then { c with active := false } else c }

/-- The active loop that ends at an address and started last. -/
def Lantern.loopAt (l : Lantern) (pc : Nat) : Option (Fin 4) :=
  (List.finRange 4).foldl (fun best i =>
    if l.loops[i].active && l.loops[i].endAddr == pc then
      match best with
      | none => some i
      | some (b : Fin 4) => if l.loops[b].stamp < l.loops[i].stamp then some i else some b
    else best) none

/-- The loop test after the bundle at `pc` (R234): the most recently started loop that ends there goes back to its body while
iterations remain; each that has none left ends, and the next is tested. At most four loops are active. -/
def Lantern.loopTest (pc : Nat) : Nat → Lantern → Lantern
  | 0, l => { l with pc := BitVec.ofNat 14 (pc + 1) }
  | n + 1, l =>
    match l.loopAt pc with
    | none => { l with pc := BitVec.ofNat 14 (pc + 1) }
    | some i =>
      let c := l.loops[i]
      if 1 < c.remaining then
        { l with loops := l.loops.set i.val { c with remaining := c.remaining - 1 }, pc := BitVec.ofNat 14 c.start }
      else Lantern.loopTest pc n { l with loops := l.loops.set i.val { c with active := false } }

/-- Fetch goes on after the bundle at `pc`. -/
def Lantern.advance (l : Lantern) (pc : Nat) : Lantern := Lantern.loopTest pc 4 l

/-- A count operand (R234, R235). -/
def Lantern.countOf (l : Lantern) : CountSrc → Nat
  | .imm n => n.toNat
  | .reg g => (l.greg g).toNat

/-- Take a branch. -/
def Lantern.branch (l : Lantern) (target : Nat) : Lantern :=
  { l.leaveLoops target with pc := BitVec.ofNat 14 target }

/-- The target of a BR. -/
def Lantern.brTarget (l : Lantern) : BrTarget → Nat
  | .abs t => t.toNat
  | .reg g => (l.greg g).toNat

/-- Where fetch goes after a bundle whose slot 0 holds `o` (none: it holds or does not act), from the Lantern as it was before the
bundle's results; `l` carries the results (R233 to R237). -/
def nextPc (before l : Lantern) (o : Option CtlOp) : Lantern :=
  let pc := before.pc.toNat
  match before.rep with
  | some n =>
    if 1 < n then { l with rep := some (n - 1) } else { (l.advance pc) with rep := none }
  | none =>
    match o with
    | some (.br t) => l.branch (before.brTarget t)
    | some (.loop lc cnt e) =>
      let n := before.countOf cnt
      if n = 0 then
        ({ l with loops := l.loops.set lc.toNat ⟨false, 0, 0, 0, 0⟩ }).branch (e.toNat + 1)
      else
        ({ l with loops := l.loops.set lc.toNat ⟨true, pc + 1, e.toNat, n, before.bundles.toNat⟩ }).advance pc
    | some (.repeat cnt) =>
      let n := before.countOf cnt
      let l := l.advance pc
      if n = 0 then l.advance l.pc.toNat else { l with rep := some n }
    | _ => l.advance pc

/-- The issue check of slot 0 (R225, R233 to R235). -/
def ctlCheck (l : Lantern) (o : CtlOp) : Option Nat :=
  match o with
  | .br (.reg g) => if 16383 < (l.greg g).toNat then some RSVD_FIELD else none
  | .loop _ c e =>
    if e.toNat ≤ l.pc.toNat ∨ 2 ^ 32 ≤ l.countOf c then some RSVD_FIELD else none
  | .repeat c => if 2 ^ 32 ≤ l.countOf c then some RSVD_FIELD else none
  | .bpl _ g _ => if (l.greg g).toNat % 128 ≠ 0 then some F_ALIGN else none
  | _ => none

/-- The issue check of slots 1 and 2 (R239, R252). -/
def State.scalarCheck (s : State) (sh : ShadeIx) (o : ScalarOp) : Option Nat :=
  let l := (s.sh sh).lan
  let poolAddr (a : Nat) : Option Nat :=
    if a % 8 ≠ 0 then some F_ALIGN
    else if (s.poolWin (s.leadP sh)).2 < a + 8 then some F_BOUND else none
  match o with
  | .ldp _ ga _ => poolAddr (l.greg ga).toNat
  | .stp ga _ _ => poolAddr (l.greg ga).toNat
  | .dwr _ _ => if 256 ≤ (s.sh sh).dwrLog.length then some RSVD_FIELD else none
  | _ => none

end Sys2Proof.Machine
end

