-- ==== Sys2Proof/Machine/SpeckleFn.lean ====
section
/-! DEFINITION. The Speckle function (R197), the bits each consumer takes (R205), and the mixing function of glints (R395). -/

namespace Sys2Proof.Machine

/-- Left rotation of a 32-bit word. -/
def rotl32 (x : W32) (n : Nat) : W32 := (x <<< n) ||| (x >>> (32 - n))

/-- The four words of a Speckle state. -/
structure Spk4 where
  x0 : W32
  x1 : W32
  x2 : W32
  x3 : W32
  deriving DecidableEq, Repr

/-- Round n of the generator (R197). -/
def spkRound (k0 k1 : W32) (n : Nat) (x : Spk4) : Spk4 :=
  let rk0 := k0 + BitVec.ofNat 32 n * 0x7C159E2B#32
  let rk1 := k1 + BitVec.ofNat 32 n * 0xC6A4A793#32
  let y0 := (x.x0 ^^^ rk0) * 0xB5AD4ECF#32
  let y1 := rotl32 x.x1 11 + y0
  let y2 := (x.x2 ^^^ rk1) * 0x68E31DA7#32
  let y3 := rotl32 x.x3 19 + y2
  ⟨y3, y0 ^^^ y1, y1, y2 ^^^ y3⟩

/-- Rounds n, n + 1, … for a count of rounds. -/
def spkRounds (k0 k1 : W32) : Nat → Nat → Spk4 → Spk4
  | 0, _, x => x
  | c + 1, n, x => spkRounds k0 k1 c (n + 1) (spkRound k0 k1 n x)

/-- The evaluation of (seed, stream, i): words w0 to w3; 4 rounds for Speckle-C4, 10 for LMA7 mode (R197, R199). -/
def speckle (gen : Bool) (seed stream i : W64) : Spk4 :=
  let k0 := seed.extractLsb' 0 32
  let k1 := seed.extractLsb' 32 32
  let x := spkRounds k0 k1 (if gen then 10 else 4) 0
    ⟨i.extractLsb' 0 32, i.extractLsb' 32 32, stream.extractLsb' 0 32, stream.extractLsb' 32 32⟩
  ⟨x.x0 + k1, x.x1 + k0, x.x2 + k1, x.x3 + k0⟩

/-- The 16-bit draw of stochastic rounding: w0[31:16] (R205). -/
def spkSR (gen : Bool) (seed stream i : W64) : Nat := (speckle gen seed stream i).x0.toNat / 2 ^ 16

/-- bits24: w0[31:8] (R205). -/
def spkBits24 (gen : Bool) (seed stream i : W64) : Nat := (speckle gen seed stream i).x0.toNat / 2 ^ 8

/-- A stream of the range reserved for the device (R204). -/
def spkReserved (stream : Nat) : Bool := decide (0x0A00000000000000 ≤ stream) && decide (stream ≤ 0x0BFFFFFFFFFFFFFF)

/-- The mixing function of glints (R395). -/
def mix64 (i v : W64) : W64 :=
  let x := (i * 0xA3B195C74E2F6D19#64) ^^^ v
  let x := x ^^^ (x >>> 29)
  let x := x * 0x7F4D2E81C6A93B57#64
  let x := x ^^^ (x >>> 32)
  let x := x * 0xA3B195C74E2F6D19#64
  x ^^^ (x >>> 29)

/-- The glint of one element write: its logical index, stored code, block-scale code and tile scale as stored (R395). -/
def glintOf (i code scale ts : Nat) : W64 :=
  mix64 (BitVec.ofNat 64 i) (BitVec.ofNat 64 (code % 2 ^ 32 + scale % 2 ^ 16 * 2 ^ 32 + ts % 2 ^ 16 * 2 ^ 48))

end Sys2Proof.Machine
end

