-- ==== Sys2Proof/Machine/Quant.lean ====
section
/-! DEFINITION. Quantising values into the blocks of a tensor and writing them (R30, R31, R34 to R43, R87, R91): one shared way for the
store pipeline, Lens and the update engine. -/

namespace Sys2Proof.Machine

/-- A source element on its way to a tensor: its coordinates in the destination view, its source value, and the 16 stochastic bits
of its logical element index. -/
structure QEl where
  co : List Nat
  v : Val
  r : Nat
  deriving DecidableEq, Repr

/-- What writing elements counts: saturation and underflow events (R43), the non-finite flag (R50), the glint (R395), elements
written. -/
structure Tally where
  sat : Nat
  unf : Nat
  nonfin : Bool
  glint : W64
  n : Nat
  deriving DecidableEq, Repr

def Tally.zero : Tally := ⟨0, 0, false, 0, 0⟩
def Tally.add (a b : Tally) : Tally := ⟨a.sat + b.sat, a.unf + b.unf, a.nonfin || b.nonfin, a.glint + b.glint, a.n + b.n⟩

/-- The code of +0 in a format: LB1 codes it as 1 (R40). -/
def Fmt.zeroCode (f : Fmt) : Nat := if f = .lb1 then 1 else 0

/-- The block-scale code of an all-+0 block (R84, R131). -/
def Fmt.zeroScale (f : Fmt) : Nat := if f.scaleKind = .e8m0 then 0x7F else 0

/-- Cut a list into runs of n elements (the last may be shorter); fuel bounds the number of runs. -/
def chunksOf {α : Type} (n : Nat) : Nat → List α → List (List α)
  | 0, _ => []
  | fuel + 1, l => if l.isEmpty then [] else l.take n :: chunksOf n fuel (l.drop n)

/-- Quantise one scale block (or one plain element) under its tile-scale code. -/
def quantEls (q : QCW) (tsOn : Bool) (ts : Nat) (els : List QEl) : QBlock :=
  quantBlock q (els.map fun e => (applyTileScale tsOn (tileScaleVal ts) e.v, e.r))

/-- What a quantised block counts; non-finite sources count even where the format saturates them (R50). -/
def QBlock.tally (b : QBlock) : Tally := ⟨countSat b, countUnf b, b.nonfinite, 0, 0⟩

/-- Write elements that the tally has not yet seen written. -/
def State.putCodes (s : State) (c : Ctx) (t : TD) (ts : Nat) (scale : Nat) :
    List (ELoc × Nat × Option Nat) → Tally → Res × Tally
  | [], y => (.ok s, y)
  | (l, code, ix) :: rest, y =>
    let r := s.wrBits c t.space l.bit t.fmt.width code
    match r.err with
    | some _ => (r, y)
    | none =>
      let y := match ix with
        | some i => { y with glint := y.glint + glintOf i code scale ts, n := y.n + 1 }
        | none => y
      r.s.putCodes c t ts scale rest y

/-- Quantise and write one scale block of a dense tensor: the elements in order along the block axis, the padding slots of a block
cut by the end of the axis as +0 (R23), and the scale (R31). -/
def State.putDenseBlock (s : State) (c : Ctx) (t : TD) (q : QCW) (ts : Nat) (els : List QEl) : Res × Tally :=
  match els with
  | [] => (.ok s, .zero)
  | e0 :: _ =>
    let b := quantEls q (q.tileScale != 0) ts els
    let ax := if t.baxis then t.rank - 2 else t.rank - 1
    let first := (e0.co[ax]?).getD 0 + els.length
    let pads := ((List.range (t.fmt.blockLen - els.length)).filter fun k => decide ((t.sizes[ax]?).getD 1 ≤ first + k)).map fun k =>
      (t.denseLoc (e0.co.mapIdx fun i x => if i = ax then first + k else x), t.fmt.zeroCode, (none : Option Nat))
    let items := (els.zip b.els).map fun (p : QEl × Enc) => (t.denseLoc p.1.co, p.2.code, some (linIndex t.sizes p.1.co))
    let out := s.putCodes c t (if q.tileScale = 0 then 0 else ts) b.scale (items ++ pads) b.tally
    match (t.denseLoc e0.co).scale with
    | none => out
    | some a => (out.1.andThen fun s => s.wrSN c t.space a (leBytes t.fmt.scaleBytes b.scale), out.2)

/-- Do a list of works in turn, adding what they count, until a fault. -/
def resTally {α : Type} (f : State → α → Res × Tally) : State → List α → Tally → Res × Tally
  | s, [], y => (.ok s, y)
  | s, x :: xs, y =>
    let r := f s x
    match r.1.err with
    | some _ => (r.1, y.add r.2)
    | none => resTally f r.1.s xs (y.add r.2)

/-- Elements of a dense rectangle as scale blocks: rows r0 … and columns c0 … of the last two dimensions under leading coordinates,
grouped along the block axis in runs of the format's block length. -/
def TD.rectBlocks (t : TD) (lead : List Nat) (r0 c0 nr nc : Nat) (el : Nat → Nat → QEl) : List (List QEl) :=
  let co (r c : Nat) : List Nat := if t.rank < 2 then [c] else lead ++ [r, c]
  let at' (r c : Nat) : QEl := { el r c with co := co r c }
  if t.baxis then
    (List.range nc).flatMap fun j => chunksOf t.sblk nr ((List.range nr).map fun i => at' (r0 + i) (c0 + j))
  else
    (List.range nr).flatMap fun i => chunksOf t.sblk nc ((List.range nc).map fun j => at' (r0 + i) (c0 + j))

/-! ## Blocks of BSG tensors (R87, R91) -/

/-- A block as stored: its element codes row by row, and its scales in order of block line. -/
structure BlkImg where
  codes : List Nat
  scales : List Nat
  deriving DecidableEq, Repr

/-- Elements of one stored scale block of an edge-B block: a short scale block has B (R87). -/
def TD.lineLen (t : TD) : Nat := if t.fmt.scaleKind = .none then 1 else min t.edge t.fmt.blockLen

/-- The scale position of element (r, c) of a block. -/
def TD.scalePos (t : TD) (r c : Nat) : Nat :=
  let line := if t.baxis then c else r
  let pos := if t.baxis then r else c
  line * lineScales t.fmt t.edge + pos / t.lineLen

/-- A block whose every element is absent or +0 (R131). -/
def TD.zeroImg (t : TD) : BlkImg :=
  ⟨List.replicate (t.edge * t.edge) t.fmt.zeroCode,
   if t.fmt.scaleKind = .none then [] else List.replicate (t.edge * lineScales t.fmt t.edge) t.fmt.zeroScale⟩

/-- Quantise a block: x answers the element at (r, c), none beyond the edge of the tensor (R84). -/
def TD.quantImg (t : TD) (q : QCW) (ts : Nat) (x : Nat → Nat → Option QEl) : BlkImg × Tally :=
  let b := t.edge
  let n := t.lineLen
  let lines : List (List (QBlock × List (Option QEl))) := (List.range b).map fun l =>
    (List.range (b / n)).map fun k =>
      let els := (List.range n).map fun i => if t.baxis then x (k * n + i) l else x l (k * n + i)
      (quantEls q (q.tileScale != 0) ts (els.filterMap id), els)
  let lineCodes : List (List Nat) := lines.map fun ks => ks.flatMap fun p =>
    (p.2.foldl (fun (a : List Nat × List Enc) e => match e with
      | none => (a.1 ++ [t.fmt.zeroCode], a.2)
      | some _ => (a.1 ++ [(a.2.headD (.plain 0)).code], a.2.tail)) ([], p.1.els)).1
  let codes := (List.range b).flatMap fun r => (List.range b).map fun c =>
    if t.baxis then ((lineCodes[c]?.getD [])[r]?).getD 0 else ((lineCodes[r]?.getD [])[c]?).getD 0
  let scales := if t.fmt.scaleKind = .none then [] else lines.flatMap fun ks => ks.map fun p => p.1.scale
  (⟨codes, scales⟩, (lines.flatMap fun ks => ks.map fun p => p.1.tally).foldl Tally.add .zero)

/-- The payload bytes of a block: each row packed by R30. -/
def TD.imgBytes (t : TD) (i : BlkImg) : List Byte :=
  leBytes (payloadBytes t.fmt t.edge) ((i.codes.foldr (fun c a => c + a * 2 ^ t.fmt.width) 0))

/-- The scale bytes of a block. -/
def TD.scaleBytesOf (t : TD) (i : BlkImg) : List Byte := i.scales.flatMap fun x => leBytes t.fmt.scaleBytes x

/-- Write a block's payload and scales. -/
def State.putImg (s : State) (c : Ctx) (t : TD) (addr : Nat × Nat) (i : BlkImg) : Res :=
  (s.wrSN c t.space addr.1 (t.imgBytes i)).andThen fun s => s.wrSN c t.space addr.2 (t.scaleBytesOf i)

/-- Cut a number into n fields of w bits, lowest first. -/
def fieldsOf (w : Nat) : Nat → Nat → List Nat
  | 0, _ => []
  | n + 1, v => v % 2 ^ w :: fieldsOf w n (v / 2 ^ w)

/-- Read a block's payload and scales. -/
def State.getImg (s : State) (c : Ctx) (t : TD) (addr : Nat × Nat) : Except OpFault BlkImg := do
  let p ← s.rdSN c t.space addr.1 (payloadBytes t.fmt t.edge)
  let n := blockScaleBytes t.fmt t.edge
  let sc ← s.rdSN c t.space addr.2 n
  .ok ⟨fieldsOf t.fmt.width (t.edge * t.edge) (leNat p),
       if t.fmt.scaleKind = .none then [] else fieldsOf (8 * t.fmt.scaleBytes) (t.edge * lineScales t.fmt t.edge) (leNat sc)⟩

/-- The code and scale of element (r, c) of a block. -/
def TD.imgAt (t : TD) (i : BlkImg) (r c : Nat) : Nat × Nat :=
  ((i.codes[r * t.edge + c]?).getD 0, (i.scales[t.scalePos r c]?).getD 0)

/-- The glint of the real elements of a block written at block row and column (R395). -/
def TD.imgGlint (t : TD) (i : BlkImg) (lead : List Nat) (br bc ts : Nat) : W64 × Nat :=
  (List.range t.edge).foldl (fun a r => (List.range t.edge).foldl (fun (a : W64 × Nat) c =>
    let rr := br * t.edge + r
    let cc := bc * t.edge + c
    if rr < t.rows ∧ cc < t.cols then
      let e := t.imgAt i r c
      (a.1 + glintOf (linIndex t.sizes (lead ++ [rr, cc])) e.1 e.2 ts, a.2 + 1)
    else a) a) (0, 0)

/-- The decoded FP32 values of a block's real elements, row by row (R44, R101). -/
def TD.imgVals (t : TD) (i : BlkImg) (br bc ts : Nat) : List Val :=
  (List.range t.edge).flatMap fun r => (List.range t.edge).filterMap fun c =>
    if br * t.edge + r < t.rows ∧ bc * t.edge + c < t.cols then
      let e := t.imgAt i r c
      some (t.fmt.value e.1 e.2 (if t.tsen then tileScaleVal ts else .one)).rnd32
    else none

/-- Reserved LT2 codes among a block's real elements (R27). -/
def TD.imgLt2 (t : TD) (i : BlkImg) : Nat := if t.fmt = .lt2 then (i.codes.filter fun c => c == 2).length else 0

/-- The FP32 sum of squares of values in order, each step rounded to nearest even: the score of a block (R101). -/
def sumSquares (vs : List Val) : Val := vs.foldl (fun a v => (a.add (v.mul v).rnd32).rnd32) .zero

end Sys2Proof.Machine
end

