-- ==== Sys2Proof/Machine/Loops.lean ====
section
/-! DEFINITION. Loop descriptors (R258 to R264): nest and pass entries, the pass control word (R58) and the Stencil control word (R101),
their issue checks (R59, R62, R71, R98, R103, R132 to R134, R145, R147, R148, R260, R266, R271), and the walk of the reduction. -/

namespace Sys2Proof.Machine

/-- The four strides of a level, in logical elements of A, B, C and the mask operand (R258). -/
structure LStride where
  a : Int
  b : Int
  c : Int
  m : Int
  deriving DecidableEq, Repr

/-- A pass control word (R58). -/
structure PCW where
  pack : Nat
  opmode : Nat
  afmt : Nat
  bfmt : Nat
  fast : Bool
  keep : Bool
  cmp : Nat
  rsvd : Nat
  deriving DecidableEq, Repr

def PCW.ofNat (w : Nat) : PCW :=
  ⟨bitsOf w 1 0, bitsOf w 4 2, bitsOf w 8 5, bitsOf w 12 9, bitOf w 13, bitOf w 14, bitsOf w 16 15, bitsOf w 31 17⟩

/-- A nest entry (R258). -/
structure Nest where
  isPass : Bool
  nlev : Nat
  klev : Nat
  mira : Bool
  mirb : Bool
  msrc : Nat
  pld : Nat
  order : List Nat
  tda : Nat
  tdb : Nat
  tdm : Nat
  pcw : PCW
  bounds : List Nat
  strides : List LStride
  rsvd : Bool
  deriving DecidableEq, Repr

/-- Read a nest entry of a tile. -/
def readNest (d : FMap W64) (t n : Nat) : Nest :=
  let k := ldWord t n 0
  let w0 := dget d k
  { isPass := bitOf w0 0, nlev := bitsOf w0 3 1, klev := bitsOf w0 6 4, mira := bitOf w0 7, mirb := bitOf w0 8,
    msrc := bitsOf w0 10 9, pld := bitsOf w0 15 11, order := (List.range 6).map fun i => bitsOf w0 (18 + 3 * i) (16 + 3 * i),
    tda := bitsOf w0 41 34, tdb := bitsOf w0 49 42, tdm := bitsOf w0 57 50, pcw := PCW.ofNat (dbits d k 95 64),
    bounds := (List.range 6).map fun l => dbits d k (119 + 24 * l) (96 + 24 * l),
    strides := (List.range 6).map fun l =>
      let f (o : Nat) : Int := sextN 32 (dbits d k (o + 31 + 128 * l) (o + 128 * l))
      ⟨f 256, f 288, f 320, f 352⟩,
    rsvd := bitsOf w0 63 58 != 0 || dbits d k 255 240 != 0 }

/-- A pass entry (R259). -/
structure PassEnt where
  isPass : Bool
  trans : Bool
  glen : Bool
  uen : Bool
  sen : Bool
  sside : Bool
  comb : Nat
  tdc : Nat
  qcw : Nat
  ulayer : Nat
  slayer : Nat
  ctiles : Nat
  croot : Nat
  scw : Nat
  oa : Nat
  ob : Nat
  oc : Nat
  om : Nat
  stream : Nat
  rsvd : Bool
  deriving DecidableEq, Repr

/-- Read a pass entry of a tile. -/
def readPass (d : FMap W64) (t n : Nat) : PassEnt :=
  let k := ldWord t n 0
  let w0 := dget d k
  { isPass := bitOf w0 0, trans := bitOf w0 1, glen := bitOf w0 2, uen := bitOf w0 3, sen := bitOf w0 4, sside := bitOf w0 5,
    comb := bitsOf w0 7 6, tdc := bitsOf w0 15 8, qcw := bitsOf w0 31 16, ulayer := bitsOf w0 39 32, slayer := bitsOf w0 47 40,
    ctiles := bitsOf w0 55 48, croot := bitsOf w0 61 56, scw := dget d (k + 1), oa := dget d (k + 2), ob := dget d (k + 3),
    oc := dget d (k + 4), om := dget d (k + 5), stream := dget d (k + 6),
    rsvd := bitsOf w0 63 62 != 0 || (List.range 9).any fun i => dget d (k + 7 + i) != 0 }

/-- A Stencil control word (R101). -/
structure SCW where
  smode : Nat
  mgate : Bool
  stage : Nat
  thresh : Nat
  rsvd : Bool
  deriving DecidableEq, Repr

def SCW.ofNat (w : Nat) : SCW :=
  ⟨bitsOf w 2 0, bitOf w 3, bitsOf w 29 16, bitsOf w 63 32, bitsOf w 15 4 != 0 || bitsOf w 31 30 != 0⟩

/-! ## Format classes (R53) -/

/-- The classes of operand pairs. -/
inductive FClassA where
  | s | h | f8 | f4 | t | b
  deriving DecidableEq, Repr

/-- The class of a plainly read operand; none for BS8 and BS8U (R54). -/
def Fmt.cls : Fmt → Option FClassA
  | .fp32 => some .s
  | .bf16 => some .h | .fp16 => some .h
  | .e4m3 => some .f8 | .e5m2 => some .f8 | .mxE4M3 => some .f8 | .mxE5M2 => some .f8 | .mxE3M2 => some .f8 | .mxE2M3 => some .f8
  | .mxint8 => some .f8
  | .e2m1 => some .f4 | .mxfp4 => some .f4
  | .lt2 => some .t
  | .lb1 => some .b
  | .bs8 => none | .bs8u => none

/-- The class of a mirror-read operand (R133). -/
def Fmt.mirCls : Fmt → Option FClassA
  | .fp32 => some .s
  | .bs8 => none | .bs8u => none
  | _ => some .h

/-- Elements of k in one chunk (R53). -/
def FClassA.chunk : FClassA → Nat
  | .s => 4 | .h => 8 | .f8 => 32 | .f4 => 32 | .t => 64 | .b => 64

/-- Products per cell and core cycle, as (products, cycles) (R53). -/
def FClassA.rate : FClassA → Nat × Nat
  | .s => (1, 4) | .h => (1, 1) | .f8 => (2, 1) | .f4 => (4, 1) | .t => (8, 1) | .b => (16, 1)

/-- Columns of a problem in a packing mode (R56). -/
def packCols (pack : Nat) : Nat := if pack = 0 then 64 else if pack = 1 then 32 else 16
/-- Problems of a packing mode (R56). -/
def packProbs (pack : Nat) : Nat := if pack = 0 then 1 else if pack = 1 then 2 else 4

/-! ## Levels, cursors and origins (R261 to R263) -/

/-- The level at a nesting position. -/
def Nest.level (x : Nest) (pos : Nat) : Nat := (x.order[pos]?).getD 0
/-- The bound of the level at a nesting position. -/
def Nest.bound (x : Nest) (pos : Nat) : Nat := (x.bounds[x.level pos]?).getD 1
/-- The strides of the level at a nesting position. -/
def Nest.stride (x : Nest) (pos : Nat) : LStride := (x.strides[x.level pos]?).getD ⟨0, 0, 0, 0⟩

/-- Combinations of the positions lo … hi − 1. -/
def Nest.combos (x : Nest) (lo hi : Nat) : Nat := prodL ((List.range (hi - lo)).map fun i => x.bound (lo + i))

/-- The index of each position lo … hi − 1 in combination n, position lo fastest. -/
def Nest.indices (x : Nest) (lo hi n : Nat) : List (Nat × Nat) :=
  ((List.range (hi - lo)).foldl (fun (a : List (Nat × Nat) × Nat) i =>
    (a.1 ++ [(lo + i, a.2 % x.bound (lo + i))], a.2 / x.bound (lo + i))) ([], n)).1

/-- The k runs of one operation: combinations of the outer reduction positions (R261). -/
def Nest.runs (x : Nest) : Nat := x.combos 1 x.klev

/-- The origin of an operand for a pass position and a k run (R263); the stride picks the operand. -/
def Nest.origin (x : Nest) (o : Nat) (sel : LStride → Int) (cursor run : Nat) : Int :=
  let add (l : List (Nat × Nat)) : Int := l.foldl (fun (a : Int) p => a + (p.2 : Int) * sel (x.stride p.1)) 0
  (o : Int) + add (x.indices x.klev x.nlev cursor) + add (x.indices 1 x.klev run)

/-- The coordinates of an origin in a view, or none where it lies outside (R263). -/
def TD.coords (t : TD) (o : Int) : Option (List Nat) :=
  if o < 0 ∨ (2 ^ 64 : Int) ≤ o then none
  else
    let co := unIndex t.sizes o.toNat
    if inShape t.sizes co then some co else none

/-- An operand of the array as it is read: its descriptor, its mask object and captured parity, and the coordinate along which k
runs (the last for plain A and mirror B) (R261). -/
structure OpView where
  t : TD
  m : MOD
  e : Nat
  mir : Bool
  kLast : Bool
  deriving DecidableEq, Repr

/-- The size of the k dimension, a missing second-last one counting as 1 (R261). -/
def OpView.kSize (v : OpView) : Nat := if v.kLast then v.t.cols else v.t.rows
/-- The size of the row (of A) or column (of B) dimension. -/
def OpView.xSize (v : OpView) : Nat := if v.kLast then v.t.rows else v.t.cols

/-- The k and row-or-column coordinates of a position. -/
def OpView.split (v : OpView) (co : List Nat) : Nat × Nat :=
  let c := (co.getLast?).getD 0
  let r := if v.t.rank < 2 then 0 else (co[v.t.rank - 2]?).getD 0
  if v.kLast then (c, r) else (r, c)

/-- The coordinates at k and row-or-column x. -/
def OpView.co (v : OpView) (lead : List Nat) (k x : Nat) : List Nat :=
  if v.t.rank < 2 then [if v.kLast then k else x]
  else if v.kLast then lead ++ [x, k] else lead ++ [k, x]

/-- The view of operand A or B of a nest, from the operation's captured descriptors and mask states. -/
def opView (q : QOp) (n : Nat) (mir isA : Bool) : OpView :=
  let t := readTD q.desc n
  ⟨t, readMO q.desc t.mo, capParity q.masks t, mir, isA != mir⟩

/-- Columns of C on which a problem's accumulators land, rows and columns in C's orientation (R263). -/
structure Rect where
  lead : List Nat
  row0 : Nat
  col0 : Nat
  /-- kept rows and columns of the accumulators -/
  nr : Nat
  nc : Nat
  deriving DecidableEq, Repr

/-- The output rectangle of a pass at a cursor, clipped at C's edges; none where C's origin lies outside C (R263). -/
def outRect (q : QOp) (t ld cursor pack : Nat) : Option Rect :=
  let x := readNest q.desc t ld
  let e := readPass q.desc t x.pld
  let c := readTD q.desc e.tdc
  let o : Int := (e.oc : Int) + (x.indices x.klev x.nlev cursor).foldl (fun (a : Int) p => a + (p.2 : Int) * (x.stride p.1).c) 0
  match c.coords o with
  | none => none
  | some co =>
    let col0 := (co.getLast?).getD 0
    let row0 := if c.rank < 2 then 0 else (co[c.rank - 2]?).getD 0
    let w := packCols pack
    if e.trans then some ⟨co.take (c.rank - 2), row0, col0, min 64 (c.cols - col0), min w (c.rows - row0)⟩
    else some ⟨co.take (c.rank - 2), row0, col0, min 64 (c.rows - row0), min w (c.cols - col0)⟩

/-! ## Issue checks -/

/-- The first of a list of checks that fails. -/
def firstCode : List (Option Nat) → Option Nat
  | [] => none
  | some c :: _ => some c
  | none :: l => firstCode l

/-- RSVD_FIELD where a condition holds. -/
def rsvdIf (b : Bool) : Option Nat := if b then some RSVD_FIELD else none

/-- A layer-table entry is valid (R145). -/
def layerValid (d : FMap W64) (l : Nat) : Bool :=
  let k := layerWord l 0
  let w0 := dget d k
  let rung := bitsOf w0 2 0
  let floor := bitsOf w0 7 5
  let ceil := bitsOf w0 10 8
  bitsOf w0 15 13 == 0 && bitsOf w0 23 20 == 0 && bitsOf w0 63 40 == 0 && bitsOf (dget d (k + 5)) 63 32 == 0
  && dget d (k + 6) == 0 && dget d (k + 7) == 0
  && decide (rung ≤ 4) && decide (floor ≤ 4) && decide (ceil ≤ 4) && decide (floor ≤ rung) && decide (rung ≤ ceil)
  && (!bitOf w0 12 || (decide (2 ≤ bitsOf w0 19 16) && decide (bitsOf w0 19 16 ≤ 12)))

/-- A layer an operation names is refused: its entry is enabled or sampled, and not valid (R145). -/
def layerBad (d : FMap W64) (l : Nat) : Bool :=
  let w0 := dget d (layerWord l 0)
  (bitOf w0 11 || bitOf w0 12) && !layerValid d l

/-- UEN of a layer-table entry: the layer is sampled (R144). -/
def layerUen (d : FMap W64) (l : Nat) : Bool := bitOf (dget d (layerWord l 0)) 12
/-- ASH_TD of a layer (R144): [343:336]. -/
def layerAsh (d : FMap W64) (l : Nat) : Nat := bitsOf (dget d (layerWord l 5)) 23 16
/-- BSH_TD of a layer: [351:344]. -/
def layerBsh (d : FMap W64) (l : Nat) : Nat := bitsOf (dget d (layerWord l 5)) 31 24

/-- The exponents a and b of a layer (R146). -/
def layerExp (d : FMap W64) (l : Nat) : Nat × Nat :=
  let p := bitsOf (dget d (layerWord l 0)) 19 16
  (p / 2, p - p / 2)

/-- A shadow descriptor breaks R147: dense BF16 of rank 3, [groups, 64, K] for side A and [groups, K, 64] for side B, where the written
tensor's last two dimensions are its strips by K, or K by its strips. -/
def shadowBad (d : FMap W64) (l td : Nat) (sideB : Bool) (written : TD) : Bool :=
  let t := readTD d td
  let e := layerExp d l
  let groups (n k : Nat) : Nat := ceilDiv (ceilDiv n 64) (2 ^ k)
  t.fmt != .bf16 || t.isBsg || t.rank != 3
    || t.sizes != (if sideB then [groups written.cols e.2, written.rows, 64] else [groups written.rows e.1, 64, written.cols])

/-- The checks of a SLAYER: its entry, and its shadow descriptor when the layer is sampled (R145, R147). -/
def State.slayerCheck (s : State) (sh : ShadeIx) (d : FMap W64) (l : Nat) (sideB : Bool) (spaces : List Nat) (written : TD) : Option Nat :=
  if layerBad d l then some RSVD_FIELD
  else if layerUen d l then
    let td := if sideB then layerBsh d l else layerAsh d l
    if shadowBad d l td sideB written then some RSVD_FIELD else s.checkTD sh d td spaces false
  else none

/-- Levels of a nest break R260. -/
def Nest.bad (x : Nest) (forStore : Bool) : Bool :=
  let used := x.order.take x.nlev
  let l0 := x.stride 0
  x.isPass || x.nlev == 0 || x.nlev == 7 || decide (x.nlev < x.klev) || (!forStore && x.klev == 0)
  || !((List.range x.nlev).all fun l => used.contains l) || ((x.order.drop x.nlev).any fun l => l != 0)
  || ((x.bounds.take x.nlev).any fun b => b == 0)
  || ((x.bounds.drop x.nlev).any fun b => b != 0)
  || ((x.strides.drop x.nlev).any fun y => y != ⟨0, 0, 0, 0⟩)
  || (decide (1 ≤ x.klev) && l0 != ⟨0, 0, 0, 0⟩)
  || ((List.range x.klev).any fun p => (x.stride p).c != 0)
  || x.msrc == 3 || (x.msrc == 0 && (x.tdm != 0 || x.strides.any fun y => y.m != 0))
  || x.rsvd

/-- The SCW and destination checks of R103 that need no rectangle; `pack` is none for SCOMP. -/
def scwBad (w : SCW) (c : TD) (pack : Option Nat) : Bool :=
  decide (5 ≤ w.smode) || w.rsvd || (w.smode == 0 && c.isBsg) || (w.smode != 0 && !c.isBsg) || (w.mgate && !c.moen)
  || (c.isBsg && !c.strided && w.smode != 1)
  || (match pack with
      | some p => c.isBsg && ((p == 2 && c.edge != 16) || (p == 1 && c.edge == 64))
      | none => false)

/-- A STRIDED store goes through the group stage (R105). -/
def stagedStore (w : SCW) (c : TD) : Bool := c.isBsg && c.strided && (decide (c.slots < 8) || w.smode == 4)

/-- Bytes of one staged candidate. -/
def stageEntry (c : TD) : Nat := payloadBytes c.fmt c.edge + blockScaleBytes c.fmt c.edge

/-- The group stage of a problem: its base (R105). -/
def stageBase (w : SCW) (c : TD) (p : Nat) : Nat := w.stage * 64 + p * (64 / c.edge) * 8 * stageEntry c

/-- A group stage leaves the tile-scratch bound (R103). -/
def State.stageBad (s : State) (sh : ShadeIx) (w : SCW) (c : TD) (p : Nat) : Bool :=
  stagedStore w c && (s.prismsOf sh).any fun pr => decide ((s.tsWin pr).2 < stageBase w c p + (64 / c.edge) * 8 * stageEntry c)

/-- The checks that every array operation's LD meets (R260, R103 and R33 for its control words, R254 for its C). -/
def State.ldCheck (s : State) (sh : ShadeIx) (d : FMap W64) (t ld : Nat) (forStore : Bool) : Option Nat :=
  let x := readNest d t ld
  let e := readPass d t x.pld
  let c := readTD d e.tdc
  let q := QCW.ofNat e.qcw
  let w := SCW.ofNat e.scw
  firstCode [
    rsvdIf (x.bad forStore), rsvdIf (!e.isPass || e.rsvd || e.sside || e.comb == 3),
    rsvdIf (e.uen && (e.trans || x.klev != 1)),
    rsvdIf (e.comb == 0 && (e.ctiles != 0 || e.croot != 0)),
    rsvdIf (x.msrc == 0 && e.om != 0),
    rsvdIf q.bad,
    rsvdIf (scwBad w c (some x.pcw.pack)),
    s.checkTD sh d e.tdc [8, 9] false]

/-- The mask operand of a nest (R264). -/
def maskOpBad (d : FMap W64) (x : Nest) (edge : Nat) : Bool :=
  if x.msrc = 0 then false
  else
    let named := readTD d (if x.msrc = 1 then x.tda else x.tdb)
    let m := readTD d x.tdm
    named.isBsg || !m.isBsg || m.rows != named.rows || m.cols != named.cols || (edge != 0 && edge != m.edge)

/-- A BSG operand's column walk that has no mirror index (R132). -/
def colWalkBad (t : TD) (kLast : Bool) : Bool := t.isBsg && !kLast && !t.strided && !t.moen

/-- Formats and shapes of MM and MMS operands (R54, R59, R62, R98, R132, R133). -/
def operandBad (d : FMap W64) (x : Nest) : Bool :=
  let a := readTD d x.tda
  let b := readTD d x.tdb
  let ca := if x.mira then a.fmt.mirCls else a.fmt.cls
  let cb := if x.mirb then b.fmt.mirCls else b.fmt.cls
  let mir := x.mira || x.mirb
  let plainBad (t : TD) (m : Bool) : Bool := mir && !m && !(t.fmt == .bf16 || t.fmt == .fp16 || t.fmt == .fp32)
  let axisBad (t : TD) (m isA : Bool) : Bool := !m && t.fmt.scaleKind != .none && (t.baxis == isA)
  ca.isNone || cb.isNone || ca != cb || plainBad a x.mira || plainBad b x.mirb
  || x.pcw.afmt != a.fmt.code || x.pcw.bfmt != b.fmt.code
  || (x.mira && !a.isBsg) || (x.mirb && !b.isBsg)
  || axisBad a x.mira true || axisBad b x.mirb false
  || (a.isBsg && b.isBsg && a.edge != b.edge)
  || colWalkBad a (!x.mira) || colWalkBad b x.mirb

/-- The block edge of the skip of a nest: that of a BSG operand, else of the mask operand; 0 for none. -/
def skipEdge (d : FMap W64) (x : Nest) : Nat :=
  let a := readTD d x.tda
  let b := readTD d x.tdb
  if a.isBsg then a.edge else if b.isBsg then b.edge else if x.msrc = 0 then 0 else (readTD d x.tdm).edge

/-- The formats DIST accepts in a mode (R70). -/
def distFmtOk (opmode : Nat) (f : Fmt) : Bool :=
  if opmode = 5 then f == .lb1
  else f == .bf16 || f == .fp16 || f == .e4m3 || f == .e5m2 || f == .fp32

/-- The k range of one run of an operand is cut (R62, R98): it must begin and end on a multiple of n or at the end of the axis. -/
def rangeBad (n k0 len size : Nat) : Bool := decide (1 < n) && (k0 % n != 0 || ((k0 + len) % n != 0 && k0 + len != size))

/-- The block length that cuts an operand's k range: its scale block, its BSG edge, or both (R62, R98, R133). -/
def OpView.cutLen (v : OpView) : Nat :=
  let l := if v.mir || v.t.fmt.scaleKind = .none then 1 else if v.t.isBsg && decide (v.t.edge < v.t.sblk) then 1 else v.t.sblk
  let b := if v.t.isBsg then v.t.edge else 1
  max l b

/-- Some k run of an operation at a pass position breaks R62 or R98. -/
def kRangesBad (q : QOp) (t ld cursor : Nat) : Bool :=
  let x := readNest q.desc t ld
  let e := readPass q.desc t x.pld
  let va := opView q x.tda x.mira true
  let vb := opView q x.tdb x.mirb false
  let one (v : OpView) (o : Int) : Bool := match v.t.coords o with
    | none => false
    | some co => rangeBad v.cutLen (v.split co).1 (x.bound 0) v.kSize
  (List.range x.runs).any fun run =>
    one va (x.origin e.oa (fun y => y.a) cursor run) || one vb (x.origin e.ob (fun y => y.b) cursor run)

/-- The rectangle-independent checks of a STORE's settings (R266, R271, R145, R147, R148). -/
def State.storeCheck (s : State) (sh : ShadeIx) (d : FMap W64) (t ld p : Nat) : Option Nat :=
  let x := readNest d t ld
  let e := readPass d t x.pld
  let c := readTD d e.tdc
  let q := QCW.ofNat e.qcw
  let w := SCW.ofNat e.scw
  let a := readTD d x.tda
  firstCode [
    rsvdIf (decide (6 ≤ c.fmt.code) && q.axis != c.baxis), rsvdIf ((q.tileScale == 0) == c.tsen), rsvdIf (q.dst != c.fmt),
    rsvdIf (e.comb != 0 && (!bitOf e.ctiles t || decide ((s.prismsOf sh).length ≤ e.croot))),
    rsvdIf (s.stageBad sh w c p),
    rsvdIf (e.uen && (layerBad d e.ulayer || x.mira || x.mirb || x.pcw.opmode != 0
      || !((a.fmt.cls).elim false fun k => k != .s))),
    (if e.sen then s.slayerCheck sh d e.slayer false [8, 9] c else none),
    rsvdIf (q.isSR && spkReserved e.stream)]

end Sys2Proof.Machine
end

