-- ==== Sys2Proof/Machine/Stop.lean ====
section
/-! DEFINITION. How a shade stops (chapters 08, 14 and 17): its units stop (R405), a machine fault is attributed and is transient or
permanent (R464, R465), a prism is fenced (R471), a rollback begins (R404 to R406), and the fault of an operation is reported. -/

namespace Sys2Proof.Machine

/-- The MEM source (R276, R281). -/
def memSrc : Nat := 0x000

/-- Every unit of the shade stops: nothing waits and nothing runs (R79, R183, R247, R304, R382). -/
def State.stopUnits (s : State) (sh : ShadeIx) : State :=
  (((s.discardQueue sh).abandonArray sh).dropRunning sh fun _ => true).modSh sh fun x => { x with open_ := [] }

/-- A rollback begins: the units stop, and the drain of R405 step 2 runs. -/
def State.startRolling (s : State) (sh : ShadeIx) (r : Rolling) : State :=
  (s.stopUnits sh).modSh sh fun x => { x with rep := { x.rep with rolling := some r, window := [], dvfs := false } }

/-- Set a REPLAY_ERR bit; the REPLAY source follows (R416, R431). -/
def State.replayErr (s : State) (sh : ShadeIx) (bit : Nat) : State :=
  (s.setErr .replay sh.val sh.val 0x118 (2 ^ bit)).raise (shadeSrc sh 4)

/-- Is there a valid replay record (R401)? -/
def ReplaySt.record (r : ReplaySt) : Option Record := if r.newest then r.slot1 else r.slot0

/-- The Lantern halts and the shade's other work is given up without a rollback. -/
def State.haltStop (s : State) (sh : ShadeIx) : State :=
  ((s.halt sh).stopUnits sh).modSh sh fun x => { x with rep := { x.rep with rolling := none, window := [], dvfs := false } }

/-- Roll back after a transient fault (R404, R406): not past REPLAY_LIMIT.MAX, nor without a record. A fault in a rollback starts it
again and counts. -/
def State.faultRollback (s : State) (sh : ShadeIx) (code : Nat) : State :=
  let r := (s.sh sh).rep
  if s.getF .replay sh.val 0x10C 3 0 ≤ r.rbCount - r.forced then (s.haltStop sh).replayErr sh 1
  else if r.record.isNone then (s.haltStop sh).replayErr sh 3
  else
    let s := s.startRolling sh ⟨0, code⟩
    if r.rolling.isSome then s.modSh sh fun x => { x with rep := { x.rep with rbCount := x.rep.rbCount + 1 } } else s

/-- HL_PRISM of a physical prism: its offset. -/
def hlPrism (p : Nat) : Nat := 0x100 + 4 * p

/-- HL_PRISM_n.STATE: 0 SERVICE, 1 SPARE, 2 FENCED (R485). -/
def State.prismState (s : State) (p : Nat) : Nat := s.getF .health 0 (hlPrism p) 1 0

/-- Faults attributed to a prism within the window of HL_PERM (R465). -/
def State.recentFaults (s : State) (p : Nat) : List Nat :=
  (s.health.faults.get (fun _ => []) p).filter fun t => decide (s.tb.toNat ≤ t + s.getF .health 0 0x200 15 0 * 1000000)

/-- A machine fault is attributed to a prism (R464): it is counted, its code is recorded and the MACHINE source is raised. -/
def State.attribute (s : State) (p code : Nat) : State :=
  let ts := s.recentFaults p ++ [s.tb.toNat]
  let s := { s with health := { s.health with faults := s.health.faults.set (fun _ => []) p ts } }
  let s := (s.setF .health 0 (hlPrism p) 19 12 code).setF .health 0 (hlPrism p) 11 8 (min 15 ts.length)
  (s.count .health 0 4 1).raise (prismSrc p 0)

/-- An attributed fault is permanent by count (R465). -/
def State.permanent (s : State) (p : Nat) : Bool := decide (s.getF .health 0 0x200 19 16 ≤ (s.recentFaults p).length)

/-- A prism is fenced (R471): its state, its FENCE source, its shade's halt, and a substitution behind at most three others (R476).
A prism already fenced stays so. -/
def State.fence (s : State) (p : Nat) : State :=
  if s.prismState p = 2 then s
  else
    let inService := s.prismState p == 0
    let s := (s.setF .health 0 (hlPrism p) 1 0 2).raise (prismSrc p 1)
    let s := if inService then { s with health := { s.health with
        subs := if s.health.subs.length < 4 then s.health.subs ++ [p] else s.health.subs
        former := s.health.former.set (fun _ => none) p (some (s.getF .health 0 (hlPrism p) 7 2, s.ownerP p)) } } else s
    match s.shadeOfPrism p with
    | none => s
    | some sh => (s.stopFault sh F_FENCED .machine ⟨15, (s.sh sh).lan.pc.toNat, p, 0⟩).modSh sh fun x =>
        { x with rep := { x.rep with rolling := none, window := [], dvfs := false } }

/-- A machine fault with no prism to attribute it to (R464): against the owner of the storage, or the device. -/
def State.machineFaultUnattributed (s : State) (sh : Option ShadeIx) (code : Nat) (src : FSrc) : State :=
  match sh with
  | none => s.raise memSrc
  | some sh => (s.recordFault sh code .machine src).faultRollback sh code

/-- A machine fault that arises in a physical prism (R464, R465). A fenced prism's are ignored (R471). -/
def State.machineFault (s : State) (p code : Nat) (src : FSrc) : State :=
  if s.prismState p = 2 then s
  else
    let s := s.attribute p code
    if s.permanent p then (s.count .health 0 5 1).fence p
    else match s.shadeOfPrism p with
      | none => if code = F_ECC_UNCORR then s.raise memSrc else s
      | some sh => (s.recordFault sh code .machine src).faultRollback sh code

/-- The words of SRAM and memory controllers that report errors (R305, R308): an uncorrectable error at a key is recorded, when none is,
and counted. The controllers of the pages it names are the block's own. -/
def State.eccRecord (s : State) (k : Nat) : State :=
  match injectPage k with
  | none => s
  | some (.memctl, i) =>
    let s := if s.bitR .memctl i 0x104 16 then s
      else ((s.orR .memctl i 0x104 65536).clrR .memctl i 0x104 131072).setR64 .memctl i 0x108 (k / 8 * 8)
    let owner := if k < hbmTop then s.hbmOwner (k / 2 ^ 30) else s.deepOwner ((k - deepBase) / 2 ^ 30)
    let s := if owner < 16 then s else s.raise memSrc
    (s.blkErr .memctl i 2).count .memctl i 6 1
  | some (kind, i) =>
    let p := (keyPlace k).1
    let space := match kind with
      | .tile => 0
      | .scratch => if (k - 2 ^ 51) % 2 ^ 23 < 0x7E0000 then 1 else 3
      | _ => 2
    let off := k / 8 * 8 % (match kind with
      | .tile => 2 ^ 20
      | .scratch => 2 ^ 23
      | _ => 2 ^ 21)
    let s := if s.bitR .scratch p 0x10C 16 then s
      else (((s.orR .scratch p 0x10C 65536).setF .scratch p 0x10C 18 17 space).setF .scratch p 0x10C 21 19 (keyPlace k).2).setR .scratch p 0x110
        off
    (((s.blkErr kind i 2).blkErr kind i 3).count .scratch p 7 1)

/-- Set a field of a page to a value when a bit of an error register is clear, then set the bit: the first of a kind is recorded. -/
def State.firstErr (s : State) (k : PageKind) (inst page off bit hi lo v : Nat) : State :=
  (if s.bitR k inst off bit then s else s.setF k inst off hi lo v).setErr k inst page off (2 ^ bit)

/-- A bit of MASK_ERR, with the mask object of the first error since all bits were clear (R140). -/
def State.maskErr (s : State) (sh : ShadeIx) (mo bit : Nat) : State :=
  (if s.getF .mask (shInst sh) 0x110 2 0 = 0 then s.setF .mask (shInst sh) 0x110 13 8 mo else s).setErr .mask (shInst sh) (s.leadP sh)
    0x110 (2 ^ bit)

/-- A bit of TS_ERR, with the region of the first error since all bits were clear; the TSTATE source follows (R335, R431). -/
def State.tsErr (s : State) (sh : ShadeIx) (bit region : Nat) : State :=
  ((if s.getF .tstate sh.val 0x118 8 0 = 0 then s.setF .tstate sh.val 0x118 15 12 region else s).setErr .tstate sh.val sh.val 0x118
    (2 ^ bit)).raise (shadeSrc sh 3)

/-- The error registers a fault marks (R94, R124, R345, R409). -/
def State.markFault (s : State) (sh : ShadeIx) (f : OpFault) : State :=
  match f.mark with
  | .none => s
  | .header td => (s.firstErr .stencil (8 * f.prism + f.tile) (8 * f.prism + f.tile) 0x104 0 15 8 td).count .stencil (8 * f.prism + f.tile) 7 1
  | .index mo => (s.maskErr sh mo 2).count .mask (s.leadP sh) 0xA 1
  | .overCap n => s.firstErr .pattern sh.val sh.val 0x300 0 7 4 n
  | .guard n => (((s.firstErr .replay sh.val sh.val 0x118 2 6 4 n).count .replay sh.val 7 1)).raise (shadeSrc sh 4)
  | .seal bit region => s.tsErr sh bit region
  | .ecc k => s.eccRecord k

/-- The walker code of an operation for XLATE_ERR (R291): 0 prism Beam, 1 bulk Beam, 2 BPL, 3 mask agent, 4 layout fetch, 5 Jorx,
6 pattern. -/
def QOp.walker (q : QOp) : Nat :=
  match q.op with
  | .beam (.copy b _ _ _ _) => if b.toNat < 8 then 0 else 1
  | .beam (.scrub b _ _ _) => if b.toNat < 8 then 0 else 1
  | .ctl _ => 2
  | .mask _ => 3
  | .jorx _ => 5
  | _ => 4

/-- The operation is gone: its token is released and its registers stop being pending (R238, R242). -/
def State.giveUp (s : State) (sh : ShadeIx) (q : QOp) : State :=
  (s.modSh sh fun x => { x with running := x.running.filter fun r => r.q.id != q.id, lan := x.lan.discard [q.op] }).tagSettle sh

/-- The operation is complete, with nothing left to release (R242). -/
def State.finishNow (s : State) (sh : ShadeIx) (q : QOp) : State := (s.tagOver sh q.id).giveUp sh q

/-- No prism: where a fault arises in HBM or the deep tier. -/
def noPrism : Nat := 63

/-- The fault of an operation is reported (R221, R222, R464): its marks and failed walk are recorded, and the shade stops. -/
def State.opFaultAs (s : State) (sh : ShadeIx) (q : QOp) (walker : Nat) (f : OpFault) : State :=
  let s := s.markFault sh f
  let s := match f.xl with
    | none => s
    | some x => s.recordXlate sh walker x
  let s := s.giveUp sh q
  let src : FSrc := ⟨q.slot, q.baddr, f.prism, f.tile⟩
  match f.cls with
  | .machine => if 52 ≤ f.prism then s.machineFaultUnattributed (some sh) f.code src else s.machineFault f.prism f.code src
  | _ => s.stopFault sh f.code f.cls src

/-- The fault of an operation, whose walks are its unit's own. -/
def State.opFault (s : State) (sh : ShadeIx) (q : QOp) (f : OpFault) : State := s.opFaultAs sh q q.walker f

end Sys2Proof.Machine
end

