-- ==== Sys2Proof/Machine/Array.lean ====
section
/-! DEFINITION. The outer-product array (chapter 02, R51 to R83; skip of chapter 03, R96 to R99; gathered passes of chapter 04, R132
to R138): issue checks, start checks, the k-blocks of a pass, promotion, and what becomes of a finished multiply. -/

namespace Sys2Proof.Machine

/-! ## Accumulators (R61, R65, R67) -/

/-- The exponent of ulp(s) of a binary32 word (R65). -/
def ulpExp (s : Nat) : Int := (max 1 (bitsOf s 30 23) : Nat) - 150

/-- The value a pair stands for: s + r × ulp(s). -/
def AccPair.val (a : AccPair) : Val := (f32 a.s.toNat).add ((f16 a.r.toNat).scale (ulpExp a.s.toNat))

/-- The pair of a binary32 word and no residual. -/
def AccPair.plain (w : Nat) : AccPair := ⟨BitVec.ofNat 32 w, 0⟩

/-- What a bank starts from (R61). -/
def accStart (opmode : Nat) : AccPair :=
  AccPair.plain (if opmode = 3 then 0x7F800000 else if opmode = 4 then 0xFF800000 else 0)

/-- Standard promotion of a chunk value (R65). -/
def AccPair.promote (a : AccPair) (c : Val) : AccPair :=
  match c with
  | .fin _ _ _ =>
    let t := a.val.add c
    let s1 := toF32 t
    match f32 s1 with
    | .fin n m e =>
      let d := (t.sub (.fin n m e)).scale (-(ulpExp s1))
      ⟨BitVec.ofNat 32 s1, BitVec.ofNat 16 (toF16 d)⟩
    | _ => AccPair.plain s1
  | c => AccPair.plain (toF32 ((f32 a.s.toNat).add c))

/-- The exponent of the leading bit of a finite non-zero value. -/
def Val.lead : Val → Int
  | .fin _ m e => (Nat.log2 m : Int) + e
  | _ => 0

/-- Discard the bits of a magnitude below 2^lo (R67). -/
def Val.truncBelow (v : Val) (lo : Int) : Val :=
  match v with
  | .fin n m e => if lo ≤ e then v else .fin n (m / 2 ^ (lo - e).toNat) lo
  | v => v

/-- Fast-path promotion (R67): a 40-bit alignment window without a sticky bit. -/
def AccPair.promoteFast (a : AccPair) (c : Val) : AccPair :=
  let s := f32 a.s.toNat
  let sum := if s.isFinite && c.isFinite && !s.isZero && !c.isZero then
      let lo := max s.lead c.lead - 39
      (s.truncBelow lo).add (c.truncBelow lo)
    else s.add c
  AccPair.plain (toF32 sum)

/-- A running minimum or maximum takes one term (R72). -/
def AccPair.combineTerm (opmode : Nat) (a : AccPair) (v : Val) : AccPair :=
  let s := f32 a.s.toNat
  AccPair.plain (toF32 (if opmode = 3 then s.minPlain v else s.maxPlain v))

/-- The term of one product position, exact (R64, R70). `raw` holds the stored codes. -/
def arrayTerm (opmode cmp : Nat) (a b : Val) (ra rb : Nat) : Val :=
  match opmode with
  | 0 => a.mul b
  | 1 => (a.sub b).abs
  | 2 => (a.sub b).mul (a.sub b)
  | 3 => (a.add b).rnd32
  | 4 => (a.add b).rnd32
  | 5 => if ra % 2 = rb % 2 then .zero else .one
  | _ =>
    let h := match cmp with
      | 0 => a.lt b
      | 1 => a.le b
      | 2 => a.eqv b
      | _ => !a.eqv b
    if h then .one else .zero

/-! ## Classes, chunks and problems -/

/-- The class of a pass (R53, R70, R133). -/
def Nest.cls (x : Nest) (d : FMap W64) : FClassA :=
  let f (n : Nat) (m : Bool) : FClassA := ((if m then (readTD d n).fmt.mirCls else (readTD d n).fmt.cls)).getD .h
  if x.mirb then f x.tdb true else f x.tda x.mira

/-- Elements of one chunk of a pass (R53, R70). -/
def Nest.chunkLen (x : Nest) (d : FMap W64) : Nat :=
  if x.pcw.opmode = 0 then (if x.mira || x.mirb then (if x.cls d = .s then 4 else 8) else (x.cls d).chunk)
  else if x.pcw.opmode = 5 then 64
  else if (readTD d x.tda).fmt = .fp32 then 4 else 8

/-! ## Issue checks (R54, R59, R62, R70, R71, R98, R132 to R134, R264) -/

/-- The tiles a mask names, ascending. -/
def tilesOf (m : BitVec 8) : List Nat := (List.range 8).filter fun t => m.getLsbD t

/-- R59 and the format rules of R54 and R70. -/
def pcwBad (d : FMap W64) (x : Nest) (o : ArrayOpc) (t p : Nat) : Bool :=
  let w := x.pcw
  let a := readTD d x.tda
  let b := readTD d x.tdb
  w.pack == 3 || w.opmode == 7 || w.rsvd != 0 || (w.fast && t != 0) || (w.fast && w.opmode != 0)
  || decide (packProbs w.pack ≤ p)
  || (match o with
      | .dist => w.opmode == 0 || a.isBsg || b.isBsg || a.fmt != b.fmt || !distFmtOk w.opmode a.fmt || x.mira || x.mirb
          || w.afmt != a.fmt.code || w.bfmt != b.fmt.code
      | _ => w.opmode != 0 || operandBad d x)

/-- R134. -/
def mmsBad (d : FMap W64) (x : Nest) (e : PassEnt) : Bool :=
  let a := readTD d x.tda
  let b := readTD d x.tdb
  let c := readTD d e.tdc
  let w := SCW.ofNat e.scw
  let h (f : Fmt) : Bool := f == .bf16 || f == .fp16
  a.isBsg || b.isBsg || !h a.fmt || !h b.fmt || x.mira || x.mirb || x.pcw.fast || x.pcw.keep
  || !c.moen || w.smode != 1 || !w.mgate || e.comb != 0 || e.uen
  || !((x.pcw.pack == 2 && c.edge == 16) || (x.pcw.pack == 1 && c.edge == 32) || (x.pcw.pack == 0 && c.edge == 64))

/-- The issue check of an array operation: the first failing rule over its tiles. -/
def State.arrayCheck (s : State) (sh : ShadeIx) (q : QOp) (o : ArrayOpc) (a : ArrayArgs) : Option Nat :=
  let d := q.desc
  let ld := a.ld.toNat
  firstCode ((tilesOf a.tiles).map fun t =>
    let x := readNest d t ld
    let e := readPass d t x.pld
    let k := t * 32 + ld
    let cur := (s.sh sh).cursors.get (fun _ => 0) k
    match o with
    | .zero => none
    | .store => firstCode [s.ldCheck sh d t ld true, s.storeCheck sh d t ld a.p.val]
    | _ => firstCode [
        s.ldCheck sh d t ld false, rsvdIf (pcwBad d x o t a.p.val),
        rsvdIf (maskOpBad d x (if (readTD d x.tda).isBsg then (readTD d x.tda).edge else (readTD d x.tdb).edge)),
        s.checkTD sh d x.tda [8] false, s.checkTD sh d x.tdb [8] false,
        (if x.msrc = 0 then none else s.checkTD sh d x.tdm [8] false),
        (match o with
         | .mms => firstCode [rsvdIf (mmsBad d x e), s.storeCheck sh d t ld a.p.val]
         | _ => none),
        rsvdIf (kRangesBad q t ld cur)])

/-! ## Start checks (R57, R60, R80, R103, R135, R263, R266, R271) -/

/-- What a start check answers: wait at issue, a fault, or go. -/
inductive Start where
  | wait
  | fault (f : OpFault)
  | go
  deriving DecidableEq, Repr

/-- The first answer that is not `go`; a fault goes before a wait. -/
def Start.both : Start → Start → Start
  | .fault f, _ => .fault f
  | _, .fault f => .fault f
  | .wait, _ => .wait
  | .go, b => b

/-- No pass of the tile is open and no bank is closed, draining or waiting (R57). -/
def TileSt.idle (t : TileSt) : Bool := t.probs.toList.all fun x => x.opened.isNone && x.closed.isEmpty && x.mms.isNone

/-- A bank that is neither open nor closed (R60). -/
def ProbSt.freeBank (x : ProbSt) : Option Bool :=
  let used (b : Bool) : Bool := x.closed.any fun c => c.bank == b
  if !used x.nextBank then some x.nextBank else if !used (!x.nextBank) then some (!x.nextBank) else none

/-- A problem's state. -/
def TileSt.prob (t : TileSt) (p : Nat) : ProbSt := (t.probs.toList[p]?).getD ProbSt.reset

/-- Change a problem. -/
def TileSt.modProb (t : TileSt) (p : Nat) (f : ProbSt → ProbSt) : TileSt :=
  if h : p < 4 then { t with probs := t.probs.set p (f t.probs[p]) } else t

/-- A BOUND fault of a start check. -/
def boundStart (p t : Nat) : OpFault := ⟨F_BOUND, .start, p, t, none, .none⟩

/-- A k run begins and ends inside the operand, whose rows or columns cover what C keeps (R261, R263). -/
def viewFits (v : OpView) (o : Int) (klen need : Nat) : Bool :=
  match v.t.coords o with
  | none => false
  | some co =>
    let kx := v.split co
    decide (kx.1 + klen ≤ v.kSize) && decide (kx.2 + need ≤ v.xSize)

/-- Kept rows and columns of the accumulators of a rectangle. -/
def Rect.kept (r : Rect) : Nat × Nat := (r.nr, r.nc)

/-- The start checks of positions of MM and DIST: BOUND (R261, R263), then the k ranges at the captured cursor (R62, R98). -/
def posCheck (q : QOp) (ld cursor pack p t : Nat) : Start :=
  let x := readNest q.desc t ld
  let e := readPass q.desc t x.pld
  let va := opView q x.tda x.mira true
  let vb := opView q x.tdb x.mirb false
  match outRect q t ld cursor pack with
  | none => .fault (boundStart p t)
  | some r =>
    let ok := (List.range x.runs).all fun run =>
      viewFits va (x.origin e.oa (fun y => y.a) cursor run) (x.bound 0) r.nr
      && viewFits vb (x.origin e.ob (fun y => y.b) cursor run) (x.bound 0) r.nc
      && (x.msrc == 0 || ((readTD q.desc x.tdm).coords (x.origin e.om (fun y => y.m) cursor run)).isSome)
    if !ok then .fault (boundStart p t)
    else if kRangesBad q t ld cursor then .fault (startFault p t)
    else .go

/-- An extent along the block axis starts and spans whole scale blocks, or ends at the edge (R266). -/
def axisFits (n start len size : Nat) : Bool := decide (n ≤ 1) || (start % n == 0 && (len % n == 0 || start + len == size))

/-- The start checks of a STORE's rectangle (R103, R263, R266): in C's orientation. -/
def rectCheck (q : QOp) (ld cursor pack p t : Nat) : Start :=
  let x := readNest q.desc t ld
  let e := readPass q.desc t x.pld
  let c := readTD q.desc e.tdc
  let w := QCW.ofNat e.qcw
  match outRect q t ld cursor pack with
  | none => .fault (boundStart p t)
  | some r =>
    let rows := if e.trans then r.nc else r.nr
    let cols := if e.trans then r.nr else r.nc
    let l := if c.fmt.scaleKind = .none then 1 else if c.isBsg then min c.edge c.sblk else c.sblk
    let ax := if c.baxis then axisFits l r.row0 rows c.rows else axisFits l r.col0 cols c.cols
    let b := c.edge
    let whole := !c.isBsg ||
      (axisFits b r.row0 rows c.rows && axisFits b r.col0 cols c.cols)
    let comp := w.tileScale != 2 || (pack == 0 && r.row0 % 64 == 0 && r.col0 % 64 == 0)
    if ax && whole && comp then .go else .fault (startFault p t)

/-- The blocks an MMS gathers in a column of its destination: the mirror entries of the captured epoch (R135). -/
def State.mmsList (s : State) (c : Ctx) (q : QOp) (td col : Nat) : Except OpFault (List Gather) := do
  let t := readTD q.desc td
  let m := readMO q.desc t.mo
  let es ← s.colEntries c t m (capParity q.masks t) col
  .ok (es.map fun x => ⟨x.1, x.2⟩)

/-- The blocks absent in the current epoch of a mask object's column (R137). -/
def State.silList (s : State) (c : Ctx) (q : QOp) (mo col : Nat) : Except OpFault (List Gather) :=
  let m := readMO q.desc mo
  let par := b2n (q.masks.get maskDefault mo).cur
  (List.range m.rows).foldlM (fun (acc : List Gather) r => do
    let b := r * m.cols + col
    let byte ← s.rdS c 0xA (m.bitmapAt par + b / 8)
    .ok (if bitOf byte.toNat (b % 8) then acc else acc ++ [⟨r, 0⟩])) []

/-- The block column and the gather list of an MMS, or the fault it meets (R135, R137, R263). -/
def State.mmsStart (s : State) (c : Ctx) (q : QOp) (ld cursor : Nat) (arm : Option SilArm) : Except OpFault (Nat × List Gather) :=
  let x := readNest q.desc c.tile ld
  let e := readPass q.desc c.tile x.pld
  let d := readTD q.desc e.tdc
  match outRect q c.tile ld cursor x.pcw.pack with
  | none => .error (boundStart c.prism c.tile)
  | some r =>
    if r.col0 % d.edge ≠ 0 ∨ ((QCW.ofNat e.qcw).tileScale = 2 ∧ d.edge ≠ 64) then .error (startFault c.prism c.tile)
    else do
      let col := r.col0 / d.edge
      let l ← match arm with
        | none => s.mmsList c q e.tdc col
        | some a => s.silList c q a.mo col
      let va := opView q x.tda false true
      let vb := opView q x.tdb false false
      let ok := (List.range x.runs).all fun run =>
        viewFits vb (x.origin e.ob (fun y => y.b) cursor run) (x.bound 0) r.nc
        && l.all fun g => viewFits va (x.origin e.oa (fun y => y.a) cursor run) (x.bound 0) (min ((g.row + 1) * d.edge) d.rows)
      if ok then .ok (col, l) else .error (boundStart c.prism c.tile)

/-- The start check of an array operation in one tile. -/
def State.arrayStartTile (s : State) (sh : ShadeIx) (q : QOp) (o : ArrayOpc) (a : ArrayArgs) (p t : Nat) : Start :=
  let tile := s.tile p t
  let pr := tile.prob a.p.val
  let ld := a.ld.toNat
  let x := readNest q.desc t ld
  let e := readPass q.desc t x.pld
  let cur := (s.sh sh).cursors.get (fun _ => 0) (t * 32 + ld)
  let rsvd : Start := .fault (startFault p t)
  if s.bitR .tile (8 * p + t) 0x108 0 || pr.mms.isSome then .wait
  else match o with
    | .store =>
      match pr.opened with
      | none => rsvd
      | some ps => if e.comb != 0 && ps.fast then rsvd
          else if (e.uen && ps.opmode != 0) then rsvd else rectCheck q ld cur tile.pack p t
    | .zero =>
      match pr.closed.getLast? with
      | none => .go
      | some c =>
        if c.draining then .wait
        else match c.store with
          | some j => if (readPass j.q.desc t (readNest j.q.desc t
              (match j.q.op with
               | .array _ y => y.ld.toNat
               | _ => 0)).pld).comb != 0 then rsvd else .go
          | none => .go
    | _ =>
      if x.pcw.keep then
        match pr.opened with
        | none => rsvd
        | some ps =>
          if ps.opmode != x.pcw.opmode || ps.afmt != x.pcw.afmt || ps.bfmt != x.pcw.bfmt || ps.fast != x.pcw.fast
            || tile.pack != x.pcw.pack then rsvd
          else posCheck q ld cur x.pcw.pack p t
      else if pr.opened.isSome then rsvd
      else if tile.pack != x.pcw.pack && !tile.idle then .wait
      else match o with
        | .mms =>
          match s.mmsStart ⟨sh, p, t, q.g⟩ q ld cur pr.arm with
          | .error f => .fault f
          | .ok _ => .go
        | _ => if pr.freeBank.isNone then .wait else posCheck q ld cur x.pcw.pack p t

/-! ## Finishing -/

/-- A job of operation id. -/
def Job.of (id : Nat) (j : Job) : Bool := j.q.id == id

/-- Operation id still holds something in a problem. -/
def ProbSt.holds (id : Nat) (x : ProbSt) : Bool :=
  let inPass (ps : Pass) : Bool := ps.jobs.any (Job.of id) || ps.store.elim false (Job.of id)
  x.opened.elim false inPass || x.closed.any inPass || x.mms.elim false fun m => Job.of id m.job

/-- Operation id still holds something in the shade's arrays or combines. -/
def State.arrayHolds (s : State) (sh : ShadeIx) (id : Nat) : Bool :=
  let x := s.sh sh
  ((s.prismsOf sh).any fun p => (List.range 8).any fun t => (s.tile p t).probs.toList.any (ProbSt.holds id))
  || (x.partials.any fun y => Job.of id y.job) || (x.prismPartials.any fun y => Job.of id y.job)
  || (x.combines.any fun y => y.ids.contains id)

/-- Release the token of an array operation once nothing of it is left. -/
def State.arrayDone (s : State) (sh : ShadeIx) (id : Nat) : State := if s.arrayHolds sh id then s else s.finish sh id []

/-! ## Starting (R60, R135, R262) -/

/-- A new pass (R60). -/
def Pass.open (bank : Bool) (x : Nest) (j : Job) : Pass :=
  { bank := bank, opmode := x.pcw.opmode, afmt := x.pcw.afmt, bfmt := x.pcw.bfmt, fast := x.pcw.fast, acc := FMap.empty, chunks := 0,
    jobs := [j], opener := j, k0 := 2 ^ 64, k1 := 0, store := none, gather := none, sil := none, draining := false }

/-- Blocks gathered in one pass (R135). -/
def gatherWidth (edge : Nat) : Nat := 64 / max edge 1

/-- An MMS opens its next pass when a bank is free; the pass closes at once under the loop descriptor's store settings (R135). -/
def ProbSt.mmsPump (edge : Nat) (x : ProbSt) (nest : Nest) : ProbSt :=
  match x.mms with
  | none => x
  | some m =>
    if m.rest.isEmpty then x
    else match x.freeBank with
      | none => x
      | some b =>
        let ps := { Pass.open b nest { m.job with kpos := 0 } with
          gather := some (m.rest.take (gatherWidth edge)), store := some m.job, sil := m.sil }
        { x with closed := x.closed ++ [ps], nextBank := !b, mms := some { m with rest := m.rest.drop (gatherWidth edge) } }

/-- The nest an operation names in a tile. -/
def QOp.nest (q : QOp) (t : Nat) : Nest :=
  match q.op with
  | .array _ a => readNest q.desc t a.ld.toNat
  | _ => readNest q.desc t 0

/-- The pass entry an operation names in a tile. -/
def QOp.passEnt (q : QOp) (t : Nat) : PassEnt := readPass q.desc t (q.nest t).pld

/-- Pump the MMS of a problem: with a bank free it opens the next pass, and once nothing is left it is over. -/
def State.mmsAdvance (s : State) (p t k : Nat) : State :=
  match ((s.tile p t).prob k).mms with
  | none => s
  | some m =>
    let c := readTD m.job.q.desc (m.job.q.passEnt t).tdc
    let nest := m.job.q.nest t
    s.modTile p t fun ti => ti.modProb k fun x =>
      let x := (x.mmsPump c.edge nest).mmsPump c.edge nest
      match x.mms with
      | some m' => if m'.rest.isEmpty && x.closed.isEmpty then { x with mms := none } else x
      | none => x

/-- An operation's effect in one tile as it starts; its start check has passed. -/
def State.arrayBeginTile (s : State) (sh : ShadeIx) (q : QOp) (o : ArrayOpc) (a : ArrayArgs) (p t : Nat) : State :=
  let ld := a.ld.toNat
  let x := readNest q.desc t ld
  let cur := (s.sh sh).cursors.get (fun _ => 0) (t * 32 + ld)
  let j : Job := ⟨q, a.p.val, cur, 0⟩
  match o with
  | .store => s.modTile p t fun ti =>
      let ti' := ti.modProb a.p.val fun y => match y.opened with
        | none => y
        | some ps => { y with opened := none, closed := y.closed ++ [{ ps with store := some j }], nextBank := !ps.bank }
      if ((ti.prob a.p.val).opened.elim false fun ps => ps.jobs.isEmpty) then { ti' with drainQ := ti'.drainQ ++ [a.p.val] } else ti'
  | .zero =>
    let done := ((s.tile p t).prob a.p.val).closed.getLast?
    let s := s.modTile p t fun ti =>
      let waiting := done.elim false fun ps => ps.jobs.isEmpty
      let ti := ti.modProb a.p.val fun y => { y with closed := y.closed.dropLast, nextBank := done.elim y.nextBank fun ps => ps.bank }
      if waiting then { ti with drainQ := (ti.drainQ.reverse.erase a.p.val).reverse } else ti
    match done with
    | none => s
    | some ps => ((ps.jobs.map fun j => j.q.id) ++ (ps.store.elim [] fun j => [j.q.id])).foldl (fun s id => s.arrayDone sh id) s
  | .mms =>
    let pr := (s.tile p t).prob a.p.val
    match s.mmsStart ⟨sh, p, t, q.g⟩ q ld cur pr.arm with
    | .error _ => s
    | .ok (col, l) =>
      (s.modTile p t fun ti => { ti with pack := x.pcw.pack }.modProb a.p.val fun y =>
        { y with arm := none, mms := some ⟨j, col, l, y.arm⟩ }).mmsAdvance p t a.p.val
  | _ => s.modTile p t fun ti =>
      { ti with pack := x.pcw.pack }.modProb a.p.val fun y =>
        match x.pcw.keep, y.opened with
        | true, some ps => { y with opened := some { ps with jobs := ps.jobs ++ [j] } }
        | _, _ => { y with opened := some (Pass.open (y.freeBank.getD false) x j) }

/-- The step after a pass position (R262): the last combination returns to all zeros. -/
def Nest.nextCursor (x : Nest) (n : Nat) : Nat := if x.combos x.klev x.nlev ≤ n + 1 then 0 else n + 1

/-- The cursors after a STORE (R262). -/
def State.advanceCursors (s : State) (sh : ShadeIx) (q : QOp) (a : ArrayArgs) : State :=
  s.modSh sh fun y => { y with cursors := (tilesOf a.tiles).foldl (fun c t =>
    let k := t * 32 + a.ld.toNat
    c.set (fun _ => 0) k ((readNest q.desc t a.ld.toNat).nextCursor (c.get (fun _ => 0) k))) y.cursors }

/-- The prisms and tiles an array operation runs on. -/
def State.arrayPlaces (s : State) (sh : ShadeIx) (a : ArrayArgs) : List (Nat × Nat) :=
  (s.prismsOf sh).flatMap fun p => (tilesOf a.tiles).map fun t => (p, t)

/-- The start check of an array operation over its tiles. -/
def State.arrayStart (s : State) (sh : ShadeIx) (q : QOp) (o : ArrayOpc) (a : ArrayArgs) : Start :=
  (s.arrayPlaces sh a).foldl (fun (r : Start) pt => r.both (s.arrayStartTile sh q o a pt.1 pt.2)) .go

/-- An array operation starts in every tile it names; one with nothing to wait for completes at once. -/
def State.arrayBegin (s : State) (sh : ShadeIx) (q : QOp) (o : ArrayOpc) (a : ArrayArgs) : State :=
  let s' := (s.arrayPlaces sh a).foldl (fun s pt => s.arrayBeginTile sh q o a pt.1 pt.2) s
  let s' := match o with
    | .store => s'.advanceCursors sh q a
    | _ => s'
  s'.arrayDone sh q.id

/-! ## The k-blocks of a pass (R96 to R99, R132, R264) -/

/-- A unit of work of a job: a k run, and where it is skipped by blocks, a k-block of it. -/
structure KUnit where
  run : Nat
  /-- first k and length, relative to the run's first k -/
  off : Nat
  len : Nat
  /-- the k-block boundaries of A and B in their own coordinates -/
  ka : Nat
  kb : Nat
  deriving DecidableEq, Repr

/-- The k coordinates of A and B at the start of a run. -/
def runK (q : QOp) (t : Nat) (cursor run : Nat) : Nat × Nat :=
  let x := q.nest t
  let e := q.passEnt t
  let va := opView q x.tda x.mira true
  let vb := opView q x.tdb x.mirb false
  let k (v : OpView) (o : Int) : Nat := ((v.t.coords o).elim (0, 0) v.split).1
  (k va (x.origin e.oa (fun y => y.a) cursor run), k vb (x.origin e.ob (fun y => y.b) cursor run))

/-- The k coordinate whose blocks the skip follows: B's where B is the sparse side, else A's. -/
def skipK (d : FMap W64) (x : Nest) (ka kb : Nat) : Nat :=
  if (readTD d x.tda).isBsg || x.msrc = 1 then ka else kb

/-- Work units of one run. -/
def unitsIn (q : QOp) (t cursor run : Nat) : Nat :=
  let x := q.nest t
  let b := skipEdge q.desc x
  if b = 0 then 1
  else
    let k := runK q t cursor run
    let k0 := skipK q.desc x k.1 k.2
    ceilDiv (k0 + x.bound 0) b - k0 / b

/-- The unit at a position of a job: position run × 2^32 + index. -/
def jobUnit (t : Nat) (j : Job) : Option KUnit :=
  let x := j.q.nest t
  let run := j.kpos / 2 ^ 32
  let i := j.kpos % 2 ^ 32
  if x.runs ≤ run then none
  else
    let b := skipEdge j.q.desc x
    let k := runK j.q t j.cursor run
    if b = 0 then some ⟨run, 0, x.bound 0, k.1, k.2⟩
    else
      let k0 := skipK j.q.desc x k.1 k.2
      let lo := max k0 ((k0 / b + i) * b)
      let hi := min (k0 + x.bound 0) ((k0 / b + i + 1) * b)
      some ⟨run, lo - k0, hi - lo, k.1 + (lo - k0), k.2 + (lo - k0)⟩

/-- The position after a unit. -/
def jobNext (t : Nat) (j : Job) : Job :=
  let run := j.kpos / 2 ^ 32
  let i := j.kpos % 2 ^ 32
  if i + 1 < unitsIn j.q t j.cursor run then { j with kpos := j.kpos + 1 } else { j with kpos := (run + 1) * 2 ^ 32 }

/-- Is a block present at the k and row-or-column coordinates of a sparse operand? Dense operands are present. -/
def State.viewPresent (s : State) (c : Ctx) (v : OpView) (lead : List Nat) (k x : Nat) : Except OpFault Bool :=
  if !v.t.isBsg then .ok true
  else do
    let co := v.co lead k x
    let cc := (co.getLast?).getD 0
    let r := (co[v.t.rank - 2]?).getD 0
    let rho := linIndex v.t.lead lead * v.t.brows + r / v.t.edge
    let bc := cc / v.t.edge
    let down := !v.kLast && !v.t.strided && v.t.moen
    let sl ← if down then s.colFind c v.t v.m v.e rho bc else s.findSlot c v.t v.m v.e rho bc
    .ok sl.isSome

/-- Some of a list is present. -/
def anyPresent (f : Nat → Except OpFault Bool) : List Nat → Except OpFault Bool
  | [] => .ok false
  | x :: xs => do
    let b ← f x
    if b then .ok true else anyPresent f xs

/-- The leading coordinates and the row-or-column coordinate of an operand's origin. -/
def viewBase (v : OpView) (o : Int) : List Nat × Nat :=
  match v.t.coords o with
  | none => ([], 0)
  | some co => (co.take (v.t.rank - 2), (v.split co).2)

/-- The presence the mask operand gives position (k, x) of the operand it stands for (R264): offsets from the named operand's origin
in its last two dimensions, added to OM's coordinates. -/
def State.maskPresent (s : State) (c : Ctx) (q : QOp) (cursor run : Nat) (v : OpView) (o : Int) (k x : Nat) : Except OpFault Bool :=
  let n := q.nest c.tile
  let e := q.passEnt c.tile
  let m := readTD q.desc n.tdm
  let mm := readMO q.desc m.mo
  match v.t.coords o, m.coords (n.origin e.om (fun y => y.m) cursor run) with
  | some co, some mo =>
    let here := v.co (co.take (v.t.rank - 2)) (k / m.edge * m.edge) (x / m.edge * m.edge)
    let base (l : List Nat) (rank i : Nat) : Int := if rank < 2 ∧ i = 1 then 0 else (((l[rank - 1 - i]?).getD 0 : Nat) : Int)
    let cc := base mo m.rank 0 + (base here v.t.rank 0 - base co v.t.rank 0)
    let r := base mo m.rank 1 + (base here v.t.rank 1 - base co v.t.rank 1)
    if cc < 0 ∨ r < 0 ∨ (m.cols : Int) ≤ cc ∨ (m.rows : Int) ≤ r then .ok false
    else do
      let rho := linIndex m.lead (mo.take (m.rank - 2)) * m.brows + r.toNat / m.edge
      let sl ← s.findSlot c m mm (capParity q.masks m) rho (cc.toNat / m.edge)
      .ok sl.isSome
  | _, _ => .ok false

/-- The accumulator rows of a pass and the row of A each reads, relative to A's row coordinate (R135, R263). -/
def passRows (edge : Nat) (nr crows : Nat) : Option (List Gather) → List (Nat × Nat)
  | none => (List.range nr).map fun r => (r, r)
  | some gs => ((List.range gs.length).flatMap fun i =>
      (List.range edge).map fun r => (i * edge + r, ((gs[i]?).elim 0 fun g => g.row) * edge + r)).filter fun x => decide (x.2 < crows)

/-- One side of a unit as read: for each row or column in use, its accumulator index and, for each k, its value and stored code where
it is present. -/
abbrev Side := List (Nat × List (Option (Val × Nat)))

/-- Read one side of a unit. `present` adds the mask operand's word. -/
def State.readSide (s : State) (c : Ctx) (v : OpView) (lead : List Nat) (k0 len : Nat) (xs : List (Nat × Nat))
    (present : Nat → Nat → Except OpFault Bool) : Except OpFault Side :=
  xs.mapM fun ax => do
    let l ← (List.range len).mapM fun i => do
      let ok ← present (k0 + i) ax.2
      if !ok then .ok none
      else match ← s.elemLoc c v.t v.m v.e (v.co lead (k0 + i) ax.2) with
        | none => .ok none
        | some l => do
          let r ← s.rdRaw c v.t l
          .ok (some (v.t.rawVal r, r.code))
    .ok (ax.1, l)

/-- A unit as the array multiplies it: the two sides, and whether the skip issues it. -/
structure UnitData where
  issued : Bool
  a : Side
  b : Side
  deriving DecidableEq, Repr

/-- Read a unit of a job: presence first (R96, R264), then the elements of an issued one. -/
def State.readUnit (s : State) (c : Ctx) (ps : Pass) (j : Job) (u : KUnit) : Except OpFault UnitData :=
  let q := j.q
  let x := q.nest c.tile
  let e := q.passEnt c.tile
  let d := readTD q.desc e.tdc
  let va := opView q x.tda x.mira true
  let vb := opView q x.tdb x.mirb false
  let oa := x.origin e.oa (fun y => y.a) j.cursor u.run
  let ob := x.origin e.ob (fun y => y.b) j.cursor u.run
  let ba := viewBase va oa
  let bb := viewBase vb ob
  match outRect q c.tile (match q.op with
      | .array _ a => a.ld.toNat
      | _ => 0) j.cursor x.pcw.pack with
  | none => .ok ⟨false, [], []⟩
  | some r => do
    let rows := (passRows d.edge r.nr d.rows ps.gather).map fun y => (y.1, ba.2 + y.2)
    let cols := (List.range r.nc).map fun i => (i, bb.2 + i)
    let pa (k y : Nat) : Except OpFault Bool := do
      let m ← if x.msrc = 1 then s.maskPresent c q j.cursor u.run va oa k y else .ok true
      if m then s.viewPresent c va ba.1 k y else .ok false
    let pb (k y : Nat) : Except OpFault Bool := do
      let m ← if x.msrc = 2 then s.maskPresent c q j.cursor u.run vb ob k y else .ok true
      if m then s.viewPresent c vb bb.1 k y else .ok false
    let ia ← anyPresent (pa u.ka) (rows.map Prod.snd)
    let ib ← anyPresent (pb u.kb) (cols.map Prod.snd)
    if !(ia && ib) then .ok ⟨false, [], []⟩
    else do
      let a ← s.readSide c va ba.1 u.ka u.len rows pa
      let b ← s.readSide c vb bb.1 u.kb u.len cols pb
      .ok ⟨true, a, b⟩

/-- Cut the k offsets of a unit into chunks (R63, R99): runs of the chunk length, cut where a tile-scale region of A or B ends. -/
def chunkCuts (n ka kb : Nat) (tsa tsb : Bool) : Nat → Nat → Nat → List (Nat × Nat)
  | 0, _, _ => []
  | fuel + 1, off, len =>
    if len ≤ off then []
    else
      let m := min n (len - off)
      let m := if tsa then min m (64 - (ka + off) % 64) else m
      let m := if tsb then min m (64 - (kb + off) % 64) else m
      (off, m) :: chunkCuts n ka kb tsa tsb fuel (off + m) len

/-- The terms of a chunk in one cell: positions where both sides are present. -/
def cellTerms (opmode cmp : Nat) (a b : List (Option (Val × Nat))) : List Val :=
  (a.zip b).filterMap fun p => match p with
    | (some x, some y) => some (arrayTerm opmode cmp x.1 y.1 x.2 y.2)
    | _ => none

/-- The chunk value (R63, R64): exact, or rounded once to 40 bits in classes H and S and the distance modes. -/
def chunkVal (round : Bool) (ts : List Val) : Val :=
  match Val.sum ts with
  | .fin n m e => if round then rndSig 40 n m 1 e else .fin n m e
  | v => v

/-- One chunk enters one accumulator. -/
def AccPair.step (opmode cmp : Nat) (fast round : Bool) (a : AccPair) (xa xb : List (Option (Val × Nat))) : AccPair :=
  let ts := cellTerms opmode cmp xa xb
  if opmode = 3 ∨ opmode = 4 then ts.foldl (AccPair.combineTerm opmode) a
  else if fast then a.promoteFast (chunkVal round ts) else a.promote (chunkVal round ts)

/-- A gated product (R46, R73): an operand is zero, or absent, and neither is infinite or NaN. -/
def gatedAt (p : Option (Val × Nat) × Option (Val × Nat)) : Bool :=
  match p with
  | (some x, some y) => x.1.isFinite && y.1.isFinite && (x.1.isZero || y.1.isZero)
  | _ => true

/-- One unit enters the bank of a pass. -/
def Pass.multiply (ps : Pass) (x : Nest) (d : FMap W64) (u : KUnit) (y : UnitData) : Pass :=
  let a := readTD d x.tda
  let b := readTD d x.tdb
  let cls := x.cls d
  let round := decide (x.pcw.opmode ≠ 5) && (x.pcw.opmode != 0 || cls == .h || cls == .s)
  let cuts := if x.pcw.opmode = 3 ∨ x.pcw.opmode = 4 then [(0, u.len)]
    else chunkCuts (x.chunkLen d) u.ka u.kb a.tsen b.tsen u.len 0 u.len
  let dflt : Nat → AccPair := fun _ => accStart ps.opmode
  let acc := y.a.foldl (fun acc ra => y.b.foldl (fun (acc : FMap AccPair) cb =>
    let k := ra.1 * 64 + cb.1
    acc.set dflt k (cuts.foldl (fun v c => v.step ps.opmode x.pcw.cmp ps.fast round ((ra.2.drop c.1).take c.2) ((cb.2.drop c.1).take c.2))
      (acc.get dflt k))) acc) ps.acc
  { ps with acc := acc, chunks := ps.chunks + (if x.pcw.opmode = 3 ∨ x.pcw.opmode = 4 then 0 else cuts.length),
            k0 := min ps.k0 u.ka, k1 := max ps.k1 (u.ka + u.len) }

/-- Products of a unit that are gated, over all cells of the problem (R73, R83). -/
def gatedIn (pack : Nat) (u : KUnit) (y : UnitData) : Nat :=
  let cells := 64 * packCols pack
  let inside := y.a.length * y.b.length
  (cells - inside) * u.len + (y.a.foldl (fun n ra => y.b.foldl (fun n cb =>
    n + ((ra.2.zip cb.2).filter gatedAt).length) n) 0)

/-- Reserved LT2 codes that a unit read (R27). -/
def lt2In (x : Nest) (d : FMap W64) (y : UnitData) : Nat :=
  let n (f : Fmt) (sd : Side) : Nat := if f = .lt2 then (sd.map fun r => (r.2.filter fun v => v.elim false fun z => z.2 == 2).length).foldl (· + ·) 0 else 0
  n (readTD d x.tda).fmt y.a + n (readTD d x.tdb).fmt y.b

/-- The pass of a problem whose multiplies come next: a closed one first, oldest first (R229). -/
def ProbSt.nextPass (x : ProbSt) : Option (Nat × Pass) :=
  match x.closed.findIdx? fun ps => !ps.jobs.isEmpty with
  | some i => (x.closed[i]?).map fun ps => (i, ps)
  | none => match x.opened with
    | some ps => if ps.jobs.isEmpty then none else some (2, ps)
    | none => none

/-- Put a pass back. -/
def ProbSt.putPass (x : ProbSt) (i : Nat) (ps : Pass) : ProbSt :=
  if i < 2 then { x with closed := x.closed.set i ps } else { x with opened := some ps }

/-- Count what one issued unit counts (R83, R110). -/
def State.countUnit (s : State) (p t : Nat) (sparse : Bool) (x : Nest) (d : FMap W64) (u : KUnit) (y : UnitData) (chunks : Nat) : State :=
  let i := 8 * p + t
  let rate := (x.cls d).rate
  let g := (s.tile p t).gated + gatedIn (s.tile p t).pack u y
  let s := (s.count .tile i 2 (if rate.2 = 1 then ceilDiv u.len rate.1 else u.len)).count .tile i 4 chunks
  let s := (s.count .tile i 3 (g / 256)).modTile p t fun ti => { ti with gated := g % 256 }
  let s := s.count .tile i 0xB (lt2In x d y)
  if sparse then (s.count .stencil i 0xA 1).count .stencil i 0xB 1 else s

/-- A pass has passed 65,536 fast chunks (R69). -/
def State.fastOver (s : State) (p t : Nat) (before after : Pass) : State :=
  if after.fast && decide (before.chunks ≤ 65536) && decide (65536 < after.chunks) then
    (s.setErr .tile (8 * p + t) (8 * p + t) 0x104 2).count .tile (8 * p + t) 0xA 1
  else s

/-- The first job of a pass is over: it leaves, and a closed pass without jobs waits for the drain port (R77). -/
def State.jobOver (s : State) (sh : ShadeIx) (p t k i : Nat) (j : Job) : State :=
  let ps := ((s.tile p t).prob k).nextPass
  match ps with
  | none => s
  | some (_, ps) =>
    let s := s.modTile p t fun ti =>
      let ti := ti.modProb k fun y => y.putPass i { ps with jobs := ps.jobs.tail }
      if i < 2 ∧ ps.jobs.tail.isEmpty then { ti with drainQ := ti.drainQ ++ [k] } else ti
    s.arrayDone sh j.q.id

/-- An armed residue injection takes effect at a promotion in cell block 0 (R74, R524): RESIDUE is recorded and the tile's fault is
raised. -/
def State.residue (s : State) (p t : Nat) (q : QOp) : State :=
  let i := 8 * p + t
  let s := (s.clrR .tile i 0x20 4).orR .tile i 0x18 16
  let s := ((if s.bitR .tile i 0x104 0 then s else s.setF .tile i 0x104 7 4 0).setErr .tile i i 0x104 1).blkErr .tile i 3
  let s := s.count .tile i 9 1
  s.machineFault p F_RESIDUE ⟨q.slot, q.baddr, p, t⟩

/-- Is a residue injection armed in a tile that promotes? -/
def State.residueNow (s : State) (p t : Nat) (before after : Pass) : Bool :=
  decide (before.chunks < after.chunks) && s.bitR .tile (8 * p + t) 0x20 2

/-- Run the units of a problem's first job until one is issued, or the job ends; fuel bounds the skipped units of one call. -/
def State.runUnits (s : State) (sh : ShadeIx) (p t k : Nat) : Nat → State
  | 0 => s
  | fuel + 1 =>
    match ((s.tile p t).prob k).nextPass with
    | none => s
    | some (i, ps) =>
      match ps.jobs with
      | [] => s
      | j :: rest =>
        match jobUnit t j with
        | none => s.jobOver sh p t k i j
        | some u =>
          let c : Ctx := ⟨sh, p, t, j.q.g⟩
          match s.readUnit c ps j u with
          | .error f => s.opFault sh j.q f
          | .ok y =>
            let x := j.q.nest t
            let j' := jobNext t j
            let sparse := skipEdge j.q.desc x != 0
            if sparse && !y.issued then
              (((s.modTile p t fun ti => ti.modProb k fun z => z.putPass i { ps with jobs := j' :: rest })).count .tile (8 * p + t) 0xD 1).runUnits
                sh p t k fuel
            else
              let ps' := ps.multiply x j.q.desc u y
              let s := s.countUnit p t sparse x j.q.desc u y (ps'.chunks - ps.chunks)
              let s := s.fastOver p t ps ps'
              if s.residueNow p t ps ps' then s.residue p t j.q else
              let s := s.modTile p t fun ti => ti.modProb k fun z => z.putPass i { ps' with jobs := j' :: rest }
              if (jobUnit t j').isNone then s.jobOver sh p t k i j' else s

/-- The problem the sequencer grants: round-robin from the one after the last granted (R535). -/
def TileSt.grant (ti : TileSt) : Option Nat :=
  ((List.range 4).map fun i => (ti.granted + 1 + i) % 4).find? fun k => (ti.prob k).nextPass.isSome

/-- KBLOCK_START (R96, R97, R534, R535): the granted problem's next k-block is multiplied into its pass. -/
def State.kblockStart (s : State) (p t : Nat) : State :=
  match s.shadeOfPrism p with
  | none => s
  | some sh =>
    match (s.tile p t).grant with
    | none => s
    | some k => (s.modTile p t fun ti => { ti with granted := k }).runUnits sh p t k (2 ^ 25)

end Sys2Proof.Machine
end

