-- ==== Sys2Proof/Machine/Store.lean ====
section
/-! DEFINITION. The store pipeline (R265 to R271), the Stencil on the store path (R101 to R108), Umbra entries and shadow copies (R146 to
R149), silhouette scores (R137, R138), and the drain of a bank (R76, R77). -/

namespace Sys2Proof.Machine

/-! ## Sampling (R146) -/

/-- The sampled offset of a group of strips: the `bits` most significant bits of the evaluation. -/
def sampOffset (gen : Bool) (seed : W64) (step layer s bits g : Nat) : Nat :=
  let stream := 0x0A00000000000000 + step % 2 ^ 40 * 512 + layer * 2 + s
  (speckle gen seed (BitVec.ofNat 64 stream) (BitVec.ofNat 64 g)).x0.toNat / 2 ^ (32 - bits)

/-- SAFE_STEP of a shade. -/
def State.safeStep (s : State) (sh : ShadeIx) : Nat := s.getR64 .safe (shInst sh) 0x120

/-- Is a strip of a layer sampled? Side false is A (row strips), true is B (column strips). -/
def State.sampled (s : State) (sh : ShadeIx) (l : Nat) (sideB : Bool) (strip : Nat) : Bool :=
  let x := s.sh sh
  let e := layerExp x.desc l
  let b := if sideB then e.2 else e.1
  strip % 2 ^ b == sampOffset x.saf.sampGen x.saf.sampSeed (s.safeStep sh) l (b2n sideB) b (strip / 2 ^ b)

/-- The shadow slot of a strip: its group. -/
def shadowSlot (d : FMap W64) (l : Nat) (sideB : Bool) (strip : Nat) : Nat :=
  let e := layerExp d l
  strip / 2 ^ (if sideB then e.2 else e.1)

/-! ## Counts of conversions (R43, R50, R156) -/

/-- Add to a maintained 32-bit field of a layer, stopping at 0xFFFF_FFFF (R156); `hi` takes the upper half of the word. -/
def addLayer (d : FMap W64) (l w : Nat) (hi : Bool) (n : Nat) : FMap W64 :=
  let k := layerWord l w
  let v := dget d k
  let f := if hi then v / 2 ^ 32 else v % 2 ^ 32
  let f := min 0xFFFFFFFF (f + n)
  d.set descDefault k (BitVec.ofNat 64 (if hi then f * 2 ^ 32 + v % 2 ^ 32 else v / 2 ^ 32 * 2 ^ 32 + f))

/-- The conversions of a writer are counted: unit u of the prism (8 for the Lens), the layer of SLAYER, and the non-finite flag of a
tile. -/
def State.countConv (s : State) (sh : ShadeIx) (p u : Nat) (layer : Option Nat) (tile : Bool) (y : Tally) : State :=
  let s := (s.satAdd .safe p (0x140 + 4 * u) 31 0 y.sat).satAdd .safe p (0x180 + 4 * u) 31 0 y.unf
  let s := match layer with
    | none => s
    | some l => s.modSh sh fun x => { x with desc := addLayer (addLayer x.desc l 3 true y.sat) l 4 false y.unf }
  if tile && y.nonfin then s.orR .safe (shInst sh) 0x104 1 else s

/-! ## Drained values and their places -/

/-- What a STORE drains into C: its captured operation, its settings and the values at accumulator (row, column). -/
structure Drained where
  q : QOp
  e : PassEnt
  rect : Rect
  /-- value at C's (row, column) within the rectangle -/
  acc : FMap AccPair
  opmode : Nat
  k0 : Nat
  k1 : Nat
  p : Nat
  deriving DecidableEq, Repr

/-- The drained value of accumulator (r, c). -/
def Drained.at (y : Drained) (r c : Nat) : Val := ((y.acc.get (fun _ => accStart y.opmode)) (r * 64 + c)).val

/-- Rows and columns of the rectangle in C's orientation. -/
def Drained.rows (y : Drained) : Nat := if y.e.trans then y.rect.nc else y.rect.nr
def Drained.cols (y : Drained) : Nat := if y.e.trans then y.rect.nr else y.rect.nc

/-- The value at C position (row0 + r, col0 + c). -/
def Drained.cAt (y : Drained) (r c : Nat) : Val := if y.e.trans then y.at c r else y.at r c

/-- The destination. -/
def Drained.td (y : Drained) : TD := readTD y.q.desc y.e.tdc
def Drained.qcw (y : Drained) : QCW := QCW.ofNat y.e.qcw

/-- The SR bits of an element of C (R37). -/
def Drained.sr (y : Drained) (i : Nat) : Nat :=
  if y.qcw.isSR then spkSR y.q.gen y.q.seed (BitVec.ofNat 64 y.e.stream) (BitVec.ofNat 64 i) else 0

/-- An element of the rectangle on its way to C. -/
def Drained.el (y : Drained) (r c : Nat) : QEl :=
  let co := if y.td.rank < 2 then [y.rect.col0 + c] else y.rect.lead ++ [y.rect.row0 + r, y.rect.col0 + c]
  ⟨co, y.cAt r c, y.sr (linIndex y.td.sizes co)⟩

/-! ## Umbra entries and shadows (R147 to R149) -/

/-- Zero-based parts of [0, n) cut at multiples of 64 of x0 + i: (first, length). -/
def strips (x0 n : Nat) : List (Nat × Nat) :=
  (List.range (n / 64 + 2)).filterMap fun k =>
    let lo := max x0 ((x0 / 64 + k) * 64)
    let hi := min (x0 + n) ((x0 / 64 + k + 1) * 64)
    if lo < hi then some (lo - x0, hi - lo) else none

/-- Bytes of an Umbra entry (R149). -/
def umbraBytes : Nat := 16512

/-- Entries of a prism now in its Umbra queue. -/
def ShadeSt.umbraFill (x : ShadeSt) (p : Nat) : Nat := (x.saf.umbra.filter fun u => u.prism == p).length

/-- A number of free bytes. -/
def freeBytes (fresh n : Nat) : List Byte := (List.range n).map fun i => Config.freeByte (fresh + i)

/-- Put an entry into the queue of its prism, or drop it (R149). What its pool bytes then hold the spec does not say: free values. -/
def State.umbraPut (s : State) (sh : ShadeIx) (u : UmbraEntry) : State :=
  let r := s.getR .safe u.prism 0x100
  let fill := (s.sh sh).umbraFill u.prism
  if bitsOf r 23 16 ≤ fill then
    (s.setErr .safe (shInst sh) (s.leadP sh) 0x12C 1).count .safe u.prism 3 1
  else
    let s := s.wrN (poolKey u.prism (bitsOf r 15 0 * 128 + fill * umbraBytes)) (freeBytes s.fresh umbraBytes)
    { s with fresh := s.fresh + umbraBytes }.modSh sh fun x => { x with saf := { x.saf with umbra := x.saf.umbra ++ [u] } }

/-- Stage 3: the Umbra copy of each sampled region that the rectangle meets (R148). -/
def State.umbraCopy (s : State) (sh : ShadeIx) (prism : Nat) (y : Drained) : State :=
  let l := y.e.ulayer
  if !y.e.uen || !layerUen (s.sh sh).desc l then s
  else
    (strips y.rect.row0 y.rect.nr).foldl (fun s rr => (strips y.rect.col0 y.rect.nc).foldl (fun s cc =>
      if s.sampled sh l false ((y.rect.row0 + rr.1) / 64) && s.sampled sh l true ((y.rect.col0 + cc.1) / 64) then
        let ys := (List.range rr.2).flatMap fun r => (List.range cc.2).map fun c =>
          BitVec.ofNat 32 (toF32 (y.at (rr.1 + r) (cc.1 + c)))
        s.umbraPut sh ⟨prism, l, y.rect.row0 + rr.1, y.rect.col0 + cc.1, cc.2, y.k0, y.k1, (s.sh sh).nextId, ys⟩
      else s) s) s

/-- Write one BF16 value to a shadow tensor at [slot, i, j] (R147). -/
def State.shadowWrite (s : State) (c : Ctx) (t : TD) (slot i j : Nat) (v : Val) : Res :=
  if inShape t.sizes [slot, i, j] then s.wrBits c t.space (t.denseLoc [slot, i, j]).bit 16 (Layout.bf16.encode .rne true v).code
  else ⟨s, some (accFault F_BOUND c.prism c.tile)⟩

/-- Stage 4: the A shadow of the sampled row strips (R147). -/
def State.shadowCopy (s : State) (c : Ctx) (y : Drained) : Res :=
  let l := y.e.slayer
  let d := (s.sh c.sh).desc
  if !y.e.sen || !layerUen d l then .ok s
  else
    let t := readTD y.q.desc (layerAsh y.q.desc l)
    resFold (fun s r =>
      let row := y.rect.row0 + r
      if s.sampled c.sh l false (row / 64) then
        resFold (fun s cc => s.shadowWrite c t (shadowSlot d l false (row / 64)) (row % 64) (y.rect.col0 + cc) (y.cAt r cc)) s
          (List.range y.cols)
      else .ok s) s (List.range y.rows)

/-! ## Tile scales -/

/-- The largest finite magnitude of the rectangle, in FP32-free exact form (R34 step 1). -/
def Drained.amax (y : Drained) : Val :=
  (List.range y.rows).foldl (fun (a : Val) r => (List.range y.cols).foldl (fun (a : Val) c =>
    let v := (y.cAt r c).abs
    if v.isFinite && a.lt v then v else a) a) .zero

/-- The tile-scale code of an element: none, read (PROGRAM), or the computed one. -/
def State.tsCode (s : State) (c : Ctx) (t : TD) (w : QCW) (comp : Nat) (co : List Nat) : Except OpFault Nat :=
  if w.tileScale = 0 then .ok 0
  else if w.tileScale = 2 then .ok comp
  else match t.tsAddr co with
    | none => .ok 0
    | some a => s.rdSNat c t.space a 2

/-- Write the computed tile scale of the rectangle's region. -/
def State.putTs (s : State) (c : Ctx) (y : Drained) (comp : Nat) : Res :=
  if y.qcw.tileScale = 2 then
    match y.td.tsAddr (y.el 0 0).co with
    | none => .ok s
    | some a => s.wrSN c y.td.space a (leBytes 2 comp)
  else .ok s

/-- Add to a glint accumulator (R396). -/
def State.addGlint (s : State) (p t n : Nat) (g : W64) : State :=
  let k := 256 * tileKey p t + n
  { s with glints := s.glints.set (fun _ => 0) k (s.glints.get (fun _ => 0) k + g) }

/-! ## Dense stores -/

/-- Stages 6, 8 and 9 into a dense destination. -/
def State.denseStore (s : State) (c : Ctx) (y : Drained) (comp : Nat) : Res × Tally :=
  let t := y.td
  let w := y.qcw
  let blocks := t.rectBlocks y.rect.lead y.rect.row0 y.rect.col0 y.rows y.cols fun r cc => y.el (r - y.rect.row0) (cc - y.rect.col0)
  resTally (fun s b => match s.tsCode c t w comp ((b.head?).elim [] fun e => e.co) with
    | .error f => (⟨s, some f⟩, .zero)
    | .ok ts => s.putDenseBlock c t w ts b) s blocks .zero

/-! ## The Stencil (R101 to R108) -/

/-- A Stencil event of a tile. -/
def State.stencil (s : State) (c : Ctx) (ev n : Nat) : State := s.count .stencil (8 * c.prism + c.tile) ev n

/-- A bit of STENCIL_ERR. -/
def State.stencilErr (s : State) (c : Ctx) (m : Nat) : State :=
  s.setErr .stencil (8 * c.prism + c.tile) (8 * c.prism + c.tile) 0x104 m

/-- An early or late group (R105, R106). -/
def State.groupSplit (s : State) (c : Ctx) : State := (s.stencil c 6 1).stencilErr c 4

/-- x ranks before y: NaN above all, then larger; equal scores are kept in order (R102). -/
def scoreAbove (x y : Val) : Bool := if x.isNan then !y.isNan else !y.isNan && y.lt x

/-- The s members of candidates ranked first, in column order (R102). -/
def keepGroup (s : Nat) (cs : List Cand) : List Cand :=
  let rank (i : Nat) (x : Cand) : Nat := ((cs.mapIdx fun j z => (j, z)).filter fun p =>
    scoreAbove (f32 p.2.score.toNat) (f32 x.score.toNat)
    || (decide (p.1 < i) && !scoreAbove (f32 x.score.toNat) (f32 p.2.score.toNat))).length
  ((cs.mapIdx fun i x => (i, x)).filter fun p => decide (rank p.1 p.2 < s)).map Prod.snd

/-- The mode's decision on a decoded block (R101); TOPN takes every eligible block as a candidate. -/
def SCW.qualifies (w : SCW) (vs : List Val) : Bool :=
  match w.smode with
  | 2 => vs.any fun v => !v.isZero
  | 3 => vs.any fun v => v.isNan || (f32 w.thresh).le v.abs
  | _ => true

/-- The stage entry of candidate (i, j): its byte address in the tile's scratch (R105). -/
def stageAt (w : SCW) (t : TD) (p i j : Nat) : Nat := stageBase w t p + (i * 8 + j) * stageEntry t

/-- The first slot of a STRIDED group (R90). -/
def TD.groupSlot (t : TD) (rho g : Nat) : Nat := (rho * t.groups + g) * t.slots

/-- The tile-scale code stored for the region of block (br, bc). -/
def State.blockTs (s : State) (c : Ctx) (t : TD) (lead : List Nat) (br bc : Nat) : Except OpFault Nat :=
  match t.tsAddr (lead ++ [br * t.edge, bc * t.edge]) with
  | none => .ok 0
  | some a => s.rdSNat c t.space a 2

/-- Add the glint of a block that was written. -/
def State.blockGlint (s : State) (c : Ctx) (t : TD) (glen : Bool) (i : BlkImg) (lead : List Nat) (br bc ts : Nat) : State :=
  if glen then s.addGlint c.prism c.tile t.num (t.imgGlint i lead br bc ts).1 else s

/-- The leading coordinates and block row of a global block row. -/
def TD.ofRho (t : TD) (rho : Nat) : List Nat × Nat := (unIndex t.lead (rho / t.brows), rho % t.brows)

/-- Complete a group (R105): the kept candidates of a staged group are copied to their slots, then the header is written. -/
def State.closeGroup (s : State) (c : Ctx) (p : Nat) (g : OpenGroup) : Res :=
  let t := readTD g.desc g.tdc
  let w := SCW.ofNat g.scw.toNat
  let staged := stagedStore w t
  let kept := keepGroup t.slots g.cands
  let dropped := g.cands.length - kept.length
  let s := s.stencil c 3 dropped
  let s := if w.smode ≠ 4 ∧ dropped ≠ 0 then (s.stencil c 4 dropped).stencilErr c 8 else s
  let lr := t.ofRho g.rho
  let copies : Res := if !staged then .ok s else
    resFold (fun s (x : Nat × Cand) =>
      let from_ := stageAt w t p g.brow x.2.col
      let pb := payloadBytes t.fmt t.edge
      let sb := blockScaleBytes t.fmt t.edge
      let dst := t.slotAddr ⟨0, false, 0, 0, 0, 0, 0, 0, false⟩ 0 (t.groupSlot g.rho g.grp + x.1)
      match s.rdSN c 8 from_ pb, s.rdSN c 8 (from_ + pb) sb, s.blockTs c t lr.1 lr.2 (8 * g.grp + x.2.col) with
      | .ok pay, .ok scl, .ok ts =>
        let img : BlkImg := ⟨fieldsOf t.fmt.width (t.edge * t.edge) (leNat pay),
          if t.fmt.scaleKind = .none then [] else fieldsOf (8 * t.fmt.scaleBytes) (t.edge * lineScales t.fmt t.edge) (leNat scl)⟩
        (s.putImg c t dst img).andThen fun s =>
          .ok ((s.stencil c 2 1).blockGlint c t x.2.glen img lr.1 lr.2 (8 * g.grp + x.2.col) ts)
      | .error f, _, _ => ⟨s, some f⟩
      | _, .error f, _ => ⟨s, some f⟩
      | _, _, .error f => ⟨s, some f⟩) s (kept.mapIdx fun i x => (i, x))
  copies.andThen fun s =>
    let h : Hdr := ⟨kept.foldl (fun a x => a + 2 ^ x.col) 0, kept.length, t.fmt.code⟩
    s.wrSN c t.space (t.hbase + (g.rho * t.groups + g.grp) * 2) (leBytes 2 h.toNat)

/-- A group is closed before its last block column (R106). -/
def State.splitGroup (s : State) (c : Ctx) (p : Nat) (g : OpenGroup) : Res :=
  (s.closeGroup c p g).andThen fun s => .ok (s.groupSplit c)

/-- The open groups of a problem. -/
def State.groupsOf (s : State) (c : Ctx) (p : Nat) : List OpenGroup := ((s.tile c.prism c.tile).prob p).groups

/-- Replace the open groups of a problem. -/
def State.setGroups (s : State) (c : Ctx) (p : Nat) (gs : List OpenGroup) : State :=
  s.modTile c.prism c.tile fun t => t.modProb p fun x => { x with groups := gs }

/-- Close every open group of a problem that fails `keep` (R106). -/
def State.closeGroups (s : State) (c : Ctx) (p : Nat) (keep : OpenGroup → Bool) : Res :=
  let gs := s.groupsOf c p
  (resFold (fun s g => s.splitGroup c p g) s (gs.filter fun g => !keep g)).andThen fun s => .ok (s.setGroups c p (gs.filter keep))

/-- Close the open groups of a descriptor and global block row in problems other than p (R106). -/
def State.closeOthers (s : State) (c : Ctx) (p tdc rho : Nat) : Res :=
  resFold (fun s k => if k = p then .ok s else s.closeGroups c k fun g => !(g.tdc == tdc && g.rho == rho)) s (List.range 4)

/-- A decided block of a group is written: to the group stage, or to its slot (R105); a block not kept is dropped. -/
def State.takeBlock (s : State) (c : Ctx) (p : Nat) (g : OpenGroup) (bc : Nat) (keep glen : Bool) (i : BlkImg) : Res :=
  let t := readTD g.desc g.tdc
  let w := SCW.ofNat g.scw.toNat
  let lr := t.ofRho g.rho
  if !keep then .ok (s.stencil c 3 1)
  else if stagedStore w t then s.wrSN c 8 (stageAt w t p g.brow (bc % 8)) (t.imgBytes i ++ t.scaleBytesOf i)
  else
    Res.withRead s (s.blockTs c t lr.1 lr.2 bc) fun ts =>
      (s.putImg c t (t.slotAddr ⟨0, false, 0, 0, 0, 0, 0, 0, false⟩ 0 (t.groupSlot g.rho g.grp + g.cands.length)) i).andThen fun s =>
        .ok ((s.stencil c 2 1).blockGlint c t glen i lr.1 lr.2 bc ts)

/-- The group after a decided block at column j of it. -/
def OpenGroup.take (g : OpenGroup) (j : Nat) (keep glen : Bool) (score : Val) : OpenGroup :=
  { g with next := j + 1, cands := if keep then g.cands ++ [⟨j, BitVec.ofNat 32 (toF32 score), glen⟩] else g.cands }

/-- One decided block enters the group assembly of problem p (R105). -/
def State.assemble (s : State) (c : Ctx) (p tdc : Nat) (desc : FMap W64) (scw : W64) (glen : Bool) (brow rho bc : Nat) (keep : Bool)
    (i : BlkImg) (score : Val) : Res :=
  let t := readTD desc tdc
  let grp := bc / 8
  let j := bc % 8
  let old := (s.groupsOf c p).find? fun g => g.tdc == tdc && g.rho == rho && g.grp == grp
  let opened : Res := match old with
    | some _ => .ok s
    | none => (s.closeOthers c p tdc rho).andThen fun s => .ok (if j = 0 then s else s.groupSplit c)
  opened.andThen fun s =>
    let g := old.getD ⟨tdc, desc, rho, grp, j, [], scw, brow⟩
    (s.takeBlock c p g bc keep glen i).andThen fun s =>
      let g := g.take j keep glen score
      let others := (s.groupsOf c p).filter fun x => !(x.tdc == tdc && x.rho == rho && x.grp == grp)
      if bc + 1 = min (8 * grp + 8) t.bcols then
        (s.closeGroup c p g).andThen fun s => .ok (s.setGroups c p others)
      else .ok (s.setGroups c p (others ++ [g]))

/-- Is a block present in the destination's captured mask epoch? (R101, R104) -/
def State.epochBit (s : State) (c : Ctx) (t : TD) (m : MOD) (e br bc : Nat) : Except OpFault Bool :=
  match s.genOf c t with
  | some n => s.genPresent c n br bc
  | none => do
    let b := br * m.cols + bc
    let byte ← s.rdS c 0xA (m.bitmapAt e + b / 8)
    .ok (bitOf byte.toNat (b % 8))

/-- A block as the Stencil sees it: its image, its tile-scale code and what quantising it counts. -/
structure SBlock where
  br : Nat
  bc : Nat
  img : BlkImg
  ts : Nat
  y : Tally
  deriving DecidableEq, Repr

/-- The Stencil decides one block of a PACKED destination (R103, R104). `cols` are the block columns that the STORE writes. -/
def State.packedBlock (s : State) (c : Ctx) (q : QOp) (t : TD) (w : SCW) (glen : Bool) (lead : List Nat) (cols : List Nat)
    (b : SBlock) : Res :=
  let m := readMO q.desc t.mo
  let e := capParity q.masks t
  let rho := linIndex t.lead lead * t.brows + b.br
  Res.withRead s (s.rdHdr c t m e rho (b.bc / 8)) fun h =>
    let has := bitOf h.map (b.bc % 8)
    let put (s : State) : Res :=
      Res.withRead s (s.findSlot c t m e rho b.bc) fun sl => match sl with
        | none => .ok s
        | some n => (s.putImg c t (t.slotAddr m e n) b.img).andThen fun s =>
            .ok ((s.stencil c 2 1).blockGlint c t glen b.img lead b.br b.bc b.ts)
    if !w.mgate then
      if cols.any fun x => x / 8 == b.bc / 8 && !bitOf h.map (x % 8) then ⟨s, some (startFault c.prism c.tile)⟩ else put s
    else
      Res.withRead s (s.epochBit c t m e b.br b.bc) fun bit =>
        if bit && has then put s
        else
          let s := s.stencil c 3 1
          if bit != has then .ok ((s.stencil c 5 1).stencilErr c 2) else .ok s

/-- The Stencil decides one block (R101). -/
def State.bsgDecide (s : State) (c : Ctx) (p : Nat) (q : QOp) (tdc : Nat) (scw : Nat) (glen : Bool) (lead cols : List Nat) (row0 : Nat)
    (b : SBlock) : Res :=
  let t := readTD q.desc tdc
  let w := SCW.ofNat scw
  let vs := t.imgVals b.img b.br b.bc b.ts
  let s := (s.stencil c 1 1).stencil c 0xC (t.imgLt2 b.img)
  if !t.strided then s.packedBlock c q t w glen lead cols b
  else
    let m := readMO q.desc t.mo
    let rho := linIndex t.lead lead * t.brows + b.br
    Res.withRead s (if w.mgate then s.epochBit c t m (capParity q.masks t) b.br b.bc else .ok true) fun el =>
      s.assemble c p tdc q.desc (BitVec.ofNat 64 scw) glen (b.br - row0) rho b.bc (el && w.qualifies vs) b.img (sumSquares vs)

/-- Stages 6 to 9 into a BSG destination. -/
def State.bsgStore (s : State) (c : Ctx) (y : Drained) (comp : Nat) : Res × Tally :=
  let t := y.td
  let w := y.qcw
  let b := t.edge
  let br0 := y.rect.row0 / b
  let brs := (List.range (ceilDiv y.rows b)).map fun i => br0 + i
  let bcs := (List.range (ceilDiv y.cols b)).map fun i => y.rect.col0 / b + i
  let first := y.rect.col0 / b
  let continues (g : OpenGroup) : Bool := t.strided && g.tdc == y.e.tdc
    && (brs.any fun br => g.rho == linIndex t.lead y.rect.lead * t.brows + br) && first == 8 * g.grp + g.next
  let r0 := s.closeGroups c y.p continues
  match r0.err with
  | some _ => (r0, .zero)
  | none =>
    resTally (fun s (x : Nat × Nat) =>
      let at' (r cc : Nat) : Option QEl :=
        let rr := x.1 * b + r
        let c2 := x.2 * b + cc
        if y.rect.row0 ≤ rr ∧ rr < y.rect.row0 + y.rows ∧ y.rect.col0 ≤ c2 ∧ c2 < y.rect.col0 + y.cols then
          some (y.el (rr - y.rect.row0) (c2 - y.rect.col0)) else none
      match s.tsCode c t w comp (y.rect.lead ++ [x.1 * b, x.2 * b]) with
      | .error f => (⟨s, some f⟩, .zero)
      | .ok ts =>
        let i := t.quantImg w ts at'
        (s.bsgDecide c y.p y.q y.e.tdc y.e.scw y.e.glen y.rect.lead bcs br0 ⟨x.1, x.2, i.1, ts, i.2⟩, i.2)) r0.s
      (brs.flatMap fun br => bcs.map fun bc => (br, bc)) .zero

/-! ## The whole pipeline for one rectangle -/

/-- Stages 3 to 9 (R265). -/
def State.storeTail (s : State) (c : Ctx) (y : Drained) : Res :=
  let s := s.umbraCopy c.sh c.prism y
  (s.shadowCopy c y).andThen fun s =>
    let comp := if y.qcw.tileScale = 2 then computeTileScale y.td.fmt y.amax else 0
    (s.putTs c y comp).andThen fun s =>
      let out : Res × Tally := if y.td.isBsg then s.bsgStore c y comp
        else
          let r := s.closeGroups c y.p fun _ => false
          match r.err with
          | some _ => (r, .zero)
          | none => r.s.denseStore c y comp
      let s := out.1.s.countConv c.sh c.prism c.tile (if y.e.sen then some y.e.slayer else none) true out.2
      let s := if y.e.glen && !y.td.isBsg then s.addGlint c.prism c.tile y.e.tdc out.2.glint else s
      ⟨s, out.1.err⟩

/-! ## Gathered and silhouette passes (R135, R137, R138) -/

/-- The exact square root of a non-negative value, correctly rounded to FP32. -/
def Val.sqrt32 : Val → Val
  | .nan => .nan
  | .inf n => if n then .nan else .inf false
  | .fin n m e =>
    if m = 0 then .fin n 0 0
    else if n then .nan
    else
      let k := 64 + (if (e % 2 : Int) = 0 then 0 else 1)
      let big := m * 2 ^ k
      let r := Nat.sqrt big
      (Val.fin false (2 * r + (if r * r = big then 0 else 1)) ((e - (k : Nat)) / 2 - 1)).rnd32

/-- Write the blocks of a gathered pass to their slots (R135). -/
def State.gatherStore (s : State) (c : Ctx) (y : Drained) (col : Nat) (gs : List Gather) : Res :=
  let t := y.td
  let w := y.qcw
  let m := readMO y.q.desc t.mo
  let e := capParity y.q.masks t
  let b := t.edge
  let item (s : State) (ig : Nat × Gather) : Res × Tally :=
    let el (r cc : Nat) : Option QEl :=
      let rr := ig.2.row * b + r
      let c2 := col * b + cc
      let co := y.rect.lead ++ [rr, c2]
      if rr < t.rows ∧ c2 < t.cols then some ⟨co, y.at (ig.1 * b + r) cc, y.sr (linIndex t.sizes co)⟩ else none
    let els := (List.range b).flatMap fun r => (List.range b).filterMap fun cc => el r cc
    let amax := els.foldl (fun (a : Val) x => if x.v.isFinite && a.lt x.v.abs then x.v.abs else a) .zero
    let comp := if w.tileScale = 2 then computeTileScale t.fmt amax else 0
    let co0 := y.rect.lead ++ [ig.2.row * b, col * b]
    match s.tsCode c t w comp co0 with
    | .error f => (⟨s, some f⟩, .zero)
    | .ok ts =>
      let i := t.quantImg w ts el
      let r0 : Res := if w.tileScale = 2 then (match t.tsAddr co0 with
          | none => .ok s
          | some a => s.wrSN c t.space a (leBytes 2 comp)) else .ok s
      (r0.andThen fun s => (s.putImg c t (t.slotAddr m e ig.2.slot) i.1).andThen fun s =>
        .ok (((s.stencil c 1 1).stencil c 2 1).blockGlint c t y.e.glen i.1 y.rect.lead ig.2.row col ts), i.2)
  let out := resTally item s (gs.mapIdx fun i g => (i, g)) .zero
  let s := out.1.s.countConv c.sh c.prism c.tile (if y.e.sen then some y.e.slayer else none) true out.2
  ⟨s, out.1.err⟩

/-- One score updated by a silhouette block (R137, R138): the new FP16 code, and whether it saturated. -/
def silScore (word : Nat) (old : Nat) (n : Val) : Enc :=
  let sh := sextN 8 (bitsOf word 15 8)
  let n := n.scale sh
  let n := if bitOf word 2 then n else n.sqrt32
  let beta := f16 (bitsOf word 31 16)
  let v := match bitsOf word 1 0 with
    | 0 => n
    | 1 => (f16 old).add n
    | _ => (beta.mul (f16 old)).add ((Val.one.sub beta).mul n)
  Layout.f16.encode .rne false v

/-- The blocks of a silhouette pass update the score plane; nothing else is written (R137). -/
def State.silStore (s : State) (c : Ctx) (y : Drained) (col : Nat) (gs : List Gather) (arm : SilArm) : Res :=
  let t := y.td
  let m := readMO y.q.desc arm.mo
  let b := m.edge
  let item (s : State) (ig : Nat × Gather) : Res × Tally :=
    let vs := (List.range b).flatMap fun r => (List.range b).filterMap fun cc =>
      if ig.2.row * b + r < t.rows ∧ col * b + cc < t.cols then some (y.at (ig.1 * b + r) cc).rnd32 else none
    let a := m.score + 2 * (ig.2.row * m.cols + col)
    match s.rdSNat c 0xA a 2 with
    | .error f => (⟨s, some f⟩, .zero)
    | .ok old =>
      let e := silScore arm.word.toNat old (sumSquares vs)
      (s.wrSN c 0xA a (leBytes 2 e.code), ⟨b2n e.sat, 0, false, 0, 0⟩)
  let out := resTally item s (gs.mapIdx fun i g => (i, g)) .zero
  ⟨out.1.s.countConv c.sh c.prism c.tile none true out.2, out.1.err⟩

/-! ## The drain (R76, R77) and combines (R268 to R271) -/

/-- The loop descriptor an array operation names. -/
def QOp.ld (q : QOp) : Nat :=
  match q.op with
  | .array _ a => a.ld.toNat
  | _ => 0

/-- The closed bank whose turn it is at the drain port: the head of the queue, unless it is draining. -/
def TileSt.drainHead (ti : TileSt) : Option (Nat × Nat × Pass) :=
  match ti.drainQ with
  | [] => none
  | k :: _ =>
    match (ti.prob k).closed.findIdx? fun ps => ps.jobs.isEmpty with
    | none => none
    | some i => ((ti.prob k).closed[i]?).map fun ps => (k, i, ps)

/-- Mark a pass as draining. -/
def State.setDraining (s : State) (p t k i : Nat) (ps : Pass) : State :=
  s.modTile p t fun ti => ti.modProb k fun x => { x with closed := x.closed.set i { ps with draining := true } }

/-- The column of the MMS that holds a problem. -/
def ProbSt.mmsCol (x : ProbSt) : Nat := x.mms.elim 0 fun m => m.col

/-- The drain of a bank goes through the store pipeline (R77, R265): the port takes the first waiting bank. -/
def State.drain (s : State) (p t : Nat) : State :=
  match s.shadeOfPrism p with
  | none => s
  | some sh =>
    let ti := s.tile p t
    match ti.drainHead with
    | none => s
    | some (k, i, ps) =>
      if ps.draining then s
      else match ps.store with
        | none => s
        | some j =>
          match outRect j.q t j.q.ld j.cursor ti.pack with
          | none => s.opFault sh j.q (boundStart p t)
          | some r =>
            let e := j.q.passEnt t
            let y : Drained := ⟨j.q, e, r, ps.acc, ps.opmode, ps.k0, ps.k1, k⟩
            let c : Ctx := ⟨sh, p, t, j.q.g⟩
            let s := s.setDraining p t k i ps
            match ps.gather with
            | some gs =>
              match ps.sil with
              | some arm =>
                let out := s.silStore c y (ti.prob k).mmsCol gs arm
                match out.err with
                | some f => out.s.opFaultAs sh j.q 3 f
                | none => out.s
              | none =>
                let out := s.gatherStore c y (ti.prob k).mmsCol gs
                match out.err with
                | some f => out.s.opFault sh j.q f
                | none => out.s
            | none =>
              if e.comb != 0 then
                s.modSh sh fun x => { x with partials := x.partials ++ [⟨p, t, j, ps.opmode, ps.acc, ps.k0, ps.k1⟩] }
              else
                let out := s.storeTail c y
                match out.err with
                | some f => out.s.opFault sh j.q f
                | none => out.s

/-- The drain of a bank ends (R76): the bank is free, the port goes to the next, and the STORE is over once its last value is
written. -/
def State.drainComplete (s : State) (p t : Nat) : State :=
  match s.shadeOfPrism p with
  | none => s
  | some sh =>
    match (s.tile p t).drainHead with
    | none => s
    | some (k, i, ps) =>
      if !ps.draining then s
      else
        let s := s.modTile p t fun ti =>
          { ti.modProb k fun x => { x with closed := x.closed.eraseIdx i } with drainQ := ti.drainQ.tail }
        let s := (s.count .tile (8 * p + t) 0xC 1).mmsAdvance p t k
        match ps.store with
        | none => s
        | some j => s.arrayDone sh j.q.id

/-- Two pairs combine (R269): a promotion, or a running minimum or maximum. -/
def AccPair.merge (opmode : Nat) (a b : AccPair) : AccPair :=
  if opmode = 3 ∨ opmode = 4 then a.combineTerm opmode (f32 b.s.toNat) else a.promote b.val

/-- A partial enters a slot's pairs, over every accumulator either lists. -/
def mergeAcc (opmode : Nat) (a b : FMap AccPair) : FMap AccPair :=
  let d : Nat → AccPair := fun _ => accStart opmode
  (b.cells.map Prod.fst ++ a.cells.map Prod.fst).eraseDups.foldl (fun (m : FMap AccPair) k =>
    m.set d k ((a.get d k).merge opmode (b.get d k))) a

/-- C's origin of a job, which names its combine (R268). -/
def Job.origin (j : Job) (t : Nat) : Nat :=
  let x := j.q.nest t
  let e := j.q.passEnt t
  ((e.oc : Int) + (x.indices x.klev x.nlev j.cursor).foldl (fun (a : Int) p => a + (p.2 : Int) * (x.stride p.1).c) 0).toNat

/-- The lowest tile of CTILES: the writer (R268). -/
def writerTile (ctiles : Nat) : Nat := ((List.range 8).find? fun t => bitOf ctiles t).getD 0

/-- A slot whose every tile has delivered, and for PRISM at the root every prism. -/
def CombineSlot.tilesDone (x : CombineSlot) : Bool := (List.range 8).all fun t => !bitOf x.ctiles t || x.gotTiles.contains t

/-- The prism at the root of a PRISM combine. -/
def State.rootPrism (s : State) (sh : ShadeIx) (croot : Nat) : Nat := ((s.prismsOf sh)[croot]?).getD (s.leadP sh)

/-- A finished combine runs stages 3 to 9 at its writer and releases every STORE that delivered (R268, R269). -/
def State.combineWrite (s : State) (sh : ShadeIx) (x : CombineSlot) : State :=
  match x.writer with
  | none => s
  | some j =>
    let t := writerTile x.ctiles
    match outRect j.q t j.q.ld j.cursor (s.tile x.prism t).pack with
    | none => s.opFault sh j.q (boundStart x.prism t)
    | some r =>
      let y : Drained := ⟨j.q, j.q.passEnt t, r, x.acc, x.opmode, x.k0, x.k1, j.p⟩
      let out := s.storeTail ⟨sh, x.prism, t, j.q.g⟩ y
      match out.err with
      | some f => out.s.opFault sh j.q f
      | none => x.ids.foldl (fun s id => s.arrayDone sh id) out.s

/-- The slots of a shade with one replaced or removed. -/
def putSlot (xs : List CombineSlot) (prism tdc origin : Nat) (y : Option CombineSlot) : List CombineSlot :=
  let same (x : CombineSlot) : Bool := x.prism == prism && x.tdc == tdc && x.origin == origin
  if xs.any same then xs.filterMap fun x => if same x then y else some x else xs ++ y.toList

/-- Slots of other prisms of a finished PRISM combine are freed with it (R270). -/
def dropCombine (xs : List CombineSlot) (tdc origin : Nat) : List CombineSlot :=
  xs.filter fun x => !(x.tdc == tdc && x.origin == origin)

/-- Once every tile has delivered, a TILE combine is written, and a PRISM one sends its prism partial towards the root (R268). -/
def State.tileSlotDone (s : State) (sh : ShadeIx) (comb : Nat) (x : CombineSlot) (j : Job) : State :=
  if !x.tilesDone then s
  else if comb = 1 then
    (s.modSh sh fun y => { y with combines := putSlot y.combines x.prism x.tdc x.origin none }).combineWrite sh x
  else s.modSh sh fun y => { y with prismPartials := y.prismPartials ++
    [⟨x.prism, writerTile x.ctiles, x.writer.getD j, x.opmode, x.acc, x.k0, x.k1⟩] }

/-- A combine slot as its first partial opens it (R268). -/
def openSlot (prism : Nat) (e : PassEnt) (o : Nat) (u : Partial) : CombineSlot :=
  ⟨prism, e.tdc, o, e.ctiles, e.croot, u.opmode, FMap.empty, FMap.empty, [], [], u.k0, u.k1, none, []⟩

/-- The combine slot of a prism for a destination and C origin. -/
def ShadeSt.slotOf (x : ShadeSt) (prism tdc o : Nat) : Option CombineSlot :=
  x.combines.find? fun y => y.prism == prism && y.tdc == tdc && y.origin == o

/-- The adder tree of a prism has a slot for a partial: its own, or fewer than 4 open (R270). -/
def ShadeSt.slotRoom (x : ShadeSt) (prism tdc o : Nat) : Bool :=
  (x.slotOf prism tdc o).isSome || decide ((x.combines.filter fun y => y.prism == prism).length < 4)

/-- The shade runs in ordered mode (R387). -/
def State.ordered (s : State) (sh : ShadeIx) : Bool := s.bitR .replay sh.val 0x100 0

/-- A tile's partial is the next its slot takes: in ordered mode the lowest tile not yet delivered (R269). -/
def State.tileTurn (s : State) (sh : ShadeIx) (got : List Nat) (ctiles t : Nat) : Bool :=
  !s.ordered sh || ((List.range 8).find? fun i => bitOf ctiles i && !got.contains i) == some t

/-- COMBINE_PARTIAL: the n-th waiting partial reaches its adder tree and is promoted (R268 to R271). -/
def State.combinePartial (s : State) (sh : ShadeIx) (n : Nat) : State :=
  match (s.sh sh).partials[n]? with
  | none => s
  | some u =>
    let e := u.job.q.passEnt u.tile
    let o := u.job.origin u.tile
    let x0 := ((s.sh sh).slotOf u.prism e.tdc o).getD (openSlot u.prism e o u)
    if !(s.sh sh).slotRoom u.prism e.tdc o || !s.tileTurn sh x0.gotTiles x0.ctiles u.tile then s
    else
      let s := s.modSh sh fun y => { y with partials := y.partials.eraseIdx n }
      if x0.ctiles ≠ e.ctiles ∨ x0.croot ≠ e.croot ∨ x0.opmode ≠ u.opmode then s.opFault sh u.job.q (startFault u.prism u.tile)
      else
        let x := { x0 with acc := if x0.gotTiles.isEmpty then u.acc else mergeAcc x0.opmode x0.acc u.acc,
                           gotTiles := x0.gotTiles ++ [u.tile], k0 := min x0.k0 u.k0, k1 := max x0.k1 u.k1,
                           writer := if u.tile = writerTile e.ctiles then some u.job else x0.writer, ids := x0.ids ++ [u.job.q.id] }
        (s.modSh sh fun y => { y with combines := putSlot y.combines x.prism x.tdc x.origin (some x) }).tileSlotDone sh e.comb x u.job

/-- A prism partial is the next the root takes: in ordered mode the lowest logical prism not yet delivered (R269). -/
def State.prismTurn (s : State) (sh : ShadeIx) (got : List Nat) (p : Nat) : Bool :=
  !s.ordered sh || ((s.prismsOf sh).find? fun i => !got.contains i) == some p

/-- PRISM_PARTIAL: the n-th waiting prism partial arrives at the root prism and is combined there; the last one completes the combine,
whose slots in every prism are then free (R268 to R271). -/
def State.prismPartial (s : State) (sh : ShadeIx) (n : Nat) : State :=
  match (s.sh sh).prismPartials[n]? with
  | none => s
  | some u =>
    let e := u.job.q.passEnt u.tile
    let o := u.job.origin u.tile
    let root := s.rootPrism sh e.croot
    let x0 := ((s.sh sh).slotOf root e.tdc o).getD (openSlot root e o u)
    if !(s.sh sh).slotRoom root e.tdc o || !s.prismTurn sh x0.gotPrisms u.prism then s
    else
      let s := s.modSh sh fun y => { y with prismPartials := y.prismPartials.eraseIdx n }
      if x0.ctiles ≠ e.ctiles ∨ x0.croot ≠ e.croot ∨ x0.opmode ≠ u.opmode then s.opFault sh u.job.q (startFault u.prism u.tile)
      else
        let x := { x0 with pacc := if x0.gotPrisms.isEmpty then u.acc else mergeAcc x0.opmode x0.pacc u.acc,
                           gotPrisms := x0.gotPrisms ++ [u.prism], k0 := min x0.k0 u.k0, k1 := max x0.k1 u.k1,
                           writer := if u.prism = root then some u.job else x0.writer }
        if (s.prismsOf sh).all fun p => x.gotPrisms.contains p then
          let ids := ((s.sh sh).combines.filter fun y => y.tdc == x.tdc && y.origin == x.origin).flatMap fun y => y.ids
          (s.modSh sh fun y => { y with combines := dropCombine y.combines x.tdc x.origin }).combineWrite sh
            { x with acc := x.pacc, ids := (ids ++ x.ids).eraseDups }
        else s.modSh sh fun y => { y with combines := putSlot y.combines root x.tdc x.origin (some x) }

end Sys2Proof.Machine
end

