-- ==== Sys2Proof/Machine/Scomp.lean ====
section
/-! DEFINITION. SCOMP (R533): a dense tensor passes through the Stencil of each tile into a BSG tensor, without quantisation. -/

namespace Sys2Proof.Machine

/-- The issue check of SCOMP (R93, R103, R254, R533). -/
def State.scompCheck (s : State) (sh : ShadeIx) (q : QOp) (g : GReg) (td td2 : Nat) : Option Nat :=
  let a := readTD q.desc td
  let b := readTD q.desc td2
  let w := SCW.ofNat (q.g[g.toNat]).toNat
  firstCode [
    s.checkTD sh q.desc td [8] false, s.checkTD sh q.desc td2 [8] false,
    rsvdIf (a.isBsg || !b.isBsg || a.fmt != b.fmt || a.rank != b.rank || a.sizes6 != b.sizes6 || a.baxis != b.baxis || a.tsen != b.tsen),
    rsvdIf (scwBad w b none), rsvdIf (s.stageBad sh w b 0)]

/-- The raw element of a dense tensor at coordinates. -/
def State.rdDense (s : State) (c : Ctx) (t : TD) (co : List Nat) : Except OpFault Raw := s.rdRaw c t (t.denseLoc co)

/-- The block of BSG tensor t2 at (br, bc) as the dense tensor t1 holds it (R84, R533). -/
def State.denseImg (s : State) (c : Ctx) (t1 t2 : TD) (lead : List Nat) (br bc : Nat) : Except OpFault BlkImg := do
  let b := t2.edge
  let raws ← (List.range b).mapM fun r => (List.range b).mapM fun cc => do
    let rr := br * b + r
    let c2 := bc * b + cc
    if rr < t2.rows ∧ c2 < t2.cols then do
      let x ← s.rdDense c t1 (lead ++ [rr, c2])
      .ok (some x)
    else .ok none
  let at' (r cc : Nat) : Option Raw := ((raws[r]?.getD [])[cc]?).getD none
  let codes := (List.range b).flatMap fun r => (List.range b).map fun cc => (at' r cc).elim t2.fmt.zeroCode fun x => x.code
  let n := t2.lineLen
  let scales := if t2.fmt.scaleKind = .none then [] else
    (List.range b).flatMap fun l => (List.range (b / n)).map fun k =>
      (at' (if t2.baxis then k * n else l) (if t2.baxis then l else k * n)).elim t2.fmt.zeroScale fun x => x.scale
  .ok ⟨codes, scales⟩

/-- Copy the tile-scale plane region by region (R533). -/
def State.copyTs (s : State) (c : Ctx) (t1 t2 : TD) : Res :=
  if !t1.tsen then .ok s
  else resFold (fun s i =>
    Res.withRead s (s.rdSNat c t1.space (t1.tsbase + 2 * i) 2) fun v => s.wrSN c t2.space (t2.tsbase + 2 * i) (leBytes 2 v)) s
    (List.range t1.regionCount)

/-- SCOMP decides one block: into a PACKED tensor at its slot, into a STRIDED one through the group it carries along. -/
def State.scompBlock (s : State) (c : Ctx) (q : QOp) (td td2 scw : Nat) (lead : List Nat) (br bc : Nat) : Option OpenGroup → Res × Option OpenGroup
  | g =>
    let t1 := readTD q.desc td
    let t2 := readTD q.desc td2
    let w := SCW.ofNat scw
    match s.denseImg c t1 t2 lead br bc, s.blockTs c t2 lead br bc with
    | .error f, _ => (⟨s, some f⟩, g)
    | _, .error f => (⟨s, some f⟩, g)
    | .ok img, .ok ts =>
      let s := (s.stencil c 1 1).stencil c 0xC (t2.imgLt2 img)
      if !t2.strided then
        (s.packedBlock c q t2 w false lead (List.range t2.bcols) ⟨br, bc, img, ts, .zero⟩, none)
      else
        let vs := t2.imgVals img br bc ts
        let rho := linIndex t2.lead lead * t2.brows + br
        let g := g.getD ⟨td2, q.desc, rho, bc / 8, 0, [], BitVec.ofNat 64 scw, br % (64 / t2.edge)⟩
        let m := readMO q.desc t2.mo
        match (if w.mgate then s.epochBit c t2 m (capParity q.masks t2) br bc else .ok true) with
        | .error f => (⟨s, some f⟩, some g)
        | .ok el =>
          let keep := el && w.qualifies vs
          let r := s.takeBlock c 0 g bc keep false img
          let g := g.take (bc % 8) keep false (sumSquares vs)
          if bc + 1 = min (8 * g.grp + 8) t2.bcols then (r.andThen fun s => s.closeGroup c 0 g, none) else (r, some g)

/-- SCOMP walks the blocks in ascending logical block index. -/
def State.scompBlocks (s : State) (c : Ctx) (q : QOp) (td td2 scw : Nat) : List (List Nat × Nat × Nat) → Option OpenGroup → Res
  | [], _ => .ok s
  | x :: xs, g =>
    let r := s.scompBlock c q td td2 scw x.1 x.2.1 x.2.2 g
    match r.1.err with
    | some _ => r.1
    | none => r.1.s.scompBlocks c q td td2 scw xs r.2

/-- SCOMP in one tile. -/
def State.scompTile (s : State) (c : Ctx) (q : QOp) (td td2 scw : Nat) : Res :=
  let t1 := readTD q.desc td
  let t2 := readTD q.desc td2
  let blocks := (allCoords t2.lead).flatMap fun lead =>
    (List.range t2.brows).flatMap fun br => (List.range t2.bcols).map fun bc => (lead, br, bc)
  (resFold (fun s k => s.closeGroups c k fun g => g.tdc != td2) s (List.range 4)).andThen fun s =>
    (s.copyTs c t1 t2).andThen fun s => s.scompBlocks c q td td2 scw blocks none

/-- SCOMP runs in every tile it names of every prism. -/
def State.scompRun (s : State) (sh : ShadeIx) (q : QOp) (g : GReg) (td td2 : Nat) (tiles : BitVec 8) : Res :=
  resFold (fun s (pt : Nat × Nat) => s.scompTile ⟨sh, pt.1, pt.2, q.g⟩ q td td2 (q.g[g.toNat]).toNat) s
    ((s.prismsOf sh).flatMap fun p => (tilesOf tiles).map fun t => (p, t))

end Sys2Proof.Machine
end

