-- ==== Sys2Proof/Machine/LogFn.lean ====
section
/-! DEFINITION. Natural logarithms to 192 fraction bits, for the one value the spec asks to be evaluated exactly and rounded once (R128). -/

namespace Sys2Proof.Machine

/-- Fraction bits. -/
def lnBits : Nat := 192

/-- 2 × atanh(z) × 2^192 for z given likewise, 0 ≤ z ≤ 1/3: the series z^(2i+1) / (2i+1). -/
def atanhSeries (z2 : Nat) : Nat → Nat → Nat → Nat
  | 0, _, _ => 0
  | n + 1, term, k => 2 * term / k + atanhSeries z2 n (term * z2 / 2 ^ lnBits) (k + 2)

/-- 2 × atanh(num / den). -/
def atanh2 (num den : Nat) : Nat :=
  let z := num * 2 ^ lnBits / den
  atanhSeries (z * z / 2 ^ lnBits) 64 z 1

/-- ln 2. -/
def ln2Fix : Nat := atanh2 1 3

/-- ln(num / den) in units of 2^-192. -/
def lnFix (num den : Nat) : Int :=
  let k := floorLog2Rat num den
  let q := shiftRat num den (-k)
  k * (ln2Fix : Int) + (atanh2 (q.1 - q.2) (q.1 + q.2) : Int)

/-- −ln(−ln(u)) for u = (2n + 1) / 2^25 (R128). -/
def gumbel (n : Nat) : Val :=
  let v := (-(lnFix (2 * n + 1) (2 ^ 25))).toNat
  let w := -(lnFix v (2 ^ lnBits))
  .fin (decide (w < 0)) w.natAbs (-(lnBits : Int))

end Sys2Proof.Machine
end

