-- ==== Sys2Proof/Machine/Mask.lean ====
section
/-! DEFINITION. Masks that change (chapter 04, R111 to R141): PRUNE, GROW, MIRROR.BUILD, MCOMMIT, SILH, the commits of a yield point and the
copy of planes. -/

namespace Sys2Proof.Machine

/-- A shade's mask state of an object. -/
def State.maskOf (s : State) (sh : ShadeIx) (mo : Nat) : MaskSt := (s.sh sh).masks.get maskDefault mo

/-- Change a mask state. -/
def State.modMask (s : State) (sh : ShadeIx) (mo : Nat) (f : MaskSt → MaskSt) : State :=
  s.modSh sh fun x => { x with masks := x.masks.set maskDefault mo (f (x.masks.get maskDefault mo)) }

/-- The context of the mask agents: the lead prism. -/
def State.maskCtx (s : State) (sh : ShadeIx) (q : QOp) : Ctx := ⟨sh, s.leadP sh, 0, q.g⟩

/-- A mask event of a shade: the page of the lead prism. -/
def State.maskEvent (s : State) (sh : ShadeIx) (ev n : Nat) : State := s.count .mask (s.leadP sh) ev n

/-- A mask operation that took n core cycles ends on the lead prism's page: event ev and its cycles (R141). -/
def State.maskSpan (s : State) (sh : ShadeIx) (ev n : Nat) : State := s.countSpan .mask (s.leadP sh) ev n

/-- Prisms of a shade, at least one. -/
def State.prismCount (s : State) (sh : ShadeIx) : Nat := max 1 (s.prismsOf sh).length

/-! ## Control words and issue checks (R112, R125, R126, R137, R138) -/

/-- The prune and grow control word (R125). -/
structure PGW where
  scope : Nat
  pick : Bool
  k : Nat
  temp : Nat
  sreg : Nat
  rsvd : Bool
  deriving DecidableEq, Repr

def PGW.ofNat (w : Nat) : PGW :=
  ⟨bitsOf w 1 0, bitOf w 2, bitsOf w 31 8, bitsOf w 47 32, bitsOf w 53 48, bitsOf w 7 3 != 0 || bitsOf w 63 54 != 0⟩

/-- A positive finite FP16 code. -/
def posFinite16 (w : Nat) : Bool := (f16 w).isFinite && !(f16 w).isZero && !(f16 w).isNeg

/-- The stream of GROW DRAW. -/
def QOp.greg (q : QOp) (i : Nat) : Nat := ((q.g.toList[i]?).getD 0).toNat

/-- R126, and the reserved streams of R204. -/
def pgwBad (q : QOp) (w : PGW) (grow : Bool) : Bool :=
  w.scope == 3 || w.rsvd || (w.scope == 0 && decide (8 < w.k)) || (w.pick && !grow) || (w.pick && !posFinite16 w.temp)
  || (!w.pick && (w.temp != 0 || w.sreg != 0)) || (w.pick && spkReserved (q.greg w.sreg))

/-- The issue check of PRUNE and GROW (R112, R126, R339). -/
def State.pruneCheck (s : State) (sh : ShadeIx) (q : QOp) (mo : Nat) (g : GReg) (grow : Bool) : Option Nat :=
  firstCode [
    (readMO q.desc mo).check, rsvdIf (pgwBad q (PGW.ofNat (q.greg g.toNat)) grow), rsvdIf (s.genEntry sh mo).isSome]

/-- The issue check of MIRROR.BUILD (R112, R123, R254, R339). -/
def State.mirrorCheck (s : State) (sh : ShadeIx) (q : QOp) (mo td : Nat) : Option Nat :=
  let t := readTD q.desc td
  firstCode [
    (readMO q.desc mo).check, rsvdIf (!t.moen || t.mo != mo || t.rsvd false || t.governedBad (readMO q.desc mo)),
    rsvdIf (s.genEntry sh mo).isSome]

/-- The issue check of MCOMMIT (R112, R339). -/
def State.mcommitCheck (s : State) (sh : ShadeIx) (q : QOp) (mo : Nat) : Option Nat :=
  firstCode [(readMO q.desc mo).check, rsvdIf (s.genEntry sh mo).isSome]

/-- The issue check of SILH (R112, R137, R138, R339). -/
def State.silhCheck (s : State) (sh : ShadeIx) (q : QOp) (mo : Nat) (g : GReg) : Option Nat :=
  let w := q.greg g.toNat
  let beta := f16 (bitsOf w 31 16)
  let betaBad := !(beta.isFinite && beta.lt .one && (!beta.isNeg || beta.isZero))
  firstCode [
    (readMO q.desc mo).check,
    rsvdIf (bitsOf w 1 0 == 3 || bitsOf w 7 3 != 0 || bitsOf w 63 32 != 0 || (bitsOf w 1 0 == 2 && betaBad)),
    rsvdIf (s.genEntry sh mo).isSome]

/-! ## Reading and writing bitmaps (R115) -/

/-- The presence bit of a block in a parity's bitmap. -/
def State.bmBit (s : State) (c : Ctx) (m : MOD) (e b : Nat) : Except OpFault Bool := do
  let x ← s.rdS c 0xA (m.bitmapAt e + b / 8)
  .ok (bitOf x.toNat (b % 8))

/-- Write a presence bit. -/
def State.setBm (s : State) (c : Ctx) (m : MOD) (e b : Nat) (v : Bool) : Res :=
  Res.withRead s (s.rdS c 0xA (m.bitmapAt e + b / 8)) fun x =>
    s.wrS c 0xA (m.bitmapAt e + b / 8) (BitVec.ofNat 8 (putBits x.toNat (b % 8) (b % 8) (b2n v)))

/-- Present blocks among a list. -/
def State.bmList (s : State) (c : Ctx) (m : MOD) (e : Nat) (want : Bool) (bs : List Nat) : Except OpFault (List Nat) :=
  bs.foldlM (fun (acc : List Nat) b => do
    let x ← s.bmBit c m e b
    .ok (if x == want then acc ++ [b] else acc)) []

/-! ## Selection (R127 to R129) -/

/-- The scopes of a grid: lists of logical block indices, in ascending scope index (R125, R129). -/
def scopesOf (m : MOD) (scope : Nat) : List (List Nat) :=
  if scope = 0 then
    (List.range m.rows).flatMap fun r => (List.range m.groups).map fun g =>
      ((List.range 8).filter fun j => decide (8 * g + j < m.cols)).map fun j => r * m.cols + 8 * g + j
  else if scope = 1 then (List.range m.rows).map fun r => (List.range m.cols).map fun c => r * m.cols + c
  else [List.range m.nb]

/-- rank_low: x goes before y (R128). -/
def rankLow (x y : Val) : Bool := if x.isNan then !y.isNan else !y.isNan && x.lt y
/-- rank_high: x goes before y (R128). -/
def rankHigh (x y : Val) : Bool := if x.isNan then !y.isNan else !y.isNan && y.lt x

/-- Insert by a strict order, after its equals. -/
def insertBy (before : Val → Val → Bool) (x : Nat × Val) : List (Nat × Val) → List (Nat × Val)
  | [] => [x]
  | y :: ys => if before x.2 y.2 then x :: y :: ys else y :: insertBy before x ys

/-- Order candidates, which come in ascending block index, by key; ties keep the lower index first. -/
def orderBy (before : Val → Val → Bool) (xs : List (Nat × Val)) : List Nat :=
  (xs.foldl (fun acc x => insertBy before x acc) []).map Prod.fst

/-- The score of a block (R128). -/
def State.scoreOf (s : State) (c : Ctx) (m : MOD) (b : Nat) : Except OpFault Val := do
  let x ← s.rdSNat c 0xA (m.score + 2 * b) 2
  .ok (f16 x)

/-- The key of a GROW candidate (R128). -/
def growKey (q : QOp) (w : PGW) (b : Nat) (score : Val) : Val :=
  if !w.pick then score
  else
    let n := spkBits24 q.gen q.seed (BitVec.ofNat 64 (q.greg w.sreg)) (BitVec.ofNat 64 b)
    ((score.div24 (f16 w.temp)).rnd32.add (gumbel n).rnd32).rnd32

/-- The candidates of a scope with their keys, and the number of NaN scores among them. -/
def State.scopeKeys (s : State) (c : Ctx) (q : QOp) (m : MOD) (e : Nat) (w : PGW) (grow : Bool) (bs : List Nat) :
    Except OpFault (List (Nat × Val) × Nat) := do
  let cands ← s.bmList c m e (!grow) bs
  cands.foldlM (fun (acc : List (Nat × Val) × Nat) b => do
    let v ← s.scoreOf c m b
    .ok (acc.1 ++ [(b, if grow then growKey q w b v else v)], acc.2 + b2n v.isNan)) ([], 0)

/-- The selected blocks of every scope in order, and the NaN scores met. -/
def State.maskSelect (s : State) (c : Ctx) (q : QOp) (m : MOD) (e : Nat) (w : PGW) (grow : Bool) : Except OpFault (List Nat × Nat) :=
  (scopesOf m w.scope).foldlM (fun (acc : List Nat × Nat) bs => do
    let ks ← s.scopeKeys c q m e w grow bs
    .ok (acc.1 ++ (orderBy (if grow then rankHigh else rankLow) ks.1).take w.k, acc.2 + ks.2)) ([], 0)

/-- NaN scores are counted (R128). -/
def State.nanScores (s : State) (sh : ShadeIx) (mo n : Nat) : State :=
  if n = 0 then s else (s.maskEvent sh 8 n).maskErr sh mo 1

/-- Core cycles of PRUNE and GROW (R130); the generator of LMA7 mode has the coefficients of R206. -/
def selectCycles (m : MOD) (n scope : Nat) (draw lma7 : Bool) : Nat :=
  let a := ceilDiv m.rows n * m.cols
  let half (k : Nat) : Nat := ceilDiv (k * a) 2
  if scope = 2 then (half (if draw then (if lma7 then 9 else 6) else 4)) + 8 * n + 128
  else half (if draw then (if lma7 then 7 else 4) else 2) + 64

/-- PRUNE or GROW ends: its cycles, and one mask operation. -/
def State.selectEnd (s : State) (sh : ShadeIx) (q : QOp) (m : MOD) (w : PGW) : State :=
  (s.maskSpan sh 3 (selectCycles m (s.prismCount sh) w.scope w.pick q.gen)).maskEvent sh 1 1

/-- PRUNE (R127, R128): the selected blocks' next bits are cleared. -/
def State.pruneRun (s : State) (sh : ShadeIx) (q : QOp) (mo : Nat) (g : GReg) : Res :=
  let c := s.maskCtx sh q
  let m := readMO q.desc mo
  let w := PGW.ofNat (q.greg g.toNat)
  let e := b2n (s.maskOf sh mo).cur
  if w.k = 0 then .ok (s.maskEvent sh 1 1)
  else
    Res.withRead s (s.maskSelect c q m e w false) fun sel =>
      let s := (s.nanScores sh mo sel.2).modMask sh mo fun x => { x with built := false, edited := true }
      (resFold (fun s b =>
        Res.withRead s (s.bmBit c m (1 - e) b) fun old =>
          (s.setBm c m (1 - e) b false).andThen fun s => .ok (s.maskEvent sh 5 (b2n old))) s sel.1).andThen fun s =>
        .ok (s.selectEnd sh q m w)

/-- GROW (R127 to R129): the selected blocks' next bits are set, up to CAP present blocks. -/
def State.growRun (s : State) (sh : ShadeIx) (q : QOp) (mo : Nat) (g : GReg) : Res :=
  let c := s.maskCtx sh q
  let m := readMO q.desc mo
  let w := PGW.ofNat (q.greg g.toNat)
  let e := b2n (s.maskOf sh mo).cur
  if w.k = 0 then .ok (s.maskEvent sh 1 1)
  else
    Res.withRead s (s.maskSelect c q m e w true) fun sel =>
      Res.withRead s (s.bmList c m (1 - e) true (List.range m.nb)) fun have_ =>
        let s := (s.nanScores sh mo sel.2).modMask sh mo fun x => { x with built := false, edited := true }
        let fresh := sel.1.filter fun b => !have_.contains b
        let room := m.cap - have_.length
        let out := (fresh.drop room).length
        (resFold (fun s b => (s.setBm c m (1 - e) b true).andThen fun s => .ok (s.maskEvent sh 6 1)) s (fresh.take room)).andThen fun s =>
          .ok ((if out = 0 then s else (s.maskEvent sh 7 out).maskErr sh mo 0).selectEnd sh q m w)

/-! ## MIRROR.BUILD (R122, R123) -/

/-- Write a layout from the present blocks, ascending. -/
def State.writeLayout (s : State) (c : Ctx) (m : MOD) (e tag : Nat) (bs : List Nat) : Res :=
  let row (b : Nat) : Nat := b / m.cols
  let col (b : Nat) : Nat := b % m.cols
  let hdr (r g : Nat) : Nat :=
    let here := bs.filter fun b => row b == r && col b / 8 == g
    (Hdr.mk (here.foldl (fun a b => a + 2 ^ (col b % 8)) 0) here.length tag).toNat
  let hdrs := (List.range m.rows).flatMap fun r => (List.range m.groups).flatMap fun g => leBytes 2 (hdr r g)
  let ofs := (List.range (m.rows + 1)).flatMap fun r => leBytes 4 (bs.filter fun b => decide (row b < r)).length
  let cofs := (List.range (m.cols + 1)).flatMap fun j => leBytes 4 (bs.filter fun b => decide (col b < j)).length
  let entries := (List.range m.cols).flatMap fun j =>
    ((bs.mapIdx fun i b => (i, b)).filter fun p => col p.2 == j).flatMap fun p => leBytes 8 (row p.2 + p.1 * 2 ^ 32)
  (((s.wrSN c 0xA (m.headerAt e) hdrs).andThen fun s => s.wrSN c 0xA (m.ofsAt e) ofs).andThen fun s =>
    s.wrSN c 0xA (m.cofsAt e) cofs).andThen fun s => s.wrSN c 0xA (m.mirrorAt e) entries

/-- MIRROR.BUILD (R123): the next epoch's layout from its bitmap, or BOUND above CAP. -/
def State.mirrorRun (s : State) (sh : ShadeIx) (q : QOp) (mo td : Nat) : Res :=
  let c := s.maskCtx sh q
  let m := readMO q.desc mo
  let e := 1 - b2n (s.maskOf sh mo).cur
  Res.withRead s (s.bmList c m e true (List.range m.nb)) fun bs =>
    if m.cap < bs.length then
      ⟨s.modMask sh mo fun x => { x with built := false }, some (boundStart c.prism c.tile)⟩
    else
      (s.writeLayout c m e (readTD q.desc td).fmt.code bs).andThen fun s =>
        .ok ((s.modMask sh mo fun x => { x with built := true, presentNext := BitVec.ofNat 32 bs.length }).maskSpan sh 2
          (ceilDiv m.rows (s.prismCount sh) * m.cols + 8 * s.prismCount sh + 128) |>.maskEvent sh 1 1)

/-! ## SILH (R137) -/

/-- SILH reaches its tiles: an armed problem is a start-class fault. -/
def State.silhRun (s : State) (sh : ShadeIx) (q : QOp) (mo : Nat) (g : GReg) (tiles : BitVec 8) (p : Nat) : Res :=
  resFold (fun s (pt : Nat × Nat) =>
    if ((s.tile pt.1 pt.2).prob p).arm.isSome then ⟨s, some (startFault pt.1 pt.2)⟩
    else .ok (s.modTile pt.1 pt.2 fun t => t.modProb p fun x => { x with arm := some ⟨mo, BitVec.ofNat 64 (q.greg g.toNat)⟩ })) s
    ((s.prismsOf sh).flatMap fun pr => (tilesOf tiles).map fun t => (pr, t))

/-! ## MCOMMIT, yield points and copies (R118, R119, R121) -/

/-- MCOMMIT at its start: BUILT must be set; a second one has no effect (R118, R119). -/
def State.mcommitRun (s : State) (sh : ShadeIx) (mo : Nat) : Res :=
  let st := s.maskOf sh mo
  if st.pend then .ok s
  else if !st.built then ⟨s, some (startFault (s.leadP sh) 0)⟩
  else .ok (s.modMask sh mo fun x => { x with pend := true })

/-- The mask objects of a shade. -/
def allMos : List Nat := List.range 64

/-- The mask commits of a yield point (R119): step 1, RETIRED and COPY, and EDITED of every object cleared. At quiescence no operation
runs, so RETIRED is not set. `addr` is the bundle address of the YIELD. -/
def State.maskCommits (s : State) (sh : ShadeIx) (addr : Nat) : State :=
  allMos.foldl (fun s mo => s.modMask sh mo fun x =>
    let x := if x.pend then
        { x with epoch := x.epoch + 1, cur := !x.cur, pend := false, built := false, copy := true, present := x.presentNext, copyAddr := addr }
      else x
    { x with edited := false }) s

/-- The copy of planes (R119 step 3): the current bitmap and layout over the next ones, then BUILT is set and COPY clears. -/
def State.planeCopy (s : State) (sh : ShadeIx) (mo : Nat) : Res :=
  let m := readMO (s.sh sh).desc mo
  let st := s.maskOf sh mo
  let c : Ctx := ⟨sh, s.leadP sh, 0, (s.sh sh).lan.g⟩
  let e := b2n st.cur
  let copy (s : State) (a b n : Nat) : Res := Res.withRead s (s.rdSN c 0xA a n) fun bs => s.wrSN c 0xA b bs
  ((copy s (m.bitmapAt e) (m.bitmapAt (1 - e)) m.sb).andThen fun s => copy s (m.headerAt e) (m.headerAt (1 - e)) m.sl).andThen fun s =>
    .ok ((s.modMask sh mo fun x => { x with built := true, copy := false, presentNext := x.present }).maskSpan sh 4
      (ceilDiv (m.sb + m.sl) (64 * s.prismCount sh) + 64))

/-- MASK_PLANE_COPY: the copy of an object whose COPY is set and RETIRED is clear. A fault stops the shade with COPY left at 1 (R119). -/
def State.maskPlaneCopy (s : State) (sh : ShadeIx) (mo : Nat) : State :=
  let st := s.maskOf sh mo
  if !st.copy || st.retired || !s.enabled sh then s
  else
    let r := s.planeCopy sh mo
    match r.err with
    | none => r.s
    | some f =>
      let s := match f.xl with
        | none => r.s
        | some x => r.s.recordXlate sh 3 x
      (s.markFault sh f).stopFault sh f.code f.cls ⟨15, st.copyAddr, f.prism, f.tile⟩

/-- Masks on a rollback (R121), from those the record holds: PEND clears, an edited next epoch is copied again, an unfinished copy
starts again. -/
def State.maskRollback (s : State) (sh : ShadeIx) (rec : FMap MaskSt) : State :=
  allMos.foldl (fun s mo =>
    let now := s.maskOf sh mo
    let r := rec.get maskDefault mo
    let s := s.modMask sh mo fun _ =>
      { r with pend := false, edited := false, copy := now.copy || now.edited, built := r.built && !(now.copy || now.edited),
               copyAddr := now.copyAddr, presentNext := if now.edited then r.present else now.presentNext }
    if now.edited then s.maskEvent sh 0xB 1 else s) s

end Sys2Proof.Machine
end

