-- ==== Sys2Proof/Machine/Trans.lean ====
section
/-! DEFINITION. The transcendental stages (R174, R177): the value to 100 bits and more, rounded to FP32, and moved by the free number of
ulp that the stage's error bound allows. -/

namespace Sys2Proof.Machine

/-! ## Fixed point: integers in units of 2^-192 -/

/-- 1. -/
def fixOne : Int := 2 ^ lnBits
/-- The product of two. -/
def fixMul (a b : Int) : Int := a * b / fixOne

/-- A value in fixed point, the bits below discarded. -/
def Val.toFix : Val → Int
  | .fin n m e => sgn n (if 0 ≤ e + (lnBits : Int) then m * 2 ^ (e + (lnBits : Int)).toNat else m / 2 ^ (-(e + (lnBits : Int))).toNat)
  | _ => 0

/-- The value of a fixed-point number. -/
def fixVal (i : Int) : Val := .fin (decide (i < 0)) i.natAbs (-(lnBits : Int))

/-- The series of e^x, from term k. -/
def expSeries (x : Int) : Nat → Int → Nat → Int
  | 0, _, _ => 0
  | n + 1, term, k => term + expSeries x n (fixMul term x / (k : Nat)) (k + 1)

/-- 2^x for x in fixed point. -/
def exp2Fix (x : Int) : Val :=
  let i := x.fdiv fixOne
  let f := x - i * fixOne
  (fixVal (expSeries (fixMul f (ln2Fix : Int)) 60 fixOne 1)).scale i

/-- The arctangent of 1/n. -/
def atanSeries (n2 : Nat) : Nat → Int → Nat → Int
  | 0, _, _ => 0
  | c + 1, term, k => term / (k : Nat) + atanSeries n2 c (-(term / (n2 : Nat))) (k + 2)
def atanInv (n : Nat) : Int := atanSeries (n * n) 140 (fixOne / (n : Nat)) 1

/-- π. -/
def piFix : Int := 16 * atanInv 5 - 4 * atanInv 239

/-- The series of the error function: (−1)^n x^(2n+1) / (n! (2n+1)). -/
def erfSeries (x2 : Int) : Nat → Int → Nat → Int
  | 0, _, _ => 0
  | c + 1, term, n => term / (2 * n + 1 : Nat) + erfSeries x2 c (-(fixMul term x2) / (n + 1 : Nat)) (n + 1)

/-- The square root of a non-negative value, to at least 128 bits. -/
def Val.sqrtHi : Val → Val
  | .nan => .nan
  | .inf n => if n then .nan else .inf false
  | .fin n m e =>
    if m = 0 then .fin n 0 0
    else if n then .nan
    else
      let k := 256 + (if (e % 2 : Int) = 0 then 0 else 1)
      .fin false (Nat.sqrt (m * 2 ^ k)) ((e - (k : Nat)) / 2)

/-- a / b rounded once to FP32, with the special values of IEEE division. -/
def Val.div32 : Val → Val → Val
  | .nan, _ => .nan
  | _, .nan => .nan
  | .inf _, .inf _ => .nan
  | .inf a, .fin b _ _ => .inf (a != b)
  | .fin a _ _, .inf b => .fin (a != b) 0 0
  | .fin a m e, .fin b n f =>
    if n = 0 then (if m = 0 then .nan else .inf (a != b))
    else f32 (Layout.f32.encodeRat .rne true (a != b) m n (e - f)).code

/-! ## The stages -/

/-- What a transcendental stage gives: a special value, or a value to be rounded within so many ulp. -/
inductive TransOut where
  | exact (v : Val)
  | near (v : Val) (ulps : Nat)
  deriving DecidableEq, Repr

/-- EXP2 (R177). -/
def exp2Out (a : Val) : TransOut :=
  match a with
  | .nan => .exact .nan
  | .inf n => .exact (if n then .zero else .inf false)
  | .fin _ m _ =>
    if m = 0 then .exact .one
    else if (Val.ofInt 128).le a then .exact (.inf false)
    else if a.lt (Val.ofInt (-149)) then .exact .zero
    else .near (exp2Fix a.toFix) 1

/-- LOG2 (R177). -/
def log2Out (a : Val) : TransOut :=
  match a with
  | .nan => .exact .nan
  | .inf n => .exact (if n then .nan else .inf false)
  | .fin n m e =>
    if m = 0 then .exact (.inf true)
    else if n then .exact .nan
    else if a.eqv .one then .exact .zero
    else .near (fixVal ((lnFix m 1 + e * (ln2Fix : Int)) * fixOne / (ln2Fix : Int))) 1

/-- RSQRT (R177). -/
def rsqrtOut (a : Val) : TransOut :=
  match a with
  | .nan => .exact .nan
  | .inf n => .exact (if n then .nan else .zero)
  | .fin n m e =>
    if m = 0 then .exact (.inf n)
    else if n then .exact .nan
    else
      let k := 2 * Nat.log2 m + 256 + (if (e % 2 : Int) = 0 then 0 else 1)
      .near (.fin false (Nat.sqrt (2 ^ k / m)) (-((e + (k : Nat)) / 2))) 1

/-- TANH (R177): 1 from magnitude 10 up, to the precision of FP32. -/
def tanhOut (a : Val) : TransOut :=
  match a with
  | .nan => .exact .nan
  | .inf n => .exact (.fin n 1 0)
  | .fin n m e =>
    if m = 0 then .exact a
    else if (Val.ofInt 10).le a.abs then .near (.fin n 1 0) 2
    else
      let y := exp2Fix ((Val.fin false m (e + 1)).toFix * fixOne / (ln2Fix : Int))
      let t := y.toFix
      .near (let v := fixVal ((t - fixOne) * fixOne / (t + fixOne)); if n then v.neg else v) 2

/-- ERF (R177): 1 from magnitude 5 up, to the precision of FP32. -/
def erfOut (a : Val) : TransOut :=
  match a with
  | .nan => .exact .nan
  | .inf n => .exact (.fin n 1 0)
  | .fin n m e =>
    if m = 0 then .exact a
    else if (Val.ofInt 5).le a.abs then .near (.fin n 1 0) 2
    else
      let x := (Val.fin false m e).toFix
      let root := ((fixVal piFix).sqrtHi).toFix
      .near (let v := fixVal (2 * erfSeries (fixMul x x) 220 x 0 * fixOne / root); if n then v.neg else v) 2

/-- ADAMDIR: a / (√b + c), within 2 ulp (R174). -/
def adamOut (a b c : Val) : TransOut :=
  match a.div32 (b.sqrtHi.add c) with
  | .fin n m e => if m = 0 then .exact (.fin n m e) else .near (.fin n m e) 2
  | v => .exact v

/-- Move the code of an FP32 value by a number of ulp of its magnitude: `off` stands for the displacement that is equal to it modulo
2 × ulps + 1 and lies in −ulps … +ulps. -/
def moveUlp (ulps off : Nat) (v : Val) : Val :=
  let code := toF32 v
  let mag := code % 2 ^ 31
  if 0x7F800000 ≤ mag then v
  else f32 (code / 2 ^ 31 * 2 ^ 31 + min 0x7F800000 (mag + (off + ulps) % (2 * ulps + 1) - ulps))

/-- The result of a transcendental stage in FP32: the free displacement is a function of the stage and its input bits alone (R177). -/
def TransOut.result (o : TransOut) (sop key : Nat) : Val :=
  match o with
  | .exact v => v
  | .near v ulps => moveUlp ulps (Config.freeUlp sop key).toNat v.rnd32

end Sys2Proof.Machine
end

