-- ==== Sys2Proof/Machine/Parts.lean ====
section
/-! DEFINITION. How Lens, Focus and DRAW divide and visit tensors (R169 to R171): the prisms of a PART, the range of each, the visit order,
and an operand as one prism addresses it. -/

namespace Sys2Proof.Machine

/-- The memory spaces of Lens, Focus and DRAW operands (R169, R255). -/
def lensSpaces : List Nat := [0, 1, 2, 3, 4, 5, 6, 7, 9]

/-- The prisms that run an operation of a PART (R170). -/
def State.partPrisms (s : State) (sh : ShadeIx) (part : Nat) : List Nat := if part = 2 then [s.leadP sh] else s.prismsOf sh

/-- The i-th of N contiguous ranges of n indices: the first (n mod N) take one more (R123, R170). -/
def splitRange (n k i : Nat) : Nat × Nat := (i * (n / k) + min i (n % k), n / k + (if i < n % k then 1 else 0))

/-- What one prism takes: a range of dimension 0, and of global block rows where a BSG operand is walked. -/
structure PartRange where
  d0 : Nat
  dn : Nat
  r0 : Nat
  rn : Nat
  deriving DecidableEq, Repr

/-- Dimension-0 coordinate where a global block row begins. -/
def TD.dimAt (t : TD) (rho : Nat) : Nat := if t.rank ≤ 2 then rho * t.edge else (unIndex (t.lead ++ [t.brows]) rho).headD 0

/-- The part of a prism (R170, R171), by chain shape and walk operand. -/
def State.partRange (s : State) (sh : ShadeIx) (part p : Nat) (shape : List Nat) (walk : Option TD) : PartRange :=
  let n0 := shape.headD 1
  let k := max 1 (s.prismsOf sh).length
  match walk with
  | none => if part = 1 then let r := splitRange n0 k (s.posOf sh p); ⟨r.1, r.2, 0, 0⟩ else ⟨0, n0, 0, 0⟩
  | some w =>
    let r := if part = 1 then splitRange w.grows k (s.posOf sh p) else (0, w.grows)
    let lo := w.dimAt r.1
    let hi := if r.2 = 0 then lo
      else if w.rank ≤ 2 then min n0 ((r.1 + r.2) * w.edge) else w.dimAt (r.1 + r.2 - 1) + 1
    ⟨lo, hi - lo, r.1, r.2⟩

/-- A tensor in tile scratch or the pool, which each prism addresses as its own (R170). -/
def TD.isLocal (t : TD) : Bool := decide (t.space ≤ 9)

/-- A dense descriptor as a prism addresses it: a prism-local one from the start of its own range of dimension 0 (R170). -/
def TD.local (t : TD) (r : PartRange) : TD := if t.isBsg || !t.isLocal then t else { t with sizes6 := r.dn :: t.sizes6.tail }

/-- The footprint of an operand in a prism (R171, R257). -/
def State.partFoot (s : State) (sh : ShadeIx) (part : Nat) (shape : List Nat) (walk : Option TD) (t : TD) (p : Nat) : TD × Option Nat :=
  let r := s.partRange sh part p shape walk
  if t.isBsg then (t, if part = 1 && t.isLocal then some r.rn else none) else (t.local r, none)

/-- The issue check of an operand that is divided by PART. -/
def State.checkSpacesTD (s : State) (sh : ShadeIx) (d : FMap W64) (n : Nat) (spaces : List Nat) (bc : Bool) (part : Nat)
    (shape : List Nat) (walk : Option TD) : Option Nat :=
  s.checkTDWith sh d n spaces bc (s.partPrisms sh part) (s.partFoot sh part shape walk)

/-- The issue check of an operand of Lens, Focus or DRAW. -/
def State.checkPartTD (s : State) (sh : ShadeIx) (d : FMap W64) (n : Nat) (bc : Bool) (part : Nat) (shape : List Nat)
    (walk : Option TD) : Option Nat := s.checkSpacesTD sh d n lensSpaces bc part shape walk

/-- A BSG operand has the BSIZE and the block grid of the walk operand (R171). -/
def gridBad (walk : Option TD) (t : TD) : Bool :=
  match walk with
  | none => t.isBsg
  | some w => t.isBsg && (t.edge != w.edge || t.sizes != w.sizes)

/-- A visited element: its coordinates in the chain shape, its coordinates from the start of the prism's range, and its block. -/
structure LEl where
  co : List Nat
  lco : List Nat
  blk : Option (Nat × Nat)
  deriving DecidableEq, Repr

/-- Row and column of an element in its last two dimensions. -/
def colOf (co : List Nat) : Nat := (co.getLast?).getD 0
def rowOf (co : List Nat) : Nat := if co.length < 2 then 0 else (co[co.length - 2]?).getD 0

/-- The leading coordinates of an element. -/
def leadOf (co : List Nat) : List Nat := co.take (co.length - 2)

/-- The elements of one 64 × 64 region of a dense part, row by row. -/
def regionEls (rank : Nat) (d0 : Nat) (lead : List Nat) (r0 c0 nr nc : Nat) : List LEl :=
  (List.range nr).flatMap fun r => (List.range nc).map fun c =>
    let lco := if rank < 2 then [c0 + c] else lead ++ [r0 + r, c0 + c]
    ⟨match lco with
      | [] => []
      | x :: xs => (d0 + x) :: xs, lco, none⟩

/-- The regions of a dense part in region order (R170): the last two dimensions in 64 × 64 regions in row-major order, leading indices
outermost. -/
def denseVisit (shape : List Nat) (r : PartRange) : List (List LEl) :=
  let sh := match shape with
    | [] => []
    | _ :: xs => r.dn :: xs
  let rank := sh.length
  let rows := if rank < 2 then 1 else (sh[rank - 2]?).getD 1
  let cols := (sh.getLast?).getD 1
  (allCoords (sh.take (rank - 2))).flatMap fun lead =>
    (List.range (ceilDiv rows 64)).flatMap fun i => (List.range (ceilDiv cols 64)).map fun j =>
      regionEls rank r.d0 lead (64 * i) (64 * j) (min 64 (rows - 64 * i)) (min 64 (cols - 64 * j))

/-- The elements of a block of a BSG operand, row by row. -/
def TD.blockEls (w : TD) (d0 rho bc : Nat) : List LEl :=
  let lead := unIndex w.lead (rho / w.brows)
  let lead := if w.rank ≤ 2 then [] else lead
  let br := rho % w.brows
  (List.range w.edge).flatMap fun r => (List.range w.edge).filterMap fun c =>
    let co := lead ++ [br * w.edge + r, bc * w.edge + c]
    if br * w.edge + r < w.rows ∧ bc * w.edge + c < w.cols then
      some ⟨co, match co with
        | [] => []
        | x :: xs => (x - d0) :: xs, some (rho, bc)⟩
    else none

/-- An operand as one prism addresses it. -/
structure LView where
  t : TD
  m : MOD
  e : Nat
  loc : TD
  /-- the global slot at which the prism's own slots begin (R171) -/
  j0 : Nat
  deriving DecidableEq, Repr

/-- The view of an operand in a prism (R170, R171). -/
def State.lview (s : State) (c : Ctx) (q : QOp) (n part : Nat) (r : PartRange) : Except OpFault LView :=
  let t := readTD q.desc n
  let m := readMO q.desc t.mo
  let e := capParity q.masks t
  if t.isBsg && t.isLocal && part == 1 then
    if t.strided then .ok ⟨t, m, e, t, r.r0 * t.groups * t.slots⟩
    else match s.rdOfs c t m e r.r0 with
      | .ok o => .ok ⟨t, m, e, t, o⟩
      | .error f => .error f
  else .ok ⟨t, m, e, t.local r, 0⟩

/-- The place of a block of a view; none where it is absent. -/
def State.viewSlot (s : State) (c : Ctx) (v : LView) (rho bc : Nat) : Except OpFault (Option (Nat × Nat)) := do
  match ← s.findSlot c v.t v.m v.e rho bc with
  | none => .ok none
  | some j => .ok (some (v.t.slotAddr v.m v.e (j - v.j0)))

/-- The place of an element of a view. -/
def State.viewLoc (s : State) (c : Ctx) (v : LView) (x : LEl) : Except OpFault (Option ELoc) :=
  match v.t.isBsg, x.blk with
  | true, some b => do
    match ← s.viewSlot c v b.1 b.2 with
    | none => .ok none
    | some a => .ok (some (v.t.inBlock a (rowOf x.co % v.t.edge) (colOf x.co % v.t.edge) (v.t.tsAddr x.co)))
  | _, _ => .ok (some (v.loc.denseLoc (if v.t.isLocal then x.lco else x.co)))

/-- An element read, and whether it was a reserved LT2 code. -/
structure RdVal where
  v : Val
  lt2 : Bool
  deriving DecidableEq, Repr

/-- The value of an element of a view, in FP32 (R176): +0 where its block is absent (R171). -/
def State.viewVal (s : State) (c : Ctx) (v : LView) (x : LEl) : Except OpFault RdVal := do
  match ← s.viewLoc c v x with
  | none => .ok ⟨.zero, false⟩
  | some l => do
    let r ← s.rdRaw c v.t l
    .ok ⟨(v.t.rawVal r).rnd32, v.t.lt2Rsvd r⟩

/-- The present blocks of a walk operand in a prism's range, in ascending block index: (global block row, block column) (R171). -/
def State.walkBlocks (s : State) (c : Ctx) (w : LView) (r : PartRange) : Except OpFault (List (Nat × Nat)) :=
  ((List.range r.rn).flatMap fun i => (List.range w.t.bcols).map fun j => (r.r0 + i, j)).foldlM (fun (acc : List (Nat × Nat)) b => do
    match ← s.findSlot c w.t w.m w.e b.1 b.2 with
    | none => .ok acc
    | some _ => .ok (acc ++ [b])) []

/-- Group a list by a key, in order of first appearance. -/
def groupKeys {α : Type} (key : α → List Nat) (l : List α) : List (List α) :=
  ((l.map key).eraseDups).map fun k => l.filter fun x => key x == k

/-- The 64 × 64 region of an element, from the start of the prism's range for a dense walk (R31). -/
def LEl.region (x : LEl) : List Nat :=
  let co := if x.blk.isSome then x.co else x.lco
  leadOf co ++ [rowOf co / 64, colOf co / 64]

/-- The units in which a part is visited, in order: regions of a dense walk, blocks of a BSG walk, or, when `band`, all the blocks
of a 64-row band together. -/
def State.visit (s : State) (c : Ctx) (shape : List Nat) (walk : Option LView) (r : PartRange) (band : Bool) :
    Except OpFault (List (List LEl)) :=
  match walk with
  | none => .ok (denseVisit shape r)
  | some w => do
    let bs ← s.walkBlocks c w r
    let us := bs.map fun b => w.t.blockEls r.d0 b.1 b.2
    if band then .ok ((groupKeys (fun (u : List LEl) => match u with
        | [] => []
        | x :: _ => leadOf x.co ++ [rowOf x.co / 64]) us).map List.flatten)
    else .ok us

/-- Encode a value in a plain format. -/
def Fmt.plainEnc (f : Fmt) (ieee : Bool) (v : Val) : Enc :=
  match f.layout with
  | some l => l.encode .rne ieee v
  | none => .plain 0

end Sys2Proof.Machine
end

