-- ==== Sys2Proof/Machine/Lens.lean ====
section
/-! DEFINITION. The Lens (chapter 06, R168 to R185): chain descriptors, the issue check, the stages of a chain, the online softmax and its
row state, CHAIN and UPDATE. -/

namespace Sys2Proof.Machine

/-! ## Chain descriptors (R172 to R174) -/

/-- A stage word (R173). -/
structure Stage where
  sop : Nat
  a : Nat
  b : Nat
  c : Nat
  mode : Nat
  imm : Nat
  deriving DecidableEq, Repr

/-- A chain descriptor (R172). -/
structure CDesc where
  nstage : Nat
  prec : Nat
  nin : Nat
  nout : Nat
  sreg : Nat
  part : Nat
  rinit : Bool
  tdIn : List Nat
  tdOut : List Nat
  osrc : List Nat
  rowst : Nat
  rsvd : Bool
  qcw : List Nat
  stages : List Stage
  deriving DecidableEq, Repr

def readStage (w : Nat) : Stage := ⟨bitsOf w 5 0, bitsOf w 10 6, bitsOf w 15 11, bitsOf w 20 16, bitsOf w 23 21, bitsOf w 39 24⟩

/-- Read chain descriptor n. -/
def readCD (d : FMap W64) (n : Nat) : CDesc :=
  let k := cdWord n 0
  let f (hi lo : Nat) : Nat := dbits d k hi lo
  { nstage := f 3 0, prec := f 5 4, nin := f 8 6, nout := f 11 9, sreg := f 17 12, part := f 19 18, rinit := f 20 20 = 1,
    tdIn := (List.range 4).map fun i => f (39 + 8 * i) (32 + 8 * i),
    tdOut := (List.range 4).map fun i => f (71 + 8 * i) (64 + 8 * i),
    osrc := (List.range 4).map fun i => f (98 + 3 * i) (96 + 3 * i),
    rowst := f 123 108, rsvd := f 31 21 != 0 || f 127 124 != 0,
    qcw := (List.range 4).map fun i => f (143 + 16 * i) (128 + 16 * i),
    stages := (List.range 8).map fun i => readStage (f (231 + 40 * i) (192 + 40 * i)) }

/-- The stages that run. -/
def CDesc.live (x : CDesc) : List Stage := x.stages.take x.nstage
def CDesc.ins (x : CDesc) : List Nat := x.tdIn.take x.nin
def CDesc.outs (x : CDesc) : List Nat := x.tdOut.take x.nout
def CDesc.qcws (x : CDesc) : List QCW := (x.qcw.take x.nout).map QCW.ofNat

/-- The descriptor that gives the chain shape (R170). -/
def CDesc.shapeTD (x : CDesc) (d : FMap W64) : TD := readTD d (if x.nout = 0 then x.tdIn.headD 0 else x.tdOut.headD 0)

/-- The walk operand: the first BSG input, else the first BSG output (R171). -/
def CDesc.walkTD (x : CDesc) (d : FMap W64) : Option TD :=
  ((x.ins ++ x.outs).map (readTD d)).find? TD.isBsg

/-- The operands a stage opcode uses: a, b, c (R174). -/
def sopUses (sop : Nat) : Bool × Bool × Bool :=
  match sop with
  | 0x00 | 0x09 | 0x0A | 0x0C | 0x0D | 0x0E | 0x0F | 0x10 | 0x11 | 0x12 | 0x13 | 0x16 => (true, false, false)
  | 0x01 | 0x02 | 0x03 | 0x05 | 0x06 | 0x07 => (true, true, false)
  | 0x14 => (false, false, false)
  | 0x15 => (true, false, true)
  | _ => (true, true, true)

/-- CVT or QDQ. -/
def Stage.quants (x : Stage) : Bool := x.sop == 0x12 || x.sop == 0x13
/-- UNIF or GUMBEL. -/
def Stage.draws (x : Stage) : Bool := x.sop == 0x14 || x.sop == 0x15
def Stage.srcs (x : Stage) : List Nat := [x.a, x.b, x.c]

/-- A stage breaks R175. -/
def Stage.bad (x : Stage) (n nin : Nat) : Bool :=
  let u := sopUses x.sop
  let q := QCW.ofNat x.imm
  decide (0x1A ≤ x.sop) || (if x.sop = 7 then decide (6 ≤ x.mode) else x.mode != 0)
  || (x.srcs.any fun y => decide (0x18 ≤ y) || (decide (y < 8) && decide (n ≤ y)) || (decide (8 ≤ y) && decide (y < 12) && decide (nin ≤ y - 8)))
  || (!u.1 && x.a != 0x10) || (!u.2.1 && x.b != 0x10) || (!u.2.2 && x.c != 0x10)
  || ((x.srcs.any fun y => y == 0x0C || y == 0x0D) && (x.quants || x.srcs.contains 0x17))
  || (x.quants && (q.bad || q.tileScale == 1))
  || (x.sop == 0x12 && decide (6 ≤ q.dst.code)) || (x.sop == 0x13 && decide (q.dst.code < 3))

/-- Some stage or output of the chain draws from Speckle (R175, R200). -/
def CDesc.draws (x : CDesc) : Bool :=
  (x.live.any fun y => y.draws || (y.quants && (QCW.ofNat y.imm).isSR)) || x.qcws.any QCW.isSR

/-- The chain keeps or reads row state. -/
def CDesc.osm (x : CDesc) : Bool := x.live.any fun y => y.sop == 0x16
def CDesc.readsRows (x : CDesc) : Bool := x.live.any fun y => y.srcs.any fun z => decide (0x14 ≤ z) && decide (z ≤ 0x16)

/-- The fields of a chain descriptor break R175. -/
def CDesc.bad (x : CDesc) (d : FMap W64) : Bool :=
  let outs := (x.outs.map (readTD d)).zip x.qcws
  x.nstage == 0 || decide (8 < x.nstage) || decide (2 ≤ x.prec) || decide (4 < x.nin) || decide (4 < x.nout)
  || (x.nin == 0 && x.nout == 0) || x.part == 3 || x.rsvd
  || ((x.live.mapIdx fun i y => y.bad i x.nin).any id)
  || ((x.osrc.take x.nout).any fun y => decide (x.nstage ≤ y))
  || ((x.qcw.drop x.nout).any fun w => w != 0)
  || (outs.any fun o => o.2.bad || o.2.dst != o.1.fmt || o.2.axis != o.1.baxis || (o.2.tileScale != 0) != o.1.tsen)
  || (x.prec == 1 && (((x.ins ++ x.outs).any fun n => (readTD d n).fmt != .bf16)
        || x.live.any fun y => decide (0x16 ≤ y.sop) && decide (y.sop ≤ 0x19)))
  || decide (1 < (x.live.filter fun y => y.sop == 0x16).length) || (x.osm && x.readsRows) || (x.rinit && !x.osm)
  || (x.sreg != 0 && !x.draws)

/-- A chain names a reserved stream (R204). -/
def CDesc.streamBad (x : CDesc) (q : QOp) : Bool :=
  x.draws && (List.range 12).any fun i => spkReserved ((q.greg x.sreg + i) % 2 ^ 64)

/-- The operands of a chain break R169 to R171, ALIGN or the bounds: the first fault. -/
def State.chainOperands (s : State) (sh : ShadeIx) (d : FMap W64) (x : CDesc) : Option Nat :=
  let shape := (x.shapeTD d).sizes
  let walk := x.walkTD d
  let one (out : Bool) (n : Nat) : Option Nat :=
    let t := readTD d n
    firstCode [s.checkPartTD sh d n (!out) x.part shape walk,
      rsvdIf (t.sizes != shape || gridBad walk t || (out && t.strided))]
  firstCode (x.ins.map (one false) ++ x.outs.map (one true))

/-- The row-state area leaves the pool window (R175). -/
def State.rowsBound (s : State) (sh : ShadeIx) (d : FMap W64) (x : CDesc) : Bool :=
  let shape := (x.shapeTD d).sizes
  (x.osm || x.readsRows) && (s.partPrisms sh x.part).any fun p =>
    let r := s.partRange sh x.part p shape (x.walkTD d)
    let rows := if shape.length < 2 then 1
      else match x.walkTD d with
        | some w => if shape.length = 2 then r.dn else r.rn * w.edge
        | none => r.dn * prodL ((shape.drop 1).take (shape.length - 2))
    decide ((s.poolWin p).2 < x.rowst * 128 + 16 * rows)

/-- The update control word (R184). -/
structure UpdWord where
  slayer : Nat
  slen : Bool
  min : Nat
  mout : Nat
  wout : Nat
  rsvd : Bool
  deriving DecidableEq, Repr

def UpdWord.ofNat (w : Nat) : UpdWord :=
  ⟨bitsOf w 7 0, bitOf w 8, bitsOf w 10 9, bitsOf w 12 11, bitsOf w 14 13, bitsOf w 63 15 != 0⟩

/-- R184 refuses an UPDATE. -/
def UpdWord.bad (u : UpdWord) (d : FMap W64) (x : CDesc) : Bool :=
  u.rsvd || decide (x.nin ≤ u.min) || decide (x.nout ≤ u.mout) || decide (x.nout ≤ u.wout) || u.mout == u.wout
  || (readTD d ((x.tdOut[u.mout]?).getD 0)).fmt != .fp32 || x.prec != 0 || x.osm

/-- The issue check of CHAIN and UPDATE (R145, R147, R175, R184, R204). -/
def State.lensCheck (s : State) (sh : ShadeIx) (q : QOp) (upd : Bool) (cd : Nat) (g : GReg) : Option Nat :=
  let x := readCD q.desc cd
  let u := UpdWord.ofNat (q.greg g.toNat)
  firstCode [
    rsvdIf (x.bad q.desc), rsvdIf (x.streamBad q), s.chainOperands sh q.desc x,
    rsvdIf (upd && u.bad q.desc x),
    (if upd && u.slen then s.slayerCheck sh q.desc u.slayer true lensSpaces (readTD q.desc ((x.tdOut[u.mout]?).getD 0)) else none),
    (if s.rowsBound sh q.desc x then some F_BOUND else none)]

/-! ## The stages (R174, R176 to R178) -/

/-- Round a stage result to the grid of the chain: FP32, or BF16 (R176). -/
def precRound (prec : Nat) (v : Val) : Val :=
  if prec = 1 then Layout.bf16.decode (Layout.bf16.encode .rne true v).code else v.rnd32

/-- The relations of CMP (R174, R48). -/
def cmpHolds (mode : Nat) (a b : Val) : Bool :=
  match mode with
  | 0 => a.lt b
  | 1 => a.le b
  | 2 => a.eqv b
  | 3 => !a.eqv b
  | 4 => b.lt a
  | _ => b.le a

/-- The stage opcodes that need only their operands, before rounding (R174). -/
def plainStage (sop mode : Nat) (a b c : Val) : Val :=
  match sop with
  | 0x00 => a
  | 0x01 => a.add b
  | 0x02 => a.sub b
  | 0x03 => a.mul b
  | 0x04 => (a.mul b).add c
  | 0x05 => a.maxPlain b
  | 0x06 => a.minPlain b
  | 0x07 => if cmpHolds mode a b then .one else .zero
  | 0x08 => if c.isZero then b else a
  | 0x09 => a.abs
  | 0x0A => a.neg
  | 0x0B => (a.maxPlain b).minPlain c
  | 0x0E => Val.one.div32 a
  | 0x17 => (c.mul a).add ((Val.one.sub c).mul b)
  | 0x18 => (c.mul a).add ((Val.one.sub c).mul (b.mul b))
  | _ => .zero

/-- The transcendental stages with a free displacement (R177). -/
def transStage (sop : Nat) (a b c : Val) : Option Val :=
  let key := toF32 a + 2 ^ 32 * toF32 b + 2 ^ 64 * toF32 c
  match sop with
  | 0x0C => some ((exp2Out a).result sop key)
  | 0x0D => some ((log2Out a).result sop key)
  | 0x0F => some ((rsqrtOut a).result sop key)
  | 0x10 => some ((tanhOut a).result sop key)
  | 0x11 => some ((erfOut a).result sop key)
  | 0x19 => some ((adamOut a b c).result sop key)
  | _ => none

/-- The 24 bits a stage draws for an element (R178, R205). -/
def QOp.bits24 (q : QOp) (stream i : Nat) : Nat := spkBits24 q.gen q.seed (BitVec.ofNat 64 stream) (BitVec.ofNat 64 i)
/-- The 16 bits of stochastic rounding for an element. -/
def QOp.srBits (q : QOp) (stream i : Nat) : Nat := spkSR q.gen q.seed (BitVec.ofNat 64 stream) (BitVec.ofNat 64 i)

/-- u of a draw (R178). -/
def unifVal (n : Nat) : Val := .fin false (2 * n + 1) (-25)

/-- UNIF and GUMBEL (R178). -/
def drawStage (sop : Nat) (n : Nat) (a c : Val) : Option Val :=
  match sop with
  | 0x14 => some (unifVal n)
  | 0x15 => some ((a.div32 c).add (gumbel n).rnd32)
  | _ => none

/-- The scale block of an element under a format and axis: within its BSG block, if it has one (R23, R87). -/
def LEl.scaleBlock (x : LEl) (f : Fmt) (axis : Bool) (edge : Nat) : List Nat :=
  let co := if x.blk.isSome then x.co else x.lco
  let n := if x.blk.isSome then min edge f.blockLen else f.blockLen
  if axis then leadOf co ++ [rowOf co / n, colOf co, 1] else leadOf co ++ [rowOf co, colOf co / n, 0]

/-- Quantise the values of a unit and read them back: CVT and QDQ (R174, R176). The list keeps its order. -/
def quantBack (w : QCW) (edge : Nat) (xs : List (LEl × Val × Nat)) : List Val × Tally :=
  let ix := xs.mapIdx fun i x => (i, x)
  let parts := (groupKeys (fun (p : Nat × LEl × Val × Nat) => p.2.1.region) ix).flatMap fun reg =>
    let ts := if w.tileScale = 0 then 0x3C00 else computeTileScale w.dst (maxMag (reg.map fun p => p.2.2.1))
    (groupKeys (fun (p : Nat × LEl × Val × Nat) => p.2.1.scaleBlock w.dst w.axis edge) reg).map fun blk =>
      let runs := if w.dst.scaleKind = .none then blk.map fun p => [p] else [blk]
      runs.map fun r =>
        let b := quantEls w (w.tileScale != 0) ts (r.map fun p => ⟨p.2.1.co, p.2.2.1, p.2.2.2⟩)
        (((r.map Prod.fst).zip (b.els.map fun e =>
            w.dst.value e.code b.scale (if w.tileScale = 0 then .one else tileScaleVal ts))), b.tally)
  let flat := parts.flatten
  let vals := flat.flatMap Prod.fst
  (ix.map fun p => ((vals.find? fun v => v.1 == p.1).map Prod.snd).getD .zero, (flat.map Prod.snd).foldl Tally.add .zero)

/-! ## Row state and the online softmax (R179) -/

/-- A row state entry. -/
structure RowSt where
  m : Nat
  acc : AccPair
  alpha : Nat
  deriving DecidableEq, Repr

/-- The row state that RINIT writes (R179). -/
def RowSt.init : RowSt := ⟨0xFF800000, ⟨0, 0⟩, 0x3F800000⟩

/-- Read a row state entry. -/
def State.rdRow (s : State) (c : Ctx) (base r : Nat) : Except OpFault RowSt := do
  let w ← s.rdSNat c 9 (base + 16 * r) 16
  .ok ⟨bitsOf w 31 0, ⟨BitVec.ofNat 32 (bitsOf w 63 32), BitVec.ofNat 16 (bitsOf w 79 64)⟩, bitsOf w 127 96⟩

/-- Write a row state entry; its reserved half-word is written as 0. -/
def State.wrRow (s : State) (c : Ctx) (base r : Nat) (x : RowSt) : Res :=
  s.wrSN c 9 (base + 16 * r) (leBytes 16 (x.m + x.acc.s.toNat * 2 ^ 32 + x.acc.r.toNat * 2 ^ 64 + x.alpha * 2 ^ 96))

/-- The smallest integer not below a value. -/
def Val.ceil : Val → Val
  | .fin n m e =>
    if 0 ≤ e then .fin n m e
    else
      let d := 2 ^ (-e).toNat
      if n then .fin n (m / d) 0 else .fin n ((m + d - 1) / d) 0
  | v => v

/-- The integer a value stands for. -/
def Val.toInt : Val → Int
  | .fin n m e => sgn n (if 0 ≤ e then m * 2 ^ e.toNat else m / 2 ^ (-e).toNat)
  | _ => 0

/-- 2^(x − y) for running maxima: integers, infinities or NaN (R179). -/
def maxRatio (x y : Val) : Val :=
  if x.isNan || y.isNan then .nan
  else if x.eqv y then .one
  else match x, y with
    | .inf n, _ => if n then .zero else .inf false
    | _, .inf n => if n then .inf false else .zero
    | _, _ => .fin false 1 (x.toInt - y.toInt)

/-- The running sum rescaled by a power of two (R179). -/
def AccPair.rescale (a : AccPair) (k : Val) : AccPair :=
  let s := (f32 a.s.toNat).mul k
  let w := toF32 s
  match s, k with
  | .fin _ _ _, .fin _ m _ =>
    if m = 0 then ⟨BitVec.ofNat 32 w, 0⟩
    else
      let rest := (s.sub (f32 w)).add (((f16 a.r.toNat).scale (ulpExp a.s.toNat)).mul k)
      ⟨BitVec.ofNat 32 w, BitVec.ofNat 16 (toF16 (rest.scale (-(ulpExp w))))⟩
  | _, _ => AccPair.plain w

/-- One segment of a row (R179): the values p and the row state after it. -/
def osmSegment (xs : List Val) (st : RowSt) : List Val × RowSt :=
  let mx := xs.foldl Val.maxPlain (.inf true)
  let m := f32 st.m
  let mn := if mx.isNan || m.isNan then Val.nan
    else if mx = .inf true then m
    else m.maxPlain mx.ceil
  let p := xs.map fun x =>
    if x = .inf true then Val.zero
    else
      let d := (x.sub mn).rnd32
      (exp2Out d).result 0x0C (toF32 d)
  let acc := (chunksOf 8 64 p).foldl (fun (a : AccPair) ch => a.promote (chunkVal true ch)) (st.acc.rescale (maxRatio m mn))
  (p, ⟨toF32 mn, acc, st.alpha⟩)

/-! ## Running a chain in one prism -/

/-- What a chain has done so far in a prism. -/
structure LensAcc where
  tally : Tally
  lt2 : Nat
  els : Nat
  /-- M at the first touch of each row touched -/
  first : List (Nat × Nat)
  /-- rows whose M became NaN -/
  nans : Nat
  /-- parameters that the absurd-update check counts (R163) -/
  absurd : Nat
  deriving DecidableEq, Repr

/-- A chain in one prism: what never changes while it runs. -/
structure LensJob where
  q : QOp
  x : CDesc
  c : Ctx
  shape : List Nat
  range : PartRange
  edge : Nat
  ins : List LView
  outs : List LView
  upd : Option UpdWord
  deriving DecidableEq, Repr

/-- The first row of the part, as a row of the chain shape. -/
def LensJob.row0 (y : LensJob) : Nat :=
  if y.shape.length < 2 then 0 else y.range.d0 * prodL ((y.shape.drop 1).take (y.shape.length - 2))

/-- The row of an element, counted from the first of the prism's part. -/
def LensJob.rowIx (y : LensJob) (e : LEl) : Nat := linIndex y.shape e.co / max 1 ((y.shape.getLast?).getD 1) - y.row0

/-- An element with what has been read for it and the results of its stages so far. -/
structure LVal where
  e : LEl
  ix : Nat
  ins : List Val
  row : Option RowSt
  res : List Val
  deriving DecidableEq, Repr

/-- The value of a stage source for an element (R173). -/
def LensJob.src (y : LensJob) (st : Stage) (v : LVal) (code : Nat) : Val :=
  let g := y.q.greg (st.imm % 64)
  let r (w : Val) : Val := if y.x.prec = 1 then precRound 1 w else w
  let row := v.row.getD RowSt.init
  if code < 8 then (v.res[code]?).getD .zero
  else if code < 12 then (v.ins[code - 8]?).getD .zero
  else match code with
    | 0x0C => r (f32 (g % 2 ^ 32))
    | 0x0D => r (f32 (g / 2 ^ 32))
    | 0x0E => .fin false 1 (sextN 6 y.q.lsc.toNat)
    | 0x0F => .fin false 1 (-(sextN 6 y.q.lsc.toNat))
    | 0x10 => .zero
    | 0x11 => .one
    | 0x12 => r ((Val.ofInt (colOf v.e.co : Nat)).rnd32)
    | 0x13 => r ((Val.ofInt (rowOf v.e.co : Nat)).rnd32)
    | 0x14 => r (f32 row.m)
    | 0x15 => r (row.acc.val.rnd32)
    | 0x16 => r (f32 row.alpha)
    | _ => r (f16 st.imm)

/-- The stream of stage or output number n. -/
def LensJob.stream (y : LensJob) (n : Nat) : Nat := (y.q.greg y.x.sreg + n) % 2 ^ 64

/-- The row state before its first segment: RINIT's, or what stands in the pool. -/
def LensJob.rowBefore (y : LensJob) (s : State) (z : LensAcc) (r : Nat) : Except OpFault RowSt :=
  if y.x.rinit && !(z.first.any fun f => f.1 == r) then .ok RowSt.init else s.rdRow y.c (y.x.rowst * 128) r

/-- One row segment of an OSM stage. -/
def LensJob.osmRow (y : LensJob) (s : State) (z : LensAcc) (xs : List (Nat × LVal × Val)) :
    Res × LensAcc × List (Nat × Val) :=
  match xs with
  | [] => (.ok s, z, [])
  | (_, v0, _) :: _ =>
    let r := y.rowIx v0.e
    match y.rowBefore s z r with
    | .error f => (⟨s, some f⟩, z, [])
    | .ok st =>
      let o := osmSegment (xs.map fun x => x.2.2) st
      let becameNan := (f32 o.2.m).isNan && !(f32 st.m).isNan
      let z := { z with
        first := if z.first.any fun f => f.1 == r then z.first else z.first ++ [(r, st.m)]
        nans := z.nans + b2n becameNan }
      (s.wrRow y.c (y.x.rowst * 128) r o.2, z, (xs.map Prod.fst).zip o.1)

/-- The segments of a unit: the elements of one row in one region or block. -/
def LEl.segment (x : LEl) : List Nat :=
  match x.blk with
  | some b => leadOf x.co ++ [rowOf x.co, b.2]
  | none => leadOf x.co ++ [rowOf x.co, colOf x.co / 64]

/-- Stage n over a unit. -/
def LensJob.stage (y : LensJob) (n : Nat) (st : Stage) (s : State) (z : LensAcc) (vs : List LVal) : Res × LensAcc × List LVal :=
  let a (v : LVal) : Val := y.src st v st.a
  if st.sop = 0x16 then
    let ix := vs.mapIdx fun i v => (i, v, a v)
    let segs := groupKeys (fun (p : Nat × LVal × Val) => p.2.1.e.segment) ix
    let out := segs.foldl (fun (acc : Res × LensAcc × List (Nat × Val)) seg =>
      match acc.1.err with
      | some _ => acc
      | none =>
        let o := y.osmRow acc.1.s acc.2.1 seg
        (o.1, o.2.1, acc.2.2 ++ o.2.2)) (Res.ok s, z, [])
    (out.1, out.2.1, ix.map fun p => { p.2.1 with res := p.2.1.res ++ [((out.2.2.find? fun w => w.1 == p.1).map Prod.snd).getD .zero] })
  else if st.quants then
    let w := QCW.ofNat st.imm
    let o := quantBack w y.edge (vs.map fun v => (v.e, a v, if w.isSR then y.q.srBits (y.stream n) v.ix else 0))
    (.ok s, { z with tally := z.tally.add o.2 },
      (vs.zip o.1).map fun p => { p.1 with res := p.1.res ++ [precRound y.x.prec p.2] })
  else
    (.ok s, z, vs.map fun v =>
      let b := y.src st v st.b
      let c := y.src st v st.c
      let r := match transStage st.sop (a v) b c with
        | some r => r
        | none => match (if st.draws then drawStage st.sop (y.q.bits24 (y.stream n) v.ix) (a v) c else none) with
          | some r => r
          | none => plainStage st.sop st.mode (a v) b c
      { v with res := v.res ++ [precRound y.x.prec r] })

/-- The stages from n on over a unit. -/
def LensJob.stages (y : LensJob) (s : State) (z : LensAcc) (vs : List LVal) : Nat → List Stage → Res × LensAcc × List LVal
  | _, [] => (.ok s, z, vs)
  | n, st :: rest =>
    let o := y.stage n st s z vs
    match o.1.err with
    | some _ => o
    | none => y.stages o.1.s o.2.1 o.2.2 (n + 1) rest

/-- Read the inputs and the row state of an element. -/
def LensJob.read (y : LensJob) (s : State) (e : LEl) : Except OpFault (LVal × Nat) := do
  let ins ← y.ins.foldlM (fun (acc : List RdVal) v => do
    let r ← s.viewVal y.c v e
    .ok (acc ++ [r])) []
  let row ← if y.x.readsRows then do
      let r ← s.rdRow y.c (y.x.rowst * 128) (y.rowIx e)
      .ok (some r)
    else .ok none
  .ok (⟨e, linIndex y.shape e.co, ins.map fun r => r.v, row, []⟩, (ins.filter fun r => r.lt2).length)

/-- The tile scale of a region of an output: 0 for none, the one in the plane, or computed from the region's elements. -/
def LensJob.tileScale (y : LensJob) (s : State) (v : LView) (w : QCW) (xs : List (LEl × Val × Nat)) : Except OpFault Nat :=
  match w.tileScale, xs with
  | 0, _ => .ok 0
  | _, [] => .ok 0
  | 1, x :: _ => match (if v.t.isBsg then v.t.tsAddr x.1.co else v.loc.tsAddr x.1.lco) with
    | none => .ok 0
    | some a => s.rdSNat y.c v.t.space a 2
  | _, xs => .ok (computeTileScale w.dst (maxMag (xs.map fun x => x.2.1)))

/-- Write a region of a dense output. -/
def LensJob.putDense (y : LensJob) (s : State) (v : LView) (w : QCW) (ts : Nat) (xs : List (LEl × Val × Nat)) : Res × Tally :=
  let blks := (groupKeys (fun (p : LEl × Val × Nat) => p.1.scaleBlock w.dst w.axis y.edge) xs).flatMap fun b =>
    if w.dst.scaleKind = .none then b.map fun p => [p] else [b]
  resTally (fun s b => s.putDenseBlock y.c v.loc w ts (b.map fun p => ⟨p.1.lco, p.2.1, p.2.2⟩)) s blks .zero

/-- Write a region of a BSG output: the blocks it holds that are present in the output (R171). -/
def LensJob.putBsg (y : LensJob) (s : State) (v : LView) (w : QCW) (ts : Nat) (xs : List (LEl × Val × Nat)) : Res × Tally :=
  let blks := groupKeys (fun (p : LEl × Val × Nat) => match p.1.blk with
    | none => []
    | some b => [b.1, b.2]) xs
  resTally (fun s b => match (b.head?).bind fun p => p.1.blk with
    | none => (.ok s, .zero)
    | some k => match s.viewSlot y.c v k.1 k.2 with
      | .error f => (⟨s, some f⟩, .zero)
      | .ok none => (.ok s, .zero)
      | .ok (some a) =>
        let o := v.t.quantImg w ts fun r c =>
          (b.find? fun p => rowOf p.1.co % v.t.edge == r && colOf p.1.co % v.t.edge == c).map fun p => ⟨p.1.co, p.2.1, p.2.2⟩
        (s.putImg y.c v.t a o.1, o.2)) s blks .zero

/-- Write output n of a unit. -/
def LensJob.putOut (y : LensJob) (s : State) (n : Nat) (v : LView) (vs : List LVal) : Res × Tally :=
  let w := (y.x.qcws[n]?).getD (QCW.ofNat 0)
  let src := (y.x.osrc[n]?).getD 0
  let xs := vs.map fun u => (u.e, (u.res[src]?).getD .zero, if w.isSR then y.q.srBits (y.stream (8 + n)) u.ix else 0)
  resTally (fun s reg => match y.tileScale s v w reg with
    | .error f => (⟨s, some f⟩, .zero)
    | .ok ts =>
      let o := if v.t.isBsg then y.putBsg s v w ts reg else y.putDense s v w ts reg
      let at' := (reg.head?).bind fun x => if v.t.isBsg then v.t.tsAddr x.1.co else v.loc.tsAddr x.1.lco
      if w.tileScale = 2 then
        (o.1.andThen fun s => match at' with
          | none => .ok s
          | some a => s.wrSN y.c v.t.space a (leBytes 2 ts), o.2)
      else o) s (groupKeys (fun (p : LEl × Val × Nat) => p.1.region) xs) .zero

/-! ## UPDATE (R163, R185) -/

/-- The absurd-update check of one element (R163). -/
def absurdCheck (mult eps old new : Val) : Bool :=
  let dw := new.sub old
  dw.isNan || ((mult.mul old.abs).add eps).lt dw.abs

/-- The parameters of a unit that the check counts. -/
def LensJob.absurds (y : LensJob) (s : State) (u : UpdWord) (vs : List LVal) : Nat :=
  let r := s.getR .safe (shInst y.c.sh) 0x114
  (vs.filter fun v => absurdCheck (f16 (bitsOf r 15 0)) (f16 (bitsOf r 31 16)) ((v.ins[u.min]?).getD .zero)
    ((v.res[(y.x.osrc[u.mout]?).getD 0]?).getD .zero)).length

/-- Write the B shadow of a list of master values (R147). -/
def LensJob.shadow (y : LensJob) (s : State) (u : UpdWord) (xs : List (List Nat × Val)) : Res :=
  let d := y.q.desc
  if u.slen && layerUen d u.slayer then
    let t := readTD d (layerBsh d u.slayer)
    resFold (fun s x =>
      let strip := colOf x.1 / 64
      if s.sampled y.c.sh u.slayer true strip then
        s.shadowWrite y.c t (shadowSlot d u.slayer true strip) (rowOf x.1) (colOf x.1 % 64) x.2
      else .ok s) s xs
  else .ok s

/-- The B shadow of blocks absent in the epoch of the working weight: +0 (R147). -/
def LensJob.shadowAbsent (y : LensJob) (s : State) (u : UpdWord) : Res :=
  match y.outs[u.wout]? with
  | none => .ok s
  | some v =>
    if !v.t.isBsg then .ok s
    else resFold (fun s b => Res.withRead s (s.viewSlot y.c v b.1 b.2) fun o => match o with
        | some _ => .ok s
        | none => y.shadow s u ((v.t.blockEls y.range.d0 b.1 b.2).map fun e => (e.co, .zero))) s
      ((List.range y.range.rn).flatMap fun i => (List.range v.t.bcols).map fun j => (y.range.r0 + i, j))

/-- Blocks present only in the next epoch of a carried output are written as all +0 (R131). -/
def LensJob.carry (y : LensJob) (s : State) (v : LView) : Res :=
  if v.t.moen && v.t.esel && y.ins.any fun i => i.t.moen && !i.t.esel && i.t.mo == v.t.mo then
    let cur : LView := { v with e := 1 - v.e }
    resFold (fun s b => Res.withRead s (s.viewSlot y.c v b.1 b.2) fun o => match o with
      | none => .ok s
      | some a => Res.withRead s (s.findSlot y.c cur.t cur.m cur.e b.1 b.2) fun k => match k with
        | some _ => .ok s
        | none => s.putImg y.c v.t a v.t.zeroImg) s
      ((List.range y.range.rn).flatMap fun i => (List.range v.t.bcols).map fun j => (y.range.r0 + i, j))
  else .ok s

/-- One unit: read, run the stages, write the outputs. -/
def LensJob.unit (y : LensJob) (s : State) (z : LensAcc) (els : List LEl) : Res × LensAcc :=
  match els.foldlM (fun (acc : List LVal × Nat) e => do
      let r ← y.read s e
      .ok (acc.1 ++ [r.1], acc.2 + r.2)) (([], 0) : List LVal × Nat) with
  | .error f => (⟨s, some f⟩, z)
  | .ok (vs, lt2) =>
    let o := y.stages s { z with lt2 := z.lt2 + lt2, els := z.els + vs.length } vs 0 y.x.live
    match o.1.err with
    | some _ => (o.1, o.2.1)
    | none =>
      let vs := o.2.2
      let w := resTally (fun s (p : LView × Nat) => y.putOut s p.2 p.1 vs) o.1.s y.outs.zipIdx .zero
      let z := { o.2.1 with tally := o.2.1.tally.add w.2 }
      match y.upd with
      | none => (w.1, z)
      | some u => (w.1.andThen fun s => y.shadow s u (vs.map fun v => (v.e.co, (v.res[(y.x.osrc[u.mout]?).getD 0]?).getD .zero)),
          { z with absurd := z.absurd + y.absurds s u vs })

/-- The units of a part in turn. -/
def LensJob.units (y : LensJob) : State → LensAcc → List (List LEl) → Res × LensAcc
  | s, z, [] => (.ok s, z)
  | s, z, u :: us =>
    let o := y.unit s z u
    match o.1.err with
    | some _ => o
    | none => y.units o.1.s o.2 us

/-- ALPHA of every row touched (R179). -/
def LensJob.alphas (y : LensJob) (s : State) (z : LensAcc) : Res :=
  resFold (fun s f => Res.withRead s (s.rdRow y.c (y.x.rowst * 128) f.1) fun st =>
    s.wrRow y.c (y.x.rowst * 128) f.1 { st with alpha := toF32 (maxRatio (f32 f.2) (f32 st.m)) }) s z.first

/-- A bit of LENS_ERR, with the chain descriptor of the first error since all were clear (R193). -/
def State.lensErr (s : State) (p cd bit : Nat) : State :=
  (if s.getF .lens p 0x104 1 0 = 0 then s.setF .lens p 0x104 13 8 cd else s).setErr .lens p p 0x104 (2 ^ bit)

/-- What a chain counts in its prism. -/
def State.lensCount (s : State) (sh : ShadeIx) (p cd : Nat) (upd : Option UpdWord) (z : LensAcc) : State :=
  let s := s.countConv sh p 8 (upd.bind fun u => if u.slen then some u.slayer else none) false z.tally
  let s := (s.countUnits .lens p 3 z.els).count .lens p 0xA z.lt2
  let s := if z.nans = 0 then s else (s.lensErr p cd 1).count .lens p 8 z.nans
  let i := shInst sh
  let s := s.satAdd .safe i 0x11C 31 0 z.absurd
  if s.getR .safe i 0x118 < s.getR .safe i 0x11C ∧ 0 < z.absurd then s.orR .safe i 0x104 4 else s

/-- The chain in one prism, from its views. -/
def LensJob.run (y : LensJob) (s : State) (walk : Option LView) (band : Bool) : Res × LensAcc :=
  match s.visit y.c y.shape walk y.range band with
  | .error f => (⟨s, some f⟩, ⟨.zero, 0, 0, [], 0, 0⟩)
  | .ok us =>
    let o := y.units s ⟨.zero, 0, 0, [], 0, 0⟩ us
    let r := o.1.andThen fun s => y.alphas s o.2
    match y.upd with
    | none => (r, o.2)
    | some u => ((r.andThen fun s => resFold y.carry s y.outs).andThen fun s => y.shadowAbsent s u, o.2)

/-- A tile scale is computed over a region that several blocks share. -/
def CDesc.band (x : CDesc) (edge : Nat) : Bool :=
  decide (edge < 64) && ((x.qcws.any fun w => w.tileScale == 2) || x.live.any fun y => y.quants && (QCW.ofNat y.imm).tileScale == 2)

/-- Views of a list of operands. -/
def State.views (s : State) (c : Ctx) (q : QOp) (part : Nat) (r : PartRange) (ns : List Nat) : Except OpFault (List LView) :=
  ns.foldlM (fun (acc : List LView) n => do
    let v ← s.lview c q n part r
    .ok (acc ++ [v])) []

/-- CHAIN or UPDATE in one prism. -/
def State.lensPrism (s : State) (sh : ShadeIx) (q : QOp) (cd : Nat) (upd : Option UpdWord) (p : Nat) : Res :=
  let x := readCD q.desc cd
  let c : Ctx := ⟨sh, p, 0, q.g⟩
  let shape := (x.shapeTD q.desc).sizes
  let walk := x.walkTD q.desc
  let r := s.partRange sh x.part p shape walk
  match s.views c q x.part r x.ins, s.views c q x.part r x.outs with
  | .error f, _ => ⟨s, some f⟩
  | _, .error f => ⟨s, some f⟩
  | .ok ins, .ok outs =>
    let edge := match walk with
      | none => 64
      | some w => w.edge
    let y : LensJob := ⟨q, x, c, shape, r, edge, ins, outs, upd⟩
    let o := y.run s ((ins ++ outs).find? fun v => v.t.isBsg) (walk.isSome && x.band edge)
    ⟨o.1.s.lensCount sh p cd upd o.2, o.1.err⟩

/-- LENS_STATUS after an operation in a context (R193). -/
def State.lensStatus (s : State) (p ctx cd : Nat) : State :=
  if ctx = 0 then s.setF .lens p 0x100 7 2 cd else s.setF .lens p 0x100 13 8 cd

/-- CHAIN (R172 to R183) and UPDATE (R184, R185): each prism of the PART in turn. An UPDATE issued under SKIP writes nothing (R159). -/
def State.lensRun (s : State) (sh : ShadeIx) (q : QOp) (upd : Bool) (cd : Nat) (g : GReg) : Res :=
  if upd && q.skip then .ok (s.count .safe (s.leadP sh) 8 1)
  else
    let u := if upd then some (UpdWord.ofNat (q.greg g.toNat)) else none
    let ps := s.partPrisms sh (readCD q.desc cd).part
    (resFold (fun s p => (s.lensStatus p (if q.slot = 5 then 0 else 1) cd).lensPrism sh q cd u p) s ps).andThen fun s =>
      .ok (ps.foldl (fun s p => s.count .lens p (if upd then 2 else 1) 1) s)

end Sys2Proof.Machine
end

