-- ==== Sys2Proof/Machine/Focus.lean ====
section
/-! DEFINITION. The Focus (chapter 06, R186 to R192): reductions of whole tensors by segment: ARGMAX, ARGMIN, TOPK, SUM and NORM2. -/

namespace Sys2Proof.Machine

/-- The Focus control word (R187). -/
structure FCW where
  seg : Nat
  bsz : Nat
  k : Nat
  abs : Bool
  low : Bool
  sq : Bool
  sqrt : Bool
  ofmt : Nat
  part : Nat
  rsvd : Bool
  deriving DecidableEq, Repr

def FCW.ofNat (w : Nat) : FCW :=
  ⟨bitsOf w 2 0, bitsOf w 4 3, bitsOf w 11 5, bitOf w 12, bitOf w 13, bitOf w 14, bitOf w 15, bitsOf w 17 16, bitsOf w 19 18,
   bitsOf w 63 20 != 0⟩

/-- SUM or NORM2. -/
def focusSums : FocusOpc → Bool
  | .sum | .norm2 => true
  | _ => false

/-- The fields of a control word break R188. -/
def FCW.bad (w : FCW) (o : FocusOpc) (bsg : Bool) : Bool :=
  decide (4 ≤ w.seg) || w.ofmt == 3 || w.part == 3 || w.rsvd
  || (if w.seg = 3 && !bsg then w.bsz == 0 else w.bsz != 0)
  || (if o = .topk then w.k == 0 || decide (64 < w.k) else w.k != 0)
  || (w.low && o != .topk) || (w.sq && o != .sum) || (w.sqrt && !focusSums o)
  || (w.abs && o == .norm2) || (w.abs && w.sq) || (w.ofmt == 2 && !focusSums o)

/-- The block edge of SEG = BLOCK. -/
def FCW.edge (w : FCW) (t : TD) : Nat :=
  if t.isBsg then t.edge else match w.bsz with
    | 1 => 16 | 2 => 32 | _ => 64

/-- The segment grid of an input shape (R189); a grid without dimensions is one entry. -/
def segGrid (w : FCW) (edge : Nat) (shape : List Nat) : List Nat :=
  let n := shape.length
  let rows := if n < 2 then 1 else (shape[n - 2]?).getD 1
  let cols := (shape.getLast?).getD 1
  match w.seg with
  | 0 => [1]
  | 1 => if n < 2 then [1] else shape.dropLast
  | 2 => if n < 2 then shape else shape.take (n - 2) ++ [cols]
  | _ => shape.take (n - 2) ++ [ceilDiv rows edge, ceilDiv cols edge]

/-- The segment of an element. -/
def segOf (w : FCW) (edge : Nat) (lco : List Nat) : List Nat :=
  match w.seg with
  | 0 => [0]
  | 1 => if lco.length < 2 then [0] else lco.dropLast
  | 2 => if lco.length < 2 then lco else leadOf lco ++ [colOf lco]
  | _ => leadOf lco ++ [rowOf lco / edge, colOf lco / edge]

/-- A shape with its last dimension doubled. -/
def doubleLast (l : List Nat) : List Nat := l.dropLast ++ [2 * (l.getLast?).getD 1]

/-- The shape of the value output: the grid, a last dimension of K for TOPK, doubled for PAIR (R189). -/
def valueShape (o : FocusOpc) (w : FCW) (grid : List Nat) : List Nat :=
  let g := if o = .topk then grid ++ [w.k] else grid
  if w.ofmt = 2 then doubleLast g else g
/-- The shape of the index output. -/
def indexShape (o : FocusOpc) (w : FCW) (grid : List Nat) : List Nat := doubleLast (if o = .topk then grid ++ [w.k] else grid)

/-- The format of the value output. -/
def FCW.outFmt (w : FCW) : Fmt := if w.ofmt = 1 then .fp16 else .fp32

/-- A dense descriptor with another shape. -/
def TD.shaped (t : TD) (shape : List Nat) : TD := { t with sizes6 := shape }

/-- The shape of a prism's own part of an input. -/
def partShape (shape : List Nat) (r : PartRange) : List Nat := r.dn :: shape.tail

/-- The issue check of a Focus operation (R188, R189). -/
def State.focusCheck (s : State) (sh : ShadeIx) (q : QOp) (o : FocusOpc) (a : FocusArgs) : Option Nat :=
  let w := FCW.ofNat (q.greg a.g.toNat)
  let t := readTD q.desc a.tdi.toNat
  let v := readTD q.desc a.tdv.toNat
  let x := readTD q.desc a.tdx.toNat
  let walk := if t.isBsg then some t else none
  let grid (p : Nat) : List Nat := segGrid w (w.edge t) (partShape t.sizes (s.partRange sh w.part p t.sizes walk))
  let full := segGrid w (w.edge t) t.sizes
  let out (n : Nat) (shape : List Nat → List Nat) : Option Nat :=
    s.checkTDWith sh q.desc n lensSpaces false (s.partPrisms sh w.part) fun t p => (t.shaped (shape (grid p)), none)
  firstCode [
    rsvdIf (w.bad o t.isBsg),
    s.checkPartTD sh q.desc a.tdi.toNat true w.part t.sizes walk,
    rsvdIf (v.isBsg || v.fmt != w.outFmt || v.sizes != valueShape o w full),
    out a.tdv.toNat (valueShape o w),
    (if focusSums o then none else
      firstCode [rsvdIf (x.isBsg || x.fmt != .fp32 || x.sizes != indexShape o w full), out a.tdx.toNat (indexShape o w)])]

/-! ## Reductions -/

/-- An element of a segment: its logical element index and its value. -/
structure FEl where
  ix : Nat
  v : Val
  deriving DecidableEq, Repr

/-- The value an element is ranked by (R190). -/
def FCW.key (w : FCW) (v : Val) : Val := if w.abs then v.abs else v

/-- x ranks before y: by value, equal ranks by lower index (R190). -/
def FCW.before (w : FCW) (low : Bool) (x y : FEl) : Bool :=
  let rk := if low then rankLow else rankHigh
  rk (w.key x.v) (w.key y.v) || (!rk (w.key y.v) (w.key x.v) && decide (x.ix < y.ix))

/-- Insert by rank, keeping the first k. -/
def FCW.insert (w : FCW) (low : Bool) (k : Nat) (x : FEl) : List FEl → List FEl
  | [] => [x]
  | y :: ys => if w.before low x y then (x :: y :: ys).take k else y :: w.insert low (k - 1) x ys

/-- The k elements of highest rank, in rank order. -/
def FCW.top (w : FCW) (low : Bool) (k : Nat) (xs : List FEl) : List FEl :=
  xs.foldl (fun acc x => (w.insert low k x acc).take k) []

/-- What fills a slot beyond the elements of a segment (R189). -/
def emptySel (low : Bool) : FEl := ⟨2 ^ 64 - 1, .inf (!low)⟩

/-- A term of SUM or NORM2, exact (R191). -/
def FCW.term (w : FCW) (o : FocusOpc) (v : Val) : Val :=
  if o = .norm2 || w.sq then v.mul v else if w.abs then v.abs else v

/-- The compensated sum of a segment: chunks of 8 terms in visit order, each promoted into a pair (R191). -/
def sumPair (ts : List Val) : AccPair :=
  (chunksOf 8 (ts.length + 1) ts).foldl (fun (a : AccPair) ch => a.promote (chunkVal true ch)) ⟨0, 0⟩

/-- A square root with its inexactness kept below every format's last bit. -/
def Val.sqrtSticky : Val → Val
  | .fin n m e =>
    match (Val.fin n m e).sqrtHi with
    | .fin _ r x => .fin n (2 * r + (if (Val.fin false (r * r) (2 * x)).eqv (.fin false m e) then 0 else 1)) (x - 1)
    | v => v
  | v => v.sqrtHi

/-- The entries of one segment's value output as codes, and its saturations. -/
structure FOut where
  vals : List Nat
  ixs : List Nat
  sat : Nat
  /-- the result of NORM2 is infinite or NaN (R186) -/
  norm : Bool
  deriving DecidableEq, Repr

/-- A selected value in the output format (R187). -/
def FCW.code (w : FCW) (v : Val) : Enc := if w.ofmt = 1 then Layout.f16.encode .rne false v else .plain (toF32 v)

/-- Reduce one segment. -/
def focusSegment (o : FocusOpc) (w : FCW) (xs : List FEl) : FOut :=
  if focusSums o then
    let a := sumPair (xs.map fun x => w.term o x.v)
    let v := if w.sqrt then a.val.sqrtSticky else a.val
    let bad := o == .norm2 && !a.val.rnd32.isFinite
    if w.ofmt = 2 then
      let p : AccPair := if w.sqrt then (⟨0, 0⟩ : AccPair).promote v else a
      ⟨[p.s.toNat, p.r.toNat], [], 0, bad⟩
    else
      let e := w.code v
      ⟨[e.code], [], b2n e.sat, bad⟩
  else
    let low := w.low || o == .argmin
    let k := if o = .topk then w.k else 1
    let sel := w.top low k xs
    let sel := sel ++ List.replicate (k - sel.length) (emptySel low)
    let es := sel.map fun x => w.code x.v
    ⟨es.map fun e => e.code, sel.map fun x => x.ix, (es.filter fun e => e.sat).length, false⟩

/-- Write words of 32 bits, or of the value's width, along the last dimension of a dense output. -/
def State.putWords (s : State) (c : Ctx) (t : TD) (co : List Nat) (ws : List Nat) : Res :=
  resFold (fun s (p : Nat × Nat) => s.wrBits c t.space (t.denseLoc (co.dropLast ++ [(co.getLast?).getD 0 + p.2])).bit t.fmt.width p.1) s
    ws.zipIdx

/-- Write the outputs of a segment. -/
def State.focusPut (s : State) (c : Ctx) (o : FocusOpc) (w : FCW) (v x : TD) (seg : List Nat) (y : FOut) : Res :=
  let at' (d : Nat) : List Nat := if o = .topk then seg ++ [0] else seg.dropLast ++ [d * (seg.getLast?).getD 0]
  (s.putWords c v (at' (if w.ofmt = 2 then 2 else 1)) y.vals).andThen fun s =>
    if focusSums o then .ok s else s.putWords c x (at' 2) (y.ixs.flatMap fun i => [i % 2 ^ 32, i / 2 ^ 32])

/-- The inputs of a part in visit order: local coordinates and elements; and reserved LT2 codes. -/
def State.focusRead (s : State) (c : Ctx) (v : LView) (els : List LEl) : Except OpFault (List (List Nat × FEl) × Nat) :=
  els.foldlM (fun (acc : List (List Nat × FEl) × Nat) e => do
    let r ← s.viewVal c v e
    .ok (acc.1 ++ [(e.lco, ⟨linIndex v.t.sizes e.co, r.v⟩)], acc.2 + b2n r.lt2)) ([], 0)

/-- A Focus operation in one prism. -/
def State.focusPrism (s : State) (sh : ShadeIx) (q : QOp) (o : FocusOpc) (a : FocusArgs) (p : Nat) : Res :=
  let w := FCW.ofNat (q.greg a.g.toNat)
  let t := readTD q.desc a.tdi.toNat
  let c : Ctx := ⟨sh, p, 0, q.g⟩
  let walk := if t.isBsg then some t else none
  let r := s.partRange sh w.part p t.sizes walk
  let grid := segGrid w (w.edge t) (partShape t.sizes r)
  let v := (readTD q.desc a.tdv.toNat).shaped (valueShape o w grid)
  let x := (readTD q.desc a.tdx.toNat).shaped (indexShape o w grid)
  let cfg := if focusSums o then s.getF .focus p 0x100 1 1 else b2n (o == .topk)
  match (do
    let view ← s.lview c q a.tdi.toNat w.part r
    let us ← s.visit c t.sizes (walk.map fun _ => view) r false
    s.focusRead c view us.flatten) with
  | .error f => ⟨s, some f⟩
  | .ok (xs, lt2) =>
    let s := if cfg = s.getF .focus p 0x100 1 1 then s else (s.setF .focus p 0x100 1 1 cfg).countSpan .focus p 4 32
    let segs := if w.seg = 3 && t.isBsg then ((xs.map fun y => segOf w (w.edge t) y.1).eraseDups) else allCoords grid
    let run := segs.map fun g => (g, focusSegment o w ((xs.filter fun y => segOf w (w.edge t) y.1 == g).map Prod.snd))
    let nan := xs.any fun y => y.2.v.isNan
    let sat : Nat := (run.map fun y => y.2.sat).foldl (fun a b => a + b) 0
    (resFold (fun s y => s.focusPut c o w v x y.1 y.2) s run).andThen fun s =>
      let s := ((s.countUnits .focus p 2 xs.length).count .focus p 3 segs.length).count .focus p 0xA lt2
      let s := match nan, a.tok with
        | true, some k => (s.orR .focus p (if k.toNat < 32 then 0x104 else 0x108) (2 ^ (k.toNat % 32))).count .focus p 7 1
        | true, none => s.count .focus p 7 1
        | false, _ => s
      let s := if sat = 0 then s else (s.setErr .focus p p 0x10C 2).count .focus p 8 sat
      let s := if run.any fun y => y.2.norm then s.orR .safe (shInst sh) 0x104 2 else s
      .ok (s.count .focus p 1 1)

/-- A Focus operation: each prism of the PART in turn (R186 to R192). -/
def State.focusRun (s : State) (sh : ShadeIx) (q : QOp) (o : FocusOpc) (a : FocusArgs) : Res :=
  resFold (fun s p => s.focusPrism sh q o a p) s (s.partPrisms sh (FCW.ofNat (q.greg a.g.toNat)).part)

end Sys2Proof.Machine
end

