-- ==== Sys2Proof/Machine/Speckle.lean ====
section
/-! DEFINITION. Speckle (chapter 07): SEED and SEED.FRESH (R199 to R203), DRAW (R207, R208) and the noise source (R210 to R212). -/

namespace Sys2Proof.Machine

/-! ## Seeds -/

/-- Load the shade's seed and generator; until the first step boundary after shade reset the sampling seed follows (R199). -/
def State.loadSeed (s : State) (sh : ShadeIx) (seed : W64) (gen : Bool) : State :=
  let i := shInst sh
  let s := (s.setR64 .speckle i 0x100 seed.toNat).setF .speckle i 0x108 0 0 (b2n gen)
  if (s.sh sh).saf.stepped then s
  else s.modSh sh fun x => { x with saf := { x.saf with sampSeed := seed, sampGen := gen } }

/-- GEN of a shade. -/
def State.gen (s : State) (sh : ShadeIx) : Bool := s.bitR .speckle (shInst sh) 0x108 0

/-- SEED (R201). -/
def State.seedRun (s : State) (sh : ShadeIx) (q : QOp) (g : GReg) (gen : Bool) : State :=
  s.loadSeed sh (BitVec.ofNat 64 (q.greg g.toNat)) gen

/-- SEED.FRESH commands of the epoch: served, running and waiting. -/
def ShadeSt.freshIssued (x : ShadeSt) : Nat :=
  let isFresh (q : QOp) : Bool := match q.op with
    | .spk (.seedFresh _ _ _) => true
    | _ => false
  x.saf.freshUsed + (x.queue.filter isFresh).length + (x.running.filter fun r => isFresh r.q).length

/-- The issue check of SEED.FRESH: a ninth in one epoch (R203). -/
def State.freshCheck (s : State) (sh : ShadeIx) : Option Nat := rsvdIf (decide (8 ≤ (s.sh sh).freshIssued))

/-- The SEED.FRESH that runs in a shade, if one does. -/
def ShadeSt.freshRunning (x : ShadeSt) : Option (QOp × GReg) :=
  x.running.findSome? fun r => match r.done, r.q.op with
    | false, .spk (.seedFresh g _ _) => some (r.q, g)
    | _, _ => none

/-- SEED.FRESH begins to wait for the pool, behind those of other shades (R202, R211). -/
def State.freshStart (s : State) (sh : ShadeIx) : State :=
  { s with noise := { s.noise with waiting := s.noise.waiting ++ [sh] } }

/-- The shades that still wait for a seed, in order. -/
def State.freshWaiting (s : State) : List ShadeIx := s.noise.waiting.filter fun sh => (s.sh sh).freshRunning.isSome

/-- The first logged seed not yet taken again in this epoch (R203). -/
def takeLogged : List FreshLog → Option (W64 × List FreshLog)
  | [] => none
  | f :: l =>
    if f.used then (takeLogged l).map fun r => (r.1, f :: r.2) else some (f.seed, { f with used := true } :: l)

/-- A seed reaches a SEED.FRESH: its register, the shade's seed, GEN as it was; its token is released (R202). -/
def State.freshServe (s : State) (sh : ShadeIx) (q : QOp) (g : GReg) (seed : W64) : State :=
  let s := (s.loadSeed sh seed (s.gen sh)).modSh sh fun x =>
    { x with saf := { x.saf with freshUsed := x.saf.freshUsed + 1 }, lan := { x.lan with g := x.lan.g.set g.toNat seed } }
  let s := s.finishNow sh q
  let s := { s with noise := { s.noise with waiting := s.noise.waiting.erase sh } }
  s.count .speckle (s.leadP sh) 3 1

/-- SEED.FRESH completes (R202, R203): after a rollback from the log, else from the pool when it holds a seed and no SEED.FRESH of
another shade is ahead; then one SEED record is written. -/
def State.freshComplete (s : State) (sh : ShadeIx) : State :=
  match (s.sh sh).freshRunning with
  | none => s
  | some (q, g) =>
    match takeLogged (s.sh sh).saf.fresh with
    | some (seed, log) =>
      ((s.modSh sh fun x => { x with saf := { x.saf with fresh := log } }).freshServe sh q g seed).count .speckle (s.leadP sh) 5 1
    | none =>
      match s.noise.pool, s.freshWaiting.head? with
      | seed :: rest, some first =>
        if first = sh then
          let s := { s with noise := { s.noise with pool := rest } }.setF .noise 0 0x100 8 4 rest.length
          let s := s.modSh sh fun x => { x with saf := { x.saf with fresh := x.saf.fresh ++ [⟨seed, true⟩] } }
          (s.freshServe sh q g seed).shadeRecord sh 0x02
            [seed.toNat, s.getR64 .safe (shInst sh) 0x120, q.baddr % 16384]
        else s
      | _, _ => s

/-! ## DRAW (R207, R208) -/

/-- The cosine of a fixed-point number, by its series. -/
def cosSeries (x2 : Int) : Nat → Int → Nat → Int
  | 0, _, _ => 0
  | n + 1, term, k => term + cosSeries x2 n (-(fixMul term x2) / ((k + 1) * (k + 2) : Nat)) (k + 2)

/-- z = √(−2 ln u1) × cos(2π u2), to well over 100 bits (R207). -/
def normalZ (n1 n2 : Nat) : Val :=
  let l := -(lnFix (2 * n1 + 1) (2 ^ 25))
  let r := (fixVal (2 * l)).sqrtHi.toFix
  let x := piFix * (2 * n2 + 1 : Nat) / 2 ^ 24
  fixVal (fixMul r (cosSeries (fixMul x x) 80 fixOne 0))

/-- z within 2 ulp of FP32: a function of the bits alone. -/
def normalDraw (n1 n2 : Nat) : Val := (TransOut.near (normalZ n1 n2) 2).result 0x40 (n1 + 2 ^ 24 * n2)

/-- The floor of a non-negative value. -/
def Val.floorV : Val → Val
  | .fin n m e => if 0 ≤ e then .fin n m e else .fin n (m / 2 ^ (-e).toNat) 0
  | v => v

/-- The code of one drawn element and whether it saturated. -/
def drawCode (q : QOp) (f : Fmt) (kind : Nat) (p0 p1 : Val) (stream i : Nat) : Enc :=
  let w := speckle q.gen q.seed (BitVec.ofNat 64 stream) (BitVec.ofNat 64 i)
  let b0 := w.x0.toNat / 2 ^ 8
  let b1 := w.x1.toNat / 2 ^ 8
  match kind with
  | 0 => .plain w.x0.toNat
  | 1 => f.plainEnc false (unifVal b0)
  | 2 => f.plainEnc false (if (Val.ofInt (b0 : Nat)).lt ((p0.scale 24).floorV) then p1 else .zero)
  | _ => f.plainEnc false ((p0.add (p1.mul (normalDraw b0 b1))).rnd32)

/-- The issue check of DRAW (R208). -/
def State.drawCheck (s : State) (sh : ShadeIx) (q : QOp) (g : GReg) (td : Nat) : Option Nat :=
  let w := q.greg g.toNat
  let kind := bitsOf w 2 0
  let part := bitsOf w 4 3
  let ps := q.greg (g.toNat + 2)
  let p0 := f32 (bitsOf ps 31 0)
  let t := readTD q.desc td
  let walk := if t.isBsg then some t else none
  firstCode [
    rsvdIf (decide (4 ≤ kind) || part == 3 || bitsOf w 63 5 != 0
      || (if kind = 0 then t.fmt != .fp32 else decide (3 ≤ t.fmt.code))
      || (decide (kind ≤ 1) && ps != 0)
      || (kind == 2 && !(Val.zero.le p0 && p0.le .one))
      || spkReserved (q.greg (g.toNat + 1)) || (t.isBsg && t.strided)),
    s.checkPartTD sh q.desc td false part t.sizes walk]

/-- DRAW in one prism. -/
def State.drawPrism (s : State) (sh : ShadeIx) (q : QOp) (g : GReg) (td p : Nat) : Res :=
  let w := q.greg g.toNat
  let ps := q.greg (g.toNat + 2)
  let t := readTD q.desc td
  let c : Ctx := ⟨sh, p, 0, q.g⟩
  let walk := if t.isBsg then some t else none
  let r := s.partRange sh (bitsOf w 4 3) p t.sizes walk
  match (do
    let v ← s.lview c q td (bitsOf w 4 3) r
    let us ← s.visit c t.sizes (walk.map fun _ => v) r false
    .ok (v, us.flatten) : Except OpFault (LView × List LEl)) with
  | .error f => ⟨s, some f⟩
  | .ok (v, els) =>
    let o := resTally (fun s e => match s.viewLoc c v e with
      | .error f => (⟨s, some f⟩, .zero)
      | .ok none => (.ok s, .zero)
      | .ok (some l) =>
        let x := drawCode q t.fmt (bitsOf w 2 0) (f32 (bitsOf ps 31 0)) (f32 (bitsOf ps 63 32)) (q.greg (g.toNat + 1)) (linIndex t.sizes e.co)
        (s.wrBits c t.space l.bit t.fmt.width x.code, ⟨b2n x.sat, b2n x.unf, false, 0, 1⟩)) s els .zero
    let s := o.1.s.countConv sh p 8 none false o.2
    ⟨(s.countUnits .speckle p 2 o.2.n).count .speckle p 1 (if o.1.err.isNone then 1 else 0), o.1.err⟩

/-- DRAW: each prism of the PART in turn. -/
def State.drawRun (s : State) (sh : ShadeIx) (q : QOp) (g : GReg) (td : Nat) : Res :=
  resFold (fun s p => s.drawPrism sh q g td p) s (s.partPrisms sh (bitsOf (q.greg g.toNat) 4 3))

/-! ## The noise source (R210 to R212) -/

/-- What one sample does to an oscillator: its new state, and whether the repetition count or the adaptive proportion test
failed. -/
def Osc.sample (o : Osc) (b : Bool) : Osc × Bool × Bool :=
  let run := if o.run ≠ 0 && o.last == b then o.run + 1 else 1
  let first := if o.pos = 0 then b else o.first
  let same := if o.pos = 0 then 1 else o.same + b2n (b == first)
  let rct := decide (41 ≤ run)
  let apt := decide (795 ≤ same)
  if rct || apt then
    ({ o with used := false, excl := true, left := 1024, run := 0, pos := 0, same := 0, fails := o.fails + 1 }, rct, apt)
  else
    let left := o.left - 1
    ({ o with used := left == 0, excl := o.excl && left != 0, left := left, last := b, run := run, first := first, same := same,
              pos := (o.pos + 1) % 1024 }, false, false)

/-- An oscillator stays out after its third failure since device reset (R212). -/
def Osc.out (o : Osc) : Bool := decide (3 ≤ o.fails)

/-- A raw bit enters the conditioning block; 1,024 of them give four seeds (R211), of which the pool takes what it has room for. -/
def NoiseSt.feed (n : NoiseSt) (b : Bool) : NoiseSt :=
  let block := n.block + b2n b * 2 ^ n.bits
  if n.bits + 1 < 1024 then { n with block := block, bits := n.bits + 1 }
  else
    let h := Config.hashDf block
    let seeds := (List.range 4).map fun i => h.extractLsb' (64 * i) 64
    { n with block := 0, bits := 0, pool := n.pool ++ seeds.take (16 - n.pool.length) }

/-- One oscillator is sampled. -/
def State.sampleOsc (s : State) (i : Fin 4) (b : Bool) : State :=
  let o := s.noise.osc[i]
  if o.out then s
  else
    let r := o.sample b
    let n := { s.noise with osc := s.noise.osc.set i.val r.1 }
    if r.2.1 || r.2.2 then
      ({ s with noise := { n with block := 0, bits := 0 } }).setErr .noise 0 0 0x104
        (b2n r.2.1 * 2 ^ i.val + b2n r.2.2 * 2 ^ (4 + i.val))
    else { s with noise := if o.used then n.feed b else n }

/-- NOISE_STATUS follows the oscillators and the pool; FAIL and its source when all four become excluded (R212, R213). -/
def State.noiseStatus (s : State) : State :=
  let os := s.noise.osc.toList
  let ok : Nat := (os.zipIdx.map fun o => b2n o.1.used * 2 ^ o.2).foldl (fun a b => a + b) 0
  let failed := os.all fun o => o.excl
  let was := s.bitR .noise 0 0x100 10
  let started := s.bitR .noise 0 0x100 9 || decide (ok ≠ 0)
  let s := s.setR .noise 0 0x100 (ok + s.noise.pool.length * 16 + b2n started * 512 + b2n failed * 1024)
  if failed && !was then (s.setErr .noise 0 0 0x104 256).raise 0x001 else s

/-- NOISE_SAMPLE: each oscillator gives one raw bit (R210). -/
def State.noiseSample (s : State) (bits : BitVec 4) : State :=
  ((List.finRange 4).foldl (fun s i => s.sampleOsc i (bits.getLsbD i.val)) s).noiseStatus

end Sys2Proof.Machine
end

