-- ==== Sys2Proof/Machine/Safe.lean ====
section
/-! DEFINITION. The safeguards of narrow arithmetic (chapter 05): UMBRA (R148 to R151), the precision governor (R153 to R155), the loss scale
(R160) and the step boundary (R158). -/

namespace Sys2Proof.Machine

/-! ## UMBRA (R150) -/

/-- The reference value of an entry's element: class H, standard promotion, over [k0, k1). -/
def State.umbraRef (s : State) (c : Ctx) (ta tb : TD) (ga gb i j k0 k1 : Nat) : Except OpFault Val := do
  let chunks := (List.range (ceilDiv (k1 - k0) 8)).map fun n => (k0 + 8 * n, min 8 (k1 - k0 - 8 * n))
  let acc ← chunks.foldlM (fun (a : AccPair) ch => do
    let ts ← (List.range ch.2).foldlM (fun (l : List Val) d => do
      let x ← s.rdRaw c ta (ta.denseLoc [ga, i, ch.1 + d])
      let y ← s.rdRaw c tb (tb.denseLoc [gb, ch.1 + d, j])
      .ok (l ++ [(ta.rawVal x).mul (tb.rawVal y)])) []
    .ok (a.promote (chunkVal true ts))) (⟨0, 0⟩ : AccPair)
  .ok acc.val.rnd32

/-- The running sums e and σ of an entry, in FP32 (R150). -/
def umbraSums (ps : List (Val × Val)) : Val × Val :=
  ps.foldl (fun (a : Val × Val) p =>
    let d := (p.1.sub p.2).rnd32
    ((a.1.add (d.mul d).rnd32).rnd32, (a.2.add (p.2.mul p.2).rnd32).rnd32)) (.zero, .zero)

/-- The largest entry deviation. -/
def devMax : Nat := 255 * 2 ^ 24

/-- The entry deviation q (R150). Where both sums pass the FP32 range their quotient has no stated value: a free one. -/
def deviation (fresh : Nat) (e sg : Val) : Nat :=
  match e, sg with
  | .fin _ m x, .fin _ n y =>
    if n = 0 then (if m = 0 then 0 else devMax)
    else
      let r := shiftRat m n (x - y + 24)
      min (r.1 / r.2) devMax
  | .fin _ _ _, _ => 0
  | _, .fin _ _ _ => devMax
  | _, _ => (Config.freeWord fresh).toNat % (devMax + 1)

/-- Add an entry's deviation to DEV_SUM and 1 to DEV_N of a layer. -/
def addDeviation (d : FMap W64) (l dev : Nat) : FMap W64 :=
  let n := dget d (layerWord l 3)
  (d.set descDefault (layerWord l 2) (BitVec.ofNat 64 (dget d (layerWord l 2) + dev))).set descDefault (layerWord l 3)
    (BitVec.ofNat 64 (n / 2 ^ 32 * 2 ^ 32 + (n % 2 ^ 32 + 1) % 2 ^ 32))

/-- Account one entry: its deviation joins DEV_SUM and DEV_N of its layer (R150). -/
def State.umbraAccount (s : State) (sh : ShadeIx) (q : QOp) (u : UmbraEntry) : Res :=
  let d := q.desc
  let ta := readTD d (layerAsh d u.layer)
  let tb := readTD d (layerBsh d u.layer)
  let c : Ctx := ⟨sh, u.prism, 0, q.g⟩
  let ga := shadowSlot d u.layer false (u.row0 / 64)
  let gb := shadowSlot d u.layer true (u.col0 / 64)
  Res.withRead s (u.ys.zipIdx.foldlM (fun (l : List (Val × Val)) p => do
      let r ← s.umbraRef c ta tb ga gb (u.row0 % 64 + p.2 / max 1 u.width) (u.col0 % 64 + p.2 % max 1 u.width) u.k0 u.k1
      .ok (l ++ [(f32 p.1.toNat, r)])) []) fun ps =>
    let s := s.count .safe u.prism 1 1
    if ps.any fun p => !p.1.isFinite || !p.2.isFinite then .ok (s.count .safe u.prism 4 1)
    else
      let es := umbraSums ps
      let dev := deviation s.fresh es.1 es.2
      .ok (s.tick.modSh sh fun x => { x with desc := addDeviation x.desc u.layer dev })

/-- Tile 0 of every prism has no open pass and no closed bank: UMBRA may start (R150). -/
def State.umbraReady (s : State) (sh : ShadeIx) : Bool := (s.prismsOf sh).all fun p => (s.tile p 0).idle

/-- UMBRA accounts the entries that stood in the queues at its issue, removing each (R150). -/
def State.umbraRun (s : State) (sh : ShadeIx) (q : QOp) : Res :=
  resFold (fun s u => (s.umbraAccount sh q u).andThen fun s =>
      .ok (s.modSh sh fun x => { x with saf := { x.saf with umbra := x.saf.umbra.erase u } })) s
    ((s.sh sh).saf.umbra.filter fun u => decide (u.stamp ≤ q.id))

/-! ## The precision governor (R153 to R155) -/

/-- Change the maintained fields of a layer: RUNG, CLEAN (R144). -/
def putLayer0 (d : FMap W64) (l rung clean : Nat) : FMap W64 :=
  d.set descDefault (layerWord l 0) (BitVec.ofNat 64 (putBits (putBits (dget d (layerWord l 0)) 2 0 rung) 39 32 clean))

/-- clear(l): DEV_SUM, DEV_N, SAT_N and UNF_N become 0 (R153). -/
def clearLayer (d : FMap W64) (l : Nat) : FMap W64 :=
  ((d.set descDefault (layerWord l 2) 0).set descDefault (layerWord l 3) 0).set descDefault (layerWord l 4)
    (BitVec.ofNat 64 (dget d (layerWord l 4) / 2 ^ 32 * 2 ^ 32))

/-- What the governor decides for a layer: its new rung and CLEAN, and whether it is at its limit (R153). -/
structure Govern where
  rung : Nat
  clean : Nat
  limit : Bool
  deriving DecidableEq, Repr

/-- govern(l) for a step that is not skipped. -/
def govern (d : FMap W64) (l : Nat) : Govern :=
  let w (i : Nat) : Nat := dget d (layerWord l i)
  let rung := bitsOf (w 0) 2 0
  let floor := bitsOf (w 0) 7 5
  let ceil := bitsOf (w 0) 10 8
  let cleanN := bitsOf (w 0) 31 24
  let clean := bitsOf (w 0) 39 32
  let tUp := w 1 % 2 ^ 32
  let tDn := w 1 / 2 ^ 32
  let devSum := w 2
  let devN := w 3 % 2 ^ 32
  let satN := w 3 / 2 ^ 32
  let satLim := w 4 / 2 ^ 32
  let devOk := decide (bitsOf (w 5) 15 0 ≤ devN)
  let up := (devOk && decide (tUp * devN < devSum)) || (decide (0 < satLim) && decide (satLim < satN))
  if up then (if rung = ceil then ⟨rung, 0, true⟩ else ⟨rung + 1, 0, false⟩)
  else if devOk && decide (devSum ≤ tDn * devN) then
    let c := min (clean + 1) 255
    if 0 < cleanN ∧ cleanN ≤ c ∧ floor < rung then ⟨rung - 1, 0, false⟩ else ⟨rung, c, false⟩
  else if devOk then ⟨rung, 0, false⟩
  else ⟨rung, clean, false⟩

/-- One GOVERNOR record (R154, R453). -/
def State.govRecord (s : State) (sh : ShadeIx) (d : FMap W64) (l old new : Nat) : State :=
  s.shadeRecord sh 0x03 [s.safeStep sh, l + old * 256 + new * 2048, dget d (layerWord l 2), dget d (layerWord l 3),
    dget d (layerWord l 4) % 2 ^ 32]

/-- precision_limit(l) (R155). -/
def State.precisionLimit (s : State) (sh : ShadeIx) (baddr l : Nat) : State :=
  let i := shInst sh
  let s := (if s.bitR .safe i 0x12C 2 then s else s.setF .safe i 0x12C 15 8 l).setErr .safe i (s.leadP sh) 0x12C 4
  let s := s.reportFault sh F_PRECISION_LIMIT ⟨15, baddr, s.leadP sh, 0⟩
  (s.raise (shadeSrc sh 1)).count .safe (s.leadP sh) 7 1

/-- A step boundary at layer l (R145, R153). -/
def State.governLayer (s : State) (sh : ShadeIx) (baddr : Nat) (skip : Bool) (l : Nat) : State :=
  let d := (s.sh sh).desc
  let put (s : State) (f : FMap W64 → FMap W64) : State := s.modSh sh fun x => { x with desc := f x.desc }
  if !bitOf (dget d (layerWord l 0)) 11 then s
  else if !layerValid d l then
    let i := shInst sh
    (if s.bitR .safe i 0x12C 3 then s else s.setF .safe i 0x12C 23 16 l).setErr .safe i (s.leadP sh) 0x12C 8
  else if skip then put s fun d => clearLayer d l
  else
    let g := govern d l
    let old := bitsOf (dget d (layerWord l 0)) 2 0
    let s := if g.limit then (s.precisionLimit sh baddr l).govRecord sh d l old old
      else if g.rung = old then s
      else (s.govRecord sh d l old g.rung).count .safe (s.leadP sh) (if old < g.rung then 5 else 6) 1
    put s fun d => clearLayer (putLayer0 d l g.rung g.clean) l

/-! ## The loss scale (R160) -/

/-- SAFE_LSCALE.EXP as a signed value. -/
def State.lscale (s : State) (sh : ShadeIx) : Int := sextN 6 (s.getF .safe (shInst sh) 0x10C 5 0)

/-- Store SAFE_LSCALE.EXP. -/
def State.setLscale (s : State) (sh : ShadeIx) (e : Int) : State := s.setF .safe (shInst sh) 0x10C 5 0 (BitVec.ofInt 6 e).toNat

/-- The loss scale at a step boundary, from the reduced flag word (R160). -/
def State.lossScale (s : State) (sh : ShadeIx) (red : Nat) : State :=
  let i := shInst sh
  let e := s.lscale sh
  if bitOf red 0 then
    let s := if e ≤ -8 then s.setErr .safe i (s.leadP sh) 0x12C 2 else s
    (s.setLscale sh (max (e - 1) (-8))).setF .safe i 0x110 15 0 0
  else if bitOf red 1 || bitOf red 2 then s.setF .safe i 0x110 15 0 0
  else
    let run := min (s.getF .safe i 0x110 15 0 + 1) 0xFFFF
    let grow := s.getF .safe i 0x10C 23 8
    if grow ≠ 0 ∧ grow ≤ run then (s.setLscale sh (min (e + 1) 24)).setF .safe i 0x110 15 0 0
    else s.setF .safe i 0x110 15 0 run

/-! ## The step boundary (R158) -/

/-- The Umbra entries left in the shade's prisms are discarded and counted (R158). -/
def State.umbraDiscard (s : State) (sh : ShadeIx) : State :=
  let s := (s.sh sh).saf.umbra.foldl (fun s u => s.count .safe u.prism 3 1) s
  s.modSh sh fun x => { x with saf := { x.saf with umbra := [] } }

/-- The actions of a step boundary up to the replay record, in order (R146, R158, R199). -/
def State.stepBoundary (s : State) (sh : ShadeIx) (baddr : Nat) : State :=
  let i := shInst sh
  let red := s.getF .safe i 0x108 2 0
  let skip := bitOf red 0 || bitOf red 1
  let s := s.lossScale sh red
  let s := (List.range 256).foldl (fun s l => s.governLayer sh baddr skip l) s
  let s := s.setF .safe i 0x128 0 0 (b2n skip)
  let s := if skip then s.count .safe (s.leadP sh) 9 1 else s
  let s := ((s.setR .safe i 0x104 0).setR .safe i 0x108 0).setR .safe i 0x11C 0
  let s := s.umbraDiscard sh
  let s := s.setR64 .safe i 0x120 ((s.safeStep sh + 1) % 2 ^ 64)
  s.modSh sh fun x => { x with saf := { x.saf with
    stepped := true
    sampSeed := BitVec.ofNat 64 (s.getR64 .speckle i 0x100)
    sampGen := s.gen sh } }

end Sys2Proof.Machine
end

