-- ==== Sys2Proof/Machine/Region.lean ====
section
/-! DEFINITION. State regions and seals (chapter 11, R317 to R322): CRC-32C, the units of a region, the start checks of Beam writes and reads
that meet a region, the sealing of units and the check of seals. -/

namespace Sys2Proof.Machine

/-! ## CRC-32C (R319) -/

/-- One bit of the reflected register. -/
def crcBit (c : W32) : W32 := if c.getLsbD 0 then (c >>> 1) ^^^ 0x82F63B78#32 else c >>> 1

/-- One byte. -/
def crcByte (c : W32) (b : Byte) : W32 :=
  let x := c ^^^ b.zeroExtend 32
  crcBit (crcBit (crcBit (crcBit (crcBit (crcBit (crcBit (crcBit x)))))))

/-- CRC-32C of bytes in ascending order. -/
def crc32c (bs : List Byte) : W32 := bs.foldl crcByte 0xFFFFFFFF#32 ^^^ 0xFFFFFFFF#32

/-! ## Regions (R317, R335) -/

/-- A register of state region n. -/
def State.tsReg (s : State) (sh : ShadeIx) (n off : Nat) : Nat := s.getR .tstate sh.val (0x200 + 0x20 * n + off)

/-- A state region as its registers declare it. -/
structure Region where
  n : Nat
  en : Bool
  rows : Bool
  units : Nat
  dataA : Nat
  dataB : Nat
  sealA : Nat
  sealB : Nat
  cslot : Bool
  cvalid : Bool
  rcseq : Nat
  /-- TS_WRITTEN -/
  count : Nat
  wslot : Bool
  any : Bool
  deriving DecidableEq, Repr

/-- TS_WRITTEN_n. -/
def tsWritten (n : Nat) : Nat := 0x400 + 4 * n

def State.region (s : State) (sh : ShadeIx) (n : Nat) : Region :=
  let c := s.tsReg sh n 0
  let sl := s.getR .tstate sh.val 0x110
  let w := s.getR .tstate sh.val (tsWritten n)
  { n := n, en := bitOf c 0, rows := bitsOf c 2 1 = 1, units := bitsOf (s.tsReg sh n 4) 23 0,
    dataA := s.tsReg sh n 0x8 * 65536, dataB := s.tsReg sh n 0xC * 65536, sealA := s.tsReg sh n 0x10 * 65536,
    sealB := s.tsReg sh n 0x14 * 65536, cslot := bitOf sl n, cvalid := bitOf sl (16 + n),
    rcseq := s.tsReg sh n 0x18 + 2 ^ 32 * s.tsReg sh n 0x1C, count := bitsOf w 23 0, wslot := bitOf w 24, any := bitOf w 25 }

/-- The regions in use. -/
def State.regions (s : State) (sh : ShadeIx) : List Region := ((List.range 16).map (s.region sh)).filter fun r => r.en

def Region.data (r : Region) (slot : Bool) : Nat := if slot then r.dataB else r.dataA
def Region.seals (r : Region) (slot : Bool) : Nat := if slot then r.sealB else r.sealA

/-- The length of a slot's data range. The payload plane of a ROWS region is as long as its governed tensor; of a tensor that does not
begin where the plane does, the registers alone tell only that the plane fills its first 64 KiB. -/
def Region.dataLen (r : Region) : Nat := if r.rows then 65536 else r.units * 65536

/-- Seals of a slot's table. -/
def Region.sealCount (r : Region) : Nat := if r.rows then 2 * r.units else r.units

/-- Two byte ranges meet. -/
def meets (a : Int × Nat) (lo len : Nat) : Bool :=
  decide (a.1 < ((lo + len : Nat) : Int)) && decide ((lo : Int) < a.1 + (a.2 : Int)) && decide (0 < a.2) && decide (0 < len)

/-- How a Beam meets the regions of its shade. -/
inductive Meet where
  | none
  | sealTable (n : Nat)
  | data (n : Nat) (slot : Bool)
  deriving DecidableEq, Repr

/-- What the footprint of a deep-tier tensor meets (R320, R321). -/
def State.regionMeet (s : State) (sh : ShadeIx) (t : TD) (cap : Nat) : Meet :=
  if t.space ≠ 0xB then .none
  else
    let rs := s.regions sh
    let fp := t.ranges cap
    match rs.find? fun r => [false, true].any fun b => fp.any fun a => meets a (r.seals b) (16 * r.sealCount) with
    | some r => .sealTable r.n
    | none =>
      match (rs.flatMap fun r => [(r, false), (r, true)]).find? fun x => fp.any fun a => meets a (x.1.data x.2) x.1.dataLen with
      | some x => .data x.1.n x.2
      | none => .none

/-- A refusal at the start check (R320, R321): bit 0 SHAPE, bit 1 SLOT of TS_ERR. -/
def tsFault (bit n : Nat) : OpFault := ⟨RSVD_FIELD, .start, noPrism, 0, none, .seal bit n⟩

/-- How a Beam operation moves a region's data: a PLAIN copy or SCRUB of a whole tensor, or a range of block rows. -/
inductive Move where
  | whole
  | rowRange (first num : Nat)
  | other
  deriving DecidableEq, Repr

/-- The shape rule of a region's reads and writes (R320, R321). -/
def shapeOk (r : Region) (slot : Bool) (t : TD) (m : MOD) (mv : Move) : Bool :=
  (t.fmt == .fp32 || t.fmt.code == 0xE || t.fmt.code == 0xF) &&
  (if r.rows then t.moen && m.rows == r.units && t.base == r.data slot && mv != .other
   else
    let bytes := t.cols * t.fmt.width / 8
    !t.isBsg && t.rank == 1 && mv == .whole && decide (r.data slot ≤ t.base) && (t.base - r.data slot) % 65536 == 0
      && bytes % 65536 == 0 && decide (t.base + bytes ≤ r.data slot + r.dataLen))

/-- The start check of a Beam write (R320). -/
def State.writeMeetCheck (s : State) (sh : ShadeIx) (t : TD) (m : MOD) (mv : Move) : Option OpFault :=
  match s.regionMeet sh t m.cap with
  | .none => none
  | .sealTable n => some (tsFault 0 n)
  | .data n slot =>
    let r := s.region sh n
    if !shapeOk r slot t m mv then some (tsFault 0 n)
    else if (r.cvalid && slot == r.cslot) || (r.any && slot != r.wslot) then some (tsFault 1 n)
    else none

/-- The start check of a Beam read (R321). -/
def State.readMeetCheck (s : State) (sh : ShadeIx) (t : TD) (m : MOD) (mv : Move) : Option OpFault :=
  match s.regionMeet sh t m.cap with
  | .data n slot =>
    let r := s.region sh n
    if !shapeOk r slot t m mv then some (tsFault 0 n)
    else if !(r.cvalid && slot == r.cslot) then some (tsFault 1 n)
    else none
  | _ => none

/-! ## Units -/

/-- A tensor of a region that an operation reads or writes. -/
structure RegTensor where
  r : Region
  slot : Bool
  t : TD
  m : MOD
  e : Nat
  deriving DecidableEq, Repr

/-- The region tensor behind a descriptor, when its footprint meets a slot's data range. -/
def State.regTensor (s : State) (sh : ShadeIx) (t : TD) (m : MOD) (e : Nat) : Option RegTensor :=
  match s.regionMeet sh t m.cap with
  | .data n slot => some ⟨s.region sh n, slot, t, m, e⟩
  | _ => none

/-- The bytes of a unit (R317): element bytes and then scales. -/
def State.unitBytes (s : State) (c : Ctx) (y : RegTensor) (u : Nat) : Except OpFault (List Byte) :=
  if y.r.rows then do
    let a ← s.rdOfs c y.t y.m y.e u
    let b ← s.rdOfs c y.t y.m y.e (u + 1)
    let p := payloadBytes y.t.fmt y.t.edge
    let k := blockScaleBytes y.t.fmt y.t.edge
    let at' := y.t.slotAddr y.m y.e a
    let xs ← s.rdSN c 0xB at'.1 ((b - a) * p)
    let ys ← s.rdSN c 0xB at'.2 ((b - a) * k)
    .ok (xs ++ ys)
  else do
    let xs ← s.rdSN c 0xB (y.r.data y.slot + u * 65536) 65536
    let first := (y.r.data y.slot + u * 65536 - y.t.base) * 8 / y.t.fmt.width
    let n := 65536 * 8 / y.t.fmt.width
    let ys ← if y.t.fmt.scaleKind = .none then .ok []
      else s.rdSN c 0xB (y.t.sbase + first / y.t.sblk * y.t.fmt.scaleBytes) (n / y.t.sblk * y.t.fmt.scaleBytes)
    .ok (xs ++ ys)

/-- The number of a unit's seal (R317). -/
def RegTensor.sealNo (y : RegTensor) (u : Nat) : Nat := if y.r.rows then y.e * y.r.units + u else u
def RegTensor.sealAt (y : RegTensor) (u : Nat) : Nat := y.r.seals y.slot + 16 * y.sealNo u
def RegTensor.parity (y : RegTensor) : Nat := if y.r.rows then y.e else 0

/-- A seal (R318). -/
def sealWord (seq crc region : Nat) (slot : Bool) (parity unit : Nat) : Nat :=
  seq % 2 ^ 64 + crc % 2 ^ 32 * 2 ^ 64 + region % 16 * 2 ^ 96 + b2n slot * 2 ^ 100 + parity % 2 * 2 ^ 101
    + unit % 2 ^ 24 * 2 ^ 102 + 2 ^ 127

/-- Seal a unit that a Beam has written: its seal, TS_WRITTEN and the step of the write (R320). -/
def State.sealUnit (s : State) (c : Ctx) (y : RegTensor) (u : Nat) : Res :=
  Res.withRead s (s.unitBytes c y u) fun bs =>
    let step := s.safeStep c.sh
    (s.wrSN c 0xB (y.sealAt u) (leBytes 16 (sealWord step (crc32c bs).toNat y.r.n y.slot y.parity u))).andThen fun s =>
      let o := tsWritten y.r.n
      let s := s.setR .tstate c.sh.val o
        ((s.getF .tstate c.sh.val o 23 0 + 1) % 2 ^ 24 + b2n y.slot * 2 ^ 24 + 2 ^ 25)
      .ok ((s.modSh c.sh fun x => { x with saf := { x.saf with wsteps := x.saf.wsteps ++ [(y.r.n, step)] } }).count .tstate c.sh.val 1 1)

/-- A unit fails its seal: a machine fault with its TS_ERR bit (R321). -/
def sealFault (bit n : Nat) : OpFault := ⟨F_ECC_UNCORR, .machine, noPrism, 0, none, .seal bit n⟩

/-- Check the seal of a unit that a Beam reads (R321). -/
def State.verifyUnit (s : State) (c : Ctx) (y : RegTensor) (u : Nat) : Res :=
  Res.withRead s (s.rdSNat c 0xB (y.sealAt u) 16) fun w =>
  Res.withRead s (s.unitBytes c y u) fun bs =>
    let bad := if !bitOf w 127 || bitsOf w 99 96 != y.r.n || bitOf w 100 != y.slot || bitsOf w 101 101 != y.parity
        || bitsOf w 125 102 != u then some 3
      else if bitsOf w 63 0 != y.r.rcseq then some 4
      else if bitsOf w 95 64 != (crc32c bs).toNat then some 2
      else none
    match bad with
    | some b => ⟨s.count .tstate c.sh.val 3 1, some (sealFault b y.r.n)⟩
    | none => .ok (s.count .tstate c.sh.val 2 1)

/-- The units of a region tensor that a move covers. -/
def RegTensor.unitsOf (y : RegTensor) (mv : Move) : List Nat :=
  if y.r.rows then match mv with
    | .rowRange first num => (List.range num).map fun i => first + i
    | _ => List.range y.r.units
  else
    let first := (y.t.base - y.r.data y.slot) / 65536
    (List.range (y.t.cols * y.t.fmt.width / 8 / 65536)).map fun i => first + i

end Sys2Proof.Machine
end

