-- ==== Sys2Proof/Machine/Beams.lean ====
section
/-! DEFINITION. Beams (chapter 10, R295 to R304): the option word, the issue checks, PLAIN copies, GATHER, SCATTER and SCRUB, with the state
regions they read and write (R320 to R322). -/

namespace Sys2Proof.Machine

/-- The Beam option word (R296). -/
structure BeamWord where
  mode : Nat
  dir : Bool
  part : Nat
  remote : Bool
  first : Nat
  num : Nat
  rsvd : Bool
  deriving DecidableEq, Repr

def BeamWord.ofNat (w : Nat) : BeamWord :=
  ⟨bitsOf w 1 0, bitOf w 2, bitsOf w 4 3, bitOf w 5, bitsOf w 31 8, bitsOf w 55 32, bitsOf w 7 6 != 0 || bitsOf w 63 56 != 0⟩

/-- A field of the option word is reserved, or not 0 where it must be (R296). -/
def BeamWord.bad (w : BeamWord) : Bool :=
  w.mode == 3 || w.part == 3 || w.rsvd || (w.mode == 0 && (w.dir || w.first != 0 || w.num != 0)) || (w.mode != 0 && w.num == 0)
  || (w.remote && w.mode != 0)

/-- The spaces of a Beam (R295). -/
def beamSpaces (beam : Nat) : List Nat := if beam < 8 then [0, 1, 2, 3, 4, 5, 6, 7, 9, 0xA, 0xB, 0xC] else [9, 0xA, 0xB, 0xC]

/-- BULK_OWNER of bulk Beam b − 8 (R307). -/
def State.bulkOwner (s : State) (k : Nat) : Nat := s.getF .bulk 0 (0x100 + 4 * (k / 4)) (8 * (k % 4) + 7) (8 * (k % 4))

/-- A bulk Beam that the shade may not use, or PART = ALL on one (R295). -/
def State.bulkBad (s : State) (sh : ShadeIx) (beam part : Nat) : Bool :=
  decide (8 ≤ beam) && (s.bulkOwner (beam - 8) != sh.val || part == 0)

/-- A pair of BSG descriptors that PLAIN accepts (R297). -/
def bsgPairOk (a b : TD) : Bool :=
  a.edge == b.edge &&
  (b.moen || (!b.strided && !a.strided) || (b.strided && !a.moen && a.strided && a.slots == b.slots))

/-- The descriptors of a PLAIN copy do not match (R297). -/
def plainBad (a b : TD) : Bool :=
  a.fmt != b.fmt || a.rank != b.rank || a.sizes != b.sizes || a.baxis != b.baxis || a.tsen != b.tsen || a.isBsg != b.isBsg
  || (!a.isBsg && decide (a.fmt.width < 8) && a.packedDim != b.packedDim) || (a.isBsg && !bsgPairOk a b)

/-- The block rows or columns of the grid that a slice of GATHER or SCATTER holds (R298). -/
def sliceNum (w : BeamWord) (k : Nat) : Nat := if w.part = 1 then ceilDiv w.num (max 1 k) else w.num

/-- A slice does not fit the range of a BSG tensor (R298, R299): `a` is the whole tensor, `b` the slice. -/
def sliceBad (w : BeamWord) (a b : TD) (k : Nat) : Bool :=
  let n := sliceNum w k
  let span (size : Nat) : Nat := min size ((w.first + w.num) * a.edge) - w.first * a.edge
  !a.isBsg || !b.isBsg || b.moen || !(a.lead.all fun x => x == 1) || b.rank != 2 || a.fmt != b.fmt || a.edge != b.edge
  || a.baxis != b.baxis || a.tsen != b.tsen
  || (if w.dir then b.rows != a.rows || (if w.part = 1 then decide (b.bcols < n) else b.cols != span a.cols)
      else b.cols != a.cols || (if w.part = 1 then decide (b.brows < n) else b.rows != span a.rows))
  || (w.dir && !b.strided) || (b.strided && decide (b.slots < min 8 b.bcols))
  || (a.tsen && w.first * a.edge % 64 != 0)

/-- The issue check of COPY (R295 to R300). -/
def State.copyCheck (s : State) (sh : ShadeIx) (q : QOp) (beam tds tdd : Nat) (g : GReg) : Option Nat :=
  let w := BeamWord.ofNat (q.greg g.toNat)
  let a := readTD q.desc tds
  let b := readTD q.desc tdd
  let sp := beamSpaces beam
  let k := (s.prismsOf sh).length
  let walk := if a.isBsg then some a else none
  firstCode [
    rsvdIf (w.bad || s.bulkBad sh beam w.part),
    rsvdIf (w.remote && (g.toNat == 63 || bitsOf (q.greg (g.toNat + 1)) 63 18 != 0)),
    (if w.mode = 0 then s.checkSpacesTD sh q.desc tds sp false w.part a.sizes walk else s.checkTD sh q.desc tds sp false),
    (if w.remote then none
     else if w.mode = 0 then s.checkSpacesTD sh q.desc tdd sp false w.part a.sizes walk else s.checkTD sh q.desc tdd sp false),
    (if w.remote then none
     else match w.mode with
      | 0 => rsvdIf (plainBad a b)
      | 1 => rsvdIf (sliceBad w a b k || (w.dir && !a.moen && !a.strided))
      | _ => rsvdIf (sliceBad w b a k || b.strided || w.part == 0 || !([9, 0xA, 0xB].contains b.space)))]

/-- The issue check of SCRUB (R301). -/
def State.scrubCheck (s : State) (sh : ShadeIx) (q : QOp) (beam tdd : Nat) (g : GReg) : Option Nat :=
  let w := BeamWord.ofNat (q.greg g.toNat)
  let b := readTD q.desc tdd
  firstCode [
    rsvdIf (w.bad || w.mode != 0 || w.remote || s.bulkBad sh beam w.part),
    s.checkSpacesTD sh q.desc tdd (beamSpaces beam) false w.part b.sizes (if b.isBsg then some b else none),
    rsvdIf b.moen]

/-! ## Errors and counts (R307, R309) -/

/-- The page of a Beam: its own prism's, or the BULK page. -/
def beamPage (beam p : Nat) : PageKind × Nat := if beam < 8 then (.beam, p) else (.bulk, 0)

/-- A bit of BEAM_ERR, with the Beam of the first error since all bits were clear (R307). -/
def State.beamErr (s : State) (beam p bit : Nat) : State :=
  let k := beamPage beam p
  let o := if beam < 8 then 0x104 else 0x10C
  (if s.getF k.1 k.2 o 3 0 = 0 then s.setF k.1 k.2 o 7 4 beam else s).setErr k.1 k.2 k.2 o (2 ^ bit)

/-- A disagreement of blocks (R297). -/
def State.blockMiss (s : State) (beam p : Nat) : State :=
  (s.beamErr beam p 1).count (beamPage beam p).1 (beamPage beam p).2 6 1

/-! ## Moving data -/

/-- Copy bytes from one space to another. -/
def State.copyBytes (s : State) (c : Ctx) (sa a sb b n : Nat) : Res :=
  Res.withRead s (s.rdSN c sa a n) fun bs => s.wrSN c sb b bs

/-- Copy an optional plane entry. -/
def State.copyOpt (s : State) (c : Ctx) (sa : Nat) (a : Option Nat) (sb : Nat) (b : Option Nat) (n : Nat) : Res :=
  match a, b with
  | some a, some b => s.copyBytes c sa a sb b n
  | _, _ => .ok s

/-- Copy one element with its scale and its region's tile scale (R297). -/
def State.copyEl (s : State) (c : Ctx) (ta tb : TD) (la lb : ELoc) : Res :=
  Res.withRead s (s.rdBits c ta.space la.bit ta.fmt.width) fun v =>
    ((s.wrBits c tb.space lb.bit tb.fmt.width v).andThen fun s => s.copyOpt c ta.space la.scale tb.space lb.scale ta.fmt.scaleBytes).andThen
      fun s => s.copyOpt c ta.space la.ts tb.space lb.ts 2

/-- Zero one element with its scale and its region's tile scale (R301). -/
def State.zeroEl (s : State) (c : Ctx) (t : TD) (l : ELoc) : Res :=
  let opt (s : State) (a : Option Nat) (n : Nat) : Res := match a with
    | none => .ok s
    | some a => s.wrSN c t.space a (leBytes n 0)
  ((s.wrBits c t.space l.bit t.fmt.width 0).andThen fun s => opt s l.scale t.fmt.scaleBytes).andThen fun s => opt s l.ts 2

/-- The elements of a dense part in order of logical element index. -/
def densePart (shape : List Nat) (r : PartRange) : List LEl :=
  (allCoords (r.dn :: shape.tail)).map fun lco =>
    ⟨match lco with
      | [] => []
      | x :: xs => (r.d0 + x) :: xs, lco, none⟩

/-- The place of an element of a dense operand in a prism. -/
def TD.partLoc (t : TD) (r : PartRange) (e : LEl) : ELoc := if t.isLocal then (t.local r).denseLoc e.lco else t.denseLoc e.co

/-- Where a dense operation's work goes: the source tensor, if it copies, and the destination. -/
def State.denseEl (s : State) (c : Ctx) (src : Option TD) (dst : TD) (r : PartRange) (e : LEl) : Res :=
  match src with
  | some a => s.copyEl c a dst (a.partLoc r e) (dst.partLoc r e)
  | none => s.zeroEl c dst (dst.partLoc r e)

/-- The groups of prisms that run one after another: under SPLIT0 all together share one tensor, else each does the whole. -/
def partGroups (part : Nat) (ps : List Nat) : List (List Nat) := if part = 1 then [ps] else ps.map fun p => [p]

/-- A dense PLAIN copy or SCRUB by a group of prisms: unit by unit where a region is met, each source unit checked before its data is
written and each destination unit sealed after. -/
def State.denseMove (s : State) (sh : ShadeIx) (q : QOp) (part : Nat) (src : Option TD) (dst : TD) (ps : List Nat) : Res :=
  let shape := dst.sizes
  let m0 := readMO q.desc 0
  let ra := src.bind fun a => s.regTensor sh a m0 0
  let rb := s.regTensor sh dst m0 0
  let unitLen := 65536 * 8 / dst.fmt.width
  let work (s : State) (inUnit : LEl → Bool) : Res := resFold (fun s p =>
    let r := s.partRange sh part p shape none
    resFold (fun s e => s.denseEl ⟨sh, p, 0, q.g⟩ src dst r e) s ((densePart shape r).filter inUnit)) s ps
  let c : Ctx := ⟨sh, ps.headD 0, 0, q.g⟩
  match ra, rb with
  | none, none => work s fun _ => true
  | _, _ => resFold (fun s k =>
      ((match ra with
        | some y => s.verifyUnit c y ((y.t.base - y.r.data y.slot) / 65536 + k)
        | none => .ok s).andThen fun s => work s fun e => e.co.headD 0 / unitLen == k).andThen fun s =>
      match rb with
        | some y => s.sealUnit c y ((y.t.base - y.r.data y.slot) / 65536 + k)
        | none => .ok s) s (List.range (ceilDiv dst.cols unitLen))

/-- Copy a block, payload and scales. -/
def State.copyBlock (s : State) (c : Ctx) (ta tb : TD) (a b : Nat × Nat) : Res :=
  (s.copyBytes c ta.space a.1 tb.space b.1 (payloadBytes ta.fmt ta.edge)).andThen fun s =>
    let n := blockScaleBytes ta.fmt ta.edge
    if n = 0 then .ok s else s.copyBytes c ta.space a.2 tb.space b.2 n

/-- The coordinates of the first element of a block. -/
def TD.blockCo (t : TD) (rho bc : Nat) : List Nat :=
  (if t.rank ≤ 2 then [] else unIndex t.lead (rho / t.brows)) ++ [rho % t.brows * t.edge, bc * t.edge]

/-- Does the copy carry blocks from the current epoch to the next of one mask object (R131)? -/
def carries (a b : TD) : Bool := a.moen && b.moen && a.mo == b.mo && !a.esel && b.esel

/-- One block of a PLAIN copy into a governed destination (R297). -/
def State.plainBlock (s : State) (c : Ctx) (beam : Nat) (a b : LView) (rho bc : Nat) : Res :=
  Res.withRead s (s.viewSlot c a rho bc) fun x =>
  Res.withRead s (s.viewSlot c b rho bc) fun y =>
    match x, y with
    | some x, some y => s.copyBlock c a.t b.t x y
    | none, none => .ok s
    | some _, none => if carries a.t b.t then .ok s else .ok (s.blockMiss beam c.prism)
    | none, some y => if carries a.t b.t then s.putImg c b.t y b.t.zeroImg else .ok (s.blockMiss beam c.prism)

/-- One group of a PLAIN copy that writes the destination's headers: header, then every slot the layout gives the group (R297). -/
def State.plainGroup (s : State) (c : Ctx) (a b : LView) (j0 rho g : Nat) : Res :=
  Res.withRead s (s.rdHdr c a.t a.m a.e rho g) fun h =>
    let pl := b.t.hdrPlace b.m b.e rho g
    (s.wrSN c pl.1 pl.2 (leBytes 2 h.toNat)).andThen fun s =>
      if b.t.strided then
        resFold (fun s k =>
          let j := (rho * b.t.groups + g) * b.t.slots + k
          s.copyBlock c a.t b.t (a.t.slotAddr a.m a.e (j - a.j0)) (b.t.slotAddr b.m b.e (j - b.j0))) s (List.range b.t.slots)
      else
        resFold (fun s bc => Res.withRead s (s.findSlot c a.t a.m a.e rho bc) fun j => match j with
          | none => .ok s
          | some j => s.copyBlock c a.t b.t (a.t.slotAddr a.m a.e (j - a.j0)) (b.t.slotAddr b.m b.e (j - j0))) s
          ((List.range (a.t.groupCols g)).map fun i => 8 * g + i)

/-- One block row of a PLAIN copy of BSG tensors. -/
def State.plainRow (s : State) (c : Ctx) (beam : Nat) (a b : LView) (j0 rho : Nat) : Res :=
  let cols := List.range a.t.bcols
  let r := if b.t.moen then resFold (fun s bc => s.plainBlock c beam a b rho bc) s cols
    else
      (resFold (fun s g => s.plainGroup c a b j0 rho g) s (List.range a.t.groups)).andThen fun s =>
        if b.t.strided then .ok s
        else resFold (fun s k => Res.withRead s (s.rdOfs c a.t a.m a.e k) fun o =>
            let pl := b.t.ofsPlace b.m b.e k
            s.wrSN c pl.1 pl.2 (leBytes 4 o)) s [rho, rho + 1]
  r.andThen fun s => resFold (fun s bc =>
    s.copyOpt c a.t.space (a.t.tsAddr (a.t.blockCo rho bc)) b.t.space (b.t.tsAddr (b.t.blockCo rho bc)) 2) s cols

/-- A list of rows, each source unit checked first and each destination unit sealed after. -/
def State.rowUnits (s : State) (c : Ctx) (ra rb : Option RegTensor) (rows : List Nat) (f : State → Nat → Res) : Res :=
  resFold (fun s u =>
    ((match ra with
      | some y => s.verifyUnit c y u
      | none => .ok s).andThen fun s => f s u).andThen fun s => match rb with
      | some y => s.sealUnit c y u
      | none => .ok s) s rows

/-- A PLAIN copy of BSG tensors in one prism. -/
def State.plainBsg (s : State) (sh : ShadeIx) (q : QOp) (beam part : Nat) (ta tb : TD) (p : Nat) : Res :=
  let c : Ctx := ⟨sh, p, 0, q.g⟩
  let r := s.partRange sh part p ta.sizes (some ta)
  Res.withRead s (s.lview c q ta.num part r) fun a =>
  Res.withRead s (if tb.moen || tb.strided then s.lview c q tb.num part r else .ok ⟨tb, readMO q.desc 0, 0, tb, 0⟩) fun b =>
  Res.withRead s (if part = 1 && tb.isLocal && !tb.moen && !tb.strided then s.rdOfs c a.t a.m a.e r.r0 else .ok 0) fun j0 =>
    s.rowUnits c (s.regTensor sh a.t a.m a.e) (s.regTensor sh b.t b.m b.e) ((List.range r.rn).map fun i => r.r0 + i)
      fun s rho => s.plainRow c beam a b j0 rho

/-! ## GATHER and SCATTER (R298, R299) -/

/-- The range one prism takes of a slice operation: first index and count. -/
def State.sliceRange (s : State) (sh : ShadeIx) (w : BeamWord) (p : Nat) : Nat × Nat :=
  if w.part = 1 then
    let r := splitRange w.num (max 1 (s.prismsOf sh).length) (s.posOf sh p)
    (w.first + r.1, r.2)
  else (w.first, w.num)

/-- The slot of a block of the whole tensor of a slice operation: block columns of a governed tensor through its mirror index. -/
def State.sliceSlot (s : State) (c : Ctx) (mirror : Bool) (t : TD) (m : MOD) (e r bc : Nat) : Except OpFault (Option Nat) :=
  if mirror && t.moen then s.colFind c t m e r bc else s.findSlot c t m e r bc

/-- The block of the whole tensor that a block of the slice stands for; none beyond the prism's range. -/
def sliceBlock (w : BeamWord) (t : TD) (rg : Nat × Nat) (r c : Nat) : Option (Nat × Nat) :=
  if w.dir then (if c < rg.2 ∧ rg.1 + c < t.bcols ∧ r < t.brows then some (r, rg.1 + c) else none)
  else (if r < rg.2 ∧ rg.1 + r < t.brows ∧ c < t.bcols then some (rg.1 + r, c) else none)

/-- Blocks of a slice in the order of R298. -/
def sliceOrder (w : BeamWord) (b : TD) : List (Nat × Nat) :=
  if w.dir then (List.range b.bcols).flatMap fun c => (List.range b.brows).map fun r => (r, c)
  else (List.range b.brows).flatMap fun r => (List.range b.bcols).map fun c => (r, c)

/-- Presence of the blocks of a slice of a GATHER: (row, column, source slot) of each present one. -/
def State.gatherPresent (s : State) (c : Ctx) (w : BeamWord) (a b : TD) (m : MOD) (e : Nat) (rg : Nat × Nat) :
    Except OpFault (List (Nat × Nat × Nat)) :=
  (sliceOrder w b).foldlM (fun (acc : List (Nat × Nat × Nat)) x => match sliceBlock w a rg x.1 x.2 with
    | none => .ok acc
    | some y => do
      match ← s.sliceSlot c w.dir a m e y.1 y.2 with
      | none => .ok acc
      | some j => .ok (acc ++ [(x.1, x.2, j)])) []

/-- The slot of a present block of a slice that is being built. -/
def buildSlot (b : TD) (pres : List (Nat × Nat × Nat)) (r c : Nat) : Nat :=
  if b.strided then
    (r * b.groups + c / 8) * b.slots + (pres.filter fun x => x.1 == r && x.2.1 / 8 == c / 8 && decide (x.2.1 < c)).length
  else (pres.filter fun x => decide (x.1 < r) || (x.1 == r && decide (x.2.1 < c))).length

/-- The headers and the offset table of a slice that is being built. -/
def State.buildLayout (s : State) (c : Ctx) (b : TD) (m : MOD) (pres : List (Nat × Nat × Nat)) : Res :=
  (resFold (fun s r => resFold (fun s g =>
      let cols := (pres.filter fun x => x.1 == r && x.2.1 / 8 == g).map fun x => x.2.1 % 8
      let map : Nat := (cols.map fun j => 2 ^ j).foldl (fun a b => a + b) 0
      let pl := b.hdrPlace m 0 r g
      s.wrSN c pl.1 pl.2 (leBytes 2 (Hdr.toNat ⟨map, cols.length, b.fmt.code⟩))) s (List.range b.groups)) s (List.range b.brows)).andThen fun s =>
    if b.strided then .ok s
    else resFold (fun s r =>
      let pl := b.ofsPlace m 0 r
      s.wrSN c pl.1 pl.2 (leBytes 4 (pres.filter fun x => decide (x.1 < r)).length)) s (List.range (b.brows + 1))

/-- GATHER in one prism (R298). -/
def State.gatherPrism (s : State) (sh : ShadeIx) (q : QOp) (w : BeamWord) (a b : TD) (p : Nat) : Res :=
  let c : Ctx := ⟨sh, p, 0, q.g⟩
  let m := readMO q.desc a.mo
  let mb := readMO q.desc 0
  let e := capParity q.masks a
  let rg := s.sliceRange sh w p
  let ra := if w.dir then none else s.regTensor sh a m e
  (s.rowUnits c ra none (if w.dir then [] else (List.range rg.2).map fun i => rg.1 + i) fun s _ => .ok s).andThen fun s =>
  Res.withRead s (s.gatherPresent c w a b m e rg) fun pres =>
    (s.buildLayout c b mb pres).andThen fun s =>
      (resFold (fun s x => s.copyBlock c a b (a.slotAddr m e x.2.2) (b.slotAddr mb 0 (buildSlot b pres x.1 x.2.1))) s pres).andThen fun s =>
        resFold (fun s x => match sliceBlock w a rg x.1 x.2 with
          | none => .ok s
          | some y => s.copyOpt c a.space (a.tsAddr (a.blockCo y.1 y.2)) b.space (b.tsAddr (b.blockCo x.1 x.2)) 2) s (sliceOrder w b)

/-- One block of a SCATTER: `a` is the slice. -/
def State.scatterBlock (s : State) (c : Ctx) (beam : Nat) (w : BeamWord) (a b : TD) (ma m : MOD) (e : Nat) (rg : Nat × Nat)
    (x : Nat × Nat) : Res :=
  match sliceBlock w b rg x.1 x.2 with
  | none => .ok s
  | some y =>
    Res.withRead s (s.findSlot c a ma 0 x.1 x.2) fun i =>
    Res.withRead s (s.findSlot c b m e y.1 y.2) fun j =>
      (match i, j with
        | some i, some j => s.copyBlock c a b (a.slotAddr ma 0 i) (b.slotAddr m e j)
        | none, none => .ok s
        | _, _ => .ok (s.blockMiss beam c.prism)).andThen fun s =>
      s.copyOpt c a.space (a.tsAddr (a.blockCo x.1 x.2)) b.space (b.tsAddr (b.blockCo y.1 y.2)) 2

/-- SCATTER in one prism (R299). -/
def State.scatterPrism (s : State) (sh : ShadeIx) (q : QOp) (beam : Nat) (w : BeamWord) (a b : TD) (p : Nat) : Res :=
  let c : Ctx := ⟨sh, p, 0, q.g⟩
  let m := readMO q.desc b.mo
  let ma := readMO q.desc 0
  let e := capParity q.masks b
  let rg := s.sliceRange sh w p
  if w.dir then resFold (fun s x => s.scatterBlock c beam w a b ma m e rg x) s (sliceOrder w a)
  else s.rowUnits c none (s.regTensor sh b m e) ((List.range rg.2).map fun i => rg.1 + i) fun s rho =>
    resFold (fun s bc => s.scatterBlock c beam w a b ma m e rg (rho - rg.1, bc)) s (List.range a.bcols)

/-! ## SCRUB of a BSG tensor (R301) -/

/-- Zero the header plane and the offset table of a prism's part. -/
def State.scrubBsg (s : State) (sh : ShadeIx) (q : QOp) (part : Nat) (t : TD) (p : Nat) : Res :=
  let c : Ctx := ⟨sh, p, 0, q.g⟩
  let r := s.partRange sh part p t.sizes (some t)
  let m := readMO q.desc 0
  let rows := (List.range r.rn).map fun i => r.r0 + i
  (resFold (fun s rho => resFold (fun s g =>
      let pl := t.hdrPlace m 0 rho g
      s.wrSN c pl.1 pl.2 (leBytes 2 0)) s (List.range t.groups)) s rows).andThen fun s =>
    if t.strided then .ok s
    else resFold (fun s rho =>
      let pl := t.ofsPlace m 0 rho
      s.wrSN c pl.1 pl.2 (leBytes 4 0)) s (rows ++ [r.r0 + r.rn])

/-! ## The operations -/

/-- A range of blocks beyond the grid: BOUND at the start check (R298). -/
def rangeBeyond (w : BeamWord) (t : TD) : Bool := decide ((if w.dir then t.bcols else t.brows) < w.first + w.num)

/-- How a Beam moves its source and its destination, for the rules of regions (R320, R321). -/
def BeamWord.move (w : BeamWord) : Move :=
  if w.mode = 0 then .whole else if w.dir then .other else .rowRange w.first w.num

/-- Is the operation a Beam write into a region (R322, R324)? -/
def State.isRegionWrite (s : State) (sh : ShadeIx) (q : QOp) : Bool :=
  match q.op with
  | .beam (.copy _ _ tdd g _) =>
    !(BeamWord.ofNat (q.greg g.toNat)).remote &&
      s.regionMeet sh (readTD q.desc tdd.toNat) (readMO q.desc (readTD q.desc tdd.toNat).mo).cap != .none
  | .beam (.scrub _ tdd _ _) => s.regionMeet sh (readTD q.desc tdd.toNat) 0 != .none
  | _ => false

/-- What a Beam operation counts and marks when it ends: OPS, or BEAM_ERR.ACCESS (R304, R307). -/
def Res.beamEnd (r : Res) (beam p : Nat) : Res :=
  match r.err with
  | some _ => ⟨r.s.beamErr beam p 0, r.err⟩
  | none => .ok (r.s.count (beamPage beam p).1 (beamPage beam p).2 1 1)

/-- COPY on local memory: start checks, then the copy (R297 to R299, R320 to R322). -/
def State.copyRun (s : State) (sh : ShadeIx) (q : QOp) (beam tds tdd : Nat) (g : GReg) : Res :=
  let w := BeamWord.ofNat (q.greg g.toNat)
  let a := readTD q.desc tds
  let b := readTD q.desc tdd
  let ps := s.partPrisms sh w.part
  if q.skip && s.isRegionWrite sh q then .ok (s.count .tstate sh.val 6 1)
  else
    let start := match s.writeMeetCheck sh b (readMO q.desc b.mo) (if w.mode = 2 then w.move else if w.mode = 0 then .whole else .other),
        s.readMeetCheck sh a (readMO q.desc a.mo) (if w.mode = 1 then w.move else if w.mode = 0 then .whole else .other) with
      | some f, _ => some f
      | none, some f => some f
      | none, none =>
        if (w.mode = 1 ∧ rangeBeyond w a) ∨ (w.mode = 2 ∧ rangeBeyond w b) then some (boundStart (s.leadP sh) 0) else none
    match start with
    | some f => ⟨s, some f⟩
    | none => match w.mode with
      | 0 =>
        if a.isBsg then resFold (fun s p => (s.plainBsg sh q beam w.part a b p).beamEnd beam p) s ps
        else resFold (fun s g => (s.denseMove sh q w.part (some a) b g).beamEnd beam (g.headD 0)) s (partGroups w.part ps)
      | 1 => resFold (fun s p => (s.gatherPrism sh q w a b p).beamEnd beam p) s ps
      | _ => resFold (fun s p => (s.scatterPrism sh q beam w a b p).beamEnd beam p) s ps

/-- SCRUB (R301). -/
def State.scrubRun (s : State) (sh : ShadeIx) (q : QOp) (beam tdd : Nat) (g : GReg) : Res :=
  let w := BeamWord.ofNat (q.greg g.toNat)
  let b := readTD q.desc tdd
  let ps := s.partPrisms sh w.part
  if q.skip && s.isRegionWrite sh q then .ok (s.count .tstate sh.val 6 1)
  else match s.writeMeetCheck sh b (readMO q.desc b.mo) .whole with
    | some f => ⟨s, some f⟩
    | none =>
      if b.isBsg then resFold (fun s p => (s.scrubBsg sh q w.part b p).beamEnd beam p) s ps
      else resFold (fun s g => (s.denseMove sh q w.part none b g).beamEnd beam (g.headD 0)) s (partGroups w.part ps)

end Sys2Proof.Machine
end

