-- ==== Sys2Proof/Machine/Train.lean ====
section
/-! DEFINITION. Training state (chapter 11): commit writes (R322 to R325) and phase timing (R332, R333). -/

namespace Sys2Proof.Machine

/-! ## Commit writes -/

/-- TS_COMMIT_BASE. -/
def State.commitBase (s : State) (sh : ShadeIx) : Nat :=
  s.getR .tstate sh.val 0x100 / 512 * 512 + s.getF .tstate sh.val 0x104 15 0 * 2 ^ 32

/-- A COPY to the commit area is a commit write (R324). -/
def State.isCommit (s : State) (sh : ShadeIx) (q : QOp) : Bool :=
  match q.op with
  | .beam (.copy _ _ tdd g _) =>
    let w := BeamWord.ofNat (q.greg g.toNat)
    let t := readTD q.desc tdd.toNat
    !w.remote && w.mode == 0 && t.space == 0xB && !t.isBsg && t.rank == 1 && t.fmt == .fp32 && t.cols == 64
      && t.base == s.commitBase sh
  | _ => false

/-- A Beam write into a region of the shade, issued before, has not released its token (R324). -/
def State.commitWaits (s : State) (sh : ShadeIx) (q : QOp) : Bool :=
  let earlier (x : QOp) : Bool := decide (x.id < q.id) && s.isRegionWrite sh x && !s.isCommit sh x
  ((s.sh sh).queue.any earlier) || (s.sh sh).running.any fun r => earlier r.q

/-- SLOTS and CVALID after a commit of the regions written. -/
def State.slotsAfter (s : State) (sh : ShadeIx) : Nat × Nat :=
  ((List.range 16).map (s.region sh)).foldl (fun a r =>
    (a.1 + b2n (if r.any then r.wslot else r.cslot) * 2 ^ r.n, a.2 + b2n (r.any || r.cvalid) * 2 ^ r.n)) (0, 0)

/-- One COMMIT record (R325, R453). -/
def State.commitRecord (s : State) (sh : ShadeIx) (seq kind outcome line slots cvalid : Nat) : State :=
  s.shadeRecord sh 0x05 [seq, kind + outcome * 2 ^ 8 + line * 2 ^ 10 + slots * 2 ^ 16 + cvalid * 2 ^ 32]

/-- Every TS_WRITTEN is cleared. -/
def State.clearWritten (s : State) (sh : ShadeIx) : State :=
  ((List.range 16).foldl (fun s n => s.setR .tstate sh.val (tsWritten n) 0) s).modSh sh fun x =>
    { x with saf := { x.saf with wsteps := [] } }

/-- Why a commit is refused: the TS_ERR bit, the OUTCOME of its record and the region to name (R324). -/
def State.commitRefusal (s : State) (sh : ShadeIx) (kind : Nat) : Option (Nat × Nat × Nat) :=
  let seq := s.safeStep sh
  let bad (r : Region) : Bool := r.any && (r.count != r.units ||
    (s.sh sh).saf.wsteps.any fun w => w.1 == r.n && w.2 != seq)
  if s.bitR .safe (shInst sh) 0x108 2 then some (6, 1, 0)
  else match ((List.range 16).map (s.region sh)).find? bad with
    | some r => some (5, 2, r.n)
    | none => if 1 < kind then some (7, 3, 0) else none

/-- The 256 B of a commit record (R323), from the program's KIND and USER. -/
def State.commitBytes (s : State) (sh : ShadeIx) (kind : Nat) (user : List Byte) : List Byte :=
  let sc := s.slotsAfter sh
  let seq := s.safeStep sh
  let rseq := ((List.range 16).map (s.region sh)).flatMap fun r => leBytes 8 (if r.any then seq else r.rcseq)
  let body := leBytes 8 seq ++ leBytes 2 sc.1 ++ leBytes 2 sc.2 ++ leBytes 1 kind ++ leBytes 3 0 ++ user ++ rseq ++ leBytes 60 0
  body ++ leBytes 4 (crc32c body).toNat

/-- The 64 words a program composed (R324). -/
def State.commitSource (s : State) (c : Ctx) (t : TD) : Except OpFault (List Byte) :=
  (List.range 64).foldlM (fun (acc : List Byte) i => do
    let r ← s.rdRaw c t (t.denseLoc [i])
    .ok (acc ++ leBytes 4 r.code)) []

/-- What starting a commit write does: it is over (skipped or refused), or its line is on its way. -/
inductive CommitStart where
  | over (s : State)
  | written (r : Res)
  deriving DecidableEq, Repr

/-- A commit write at its start, past its wait (R322, R324). -/
def State.commitStart (s : State) (sh : ShadeIx) (q : QOp) (tds : Nat) : CommitStart :=
  if q.skip then .over (s.count .tstate sh.val 6 1)
  else
    let c : Ctx := ⟨sh, s.leadP sh, 0, q.g⟩
    match s.commitSource c (readTD q.desc tds) with
    | .error e => .written ⟨s, some e⟩
    | .ok bs =>
      let kind := ((bs[12]?).getD 0).toNat
      let line := s.getF .tstate sh.val 0x114 0 0
      match s.commitRefusal sh kind with
      | some (bit, outcome, region) =>
        let sl := s.getR .tstate sh.val 0x110
        let s := ((s.tsErr sh bit region).count .tstate sh.val 5 1).clearWritten sh
        .over (s.commitRecord sh (s.safeStep sh) kind outcome line (sl % 65536) (sl / 65536))
      | none => .written (s.wrSN c 0xB (s.commitBase sh + 256 * line) (s.commitBytes sh kind ((bs.drop 16).take 48)))

/-- The commit write that is on its way. -/
def State.commitRunning (s : State) (sh : ShadeIx) : Option QOp :=
  ((s.sh sh).running.find? fun r => !r.done && s.isCommit sh r.q).map fun r => r.q

/-- The effect of a commit on the region registers (R325). -/
def State.commitRegs (s : State) (sh : ShadeIx) : State :=
  let sc := s.slotsAfter sh
  let seq := s.safeStep sh
  let rs := ((List.range 16).map (s.region sh)).filter fun r => r.any
  let s := s.setR .tstate sh.val 0x110 (sc.1 + sc.2 * 65536)
  let s := rs.foldl (fun s r => s.setR64 .tstate sh.val (0x200 + 0x20 * r.n + 0x18) seq) s
  let s := s.setR64 .tstate sh.val 0x108 seq
  (s.setF .tstate sh.val 0x114 0 0 (1 - s.getF .tstate sh.val 0x114 0 0)).clearWritten sh

/-- COMMIT_APPLY: the line's write is acknowledged (R325). KIND comes from the line as written. The token is released last. -/
def State.commitApply (s : State) (sh : ShadeIx) : State :=
  match s.commitRunning sh with
  | none => s
  | some q =>
    let line := s.getF .tstate sh.val 0x114 0 0
    let c : Ctx := ⟨sh, s.leadP sh, 0, q.g⟩
    let kind := match s.rdSNat c 0xB (s.commitBase sh + 256 * line + 12) 1 with
      | .ok k => k
      | .error _ => 0
    let sc := s.slotsAfter sh
    let seq := s.safeStep sh
    let s := (s.commitRegs sh).count .tstate sh.val 4 1
    (s.commitRecord sh seq kind 0 line sc.1 sc.2).finishNow sh q

/-! ## Phase timing -/

/-- The time since the last event of phase timing is added to the phase in force (R332). -/
def State.phaseSettle (s : State) (sh : ShadeIx) : State :=
  let f := (s.sh sh).saf
  let t := f.phaseSpent + (if (s.sh sh).lan.halted then 0 else s.tb.toNat - f.phaseAt)
  let k := 0x140 + 8 * f.phase.toNat
  (s.setR64 .tstate sh.val k ((s.getR64 .tstate sh.val k + t) % 2 ^ 64)).modSh sh fun x =>
    { x with saf := { x.saf with phaseAt := s.tb.toNat, phaseSpent := 0 } }

/-- PHASE (R332). -/
def State.phaseSet (s : State) (sh : ShadeIx) (ph : BitVec 3) : State :=
  ((s.phaseSettle sh).modSh sh fun x => { x with saf := { x.saf with phase := ph } }).setR .tstate sh.val 0x120 ph.toNat

/-- The accumulators. -/
def State.phases (s : State) (sh : ShadeIx) : List Nat := (List.range 6).map fun k => s.getR64 .tstate sh.val (0x140 + 8 * k)

/-- The eight phase words go to the lead prism's pool, or PHASE_BOUND is set (R333). -/
def State.phaseWords (s : State) (sh : ShadeIx) (ws : List Nat) : State :=
  let b := s.getR .tstate sh.val 0x11C
  let off := bitsOf b 15 0 * 128
  let w := s.poolWin (s.leadP sh)
  if !bitOf b 16 then s
  else if w.2 < off + 64 then s.tsErr sh 8 0
  else s.wrN (poolKey (s.leadP sh) (w.1 + off)) (ws.flatMap (leBytes 8))

/-- Phase timing at a step boundary (R333); `step` is SAFE_STEP before the increment. -/
def State.phaseBoundary (s : State) (sh : ShadeIx) (step : Nat) : State :=
  let s := s.phaseSettle sh
  let ps := s.phases sh
  let span := s.tb.toNat - (s.sh sh).saf.spanFrom
  let s := (s.shadeRecord sh 0x04 (ps ++ [span, step, (s.sh sh).saf.rollbacks % 65536])).count .tstate sh.val 8 1
  let s := s.phaseWords sh (ps ++ [span, step])
  let s := (List.range 6).foldl (fun s k => s.setR64 .tstate sh.val (0x140 + 8 * k) 0) s
  s.modSh sh fun x => { x with saf := { x.saf with spanFrom := s.tb.toNat, rollbacks := 0 } }

end Sys2Proof.Machine
end

