-- ==== Sys2Proof/Machine/Links.lean ====
section
/-! DEFINITION. Jorx ports, identity, routing, streams and liveness (chapter 13, R354 to R367, R371, R372, R379 to R381). -/

namespace Sys2Proof.Machine

/-! ## Identity (R363) and records of other devices (R360) -/

/-- JORX_ID.ID. -/
def State.devId (s : State) : Nat := s.getF .jorx 0 0x100 13 0
/-- JORX_ID.VALID. -/
def State.idValid (s : State) : Bool := s.bitR .jorx 0 0x100 14
/-- The pane and the position of a device ID. -/
def paneOf (d : Nat) : Nat := d / 16
def posOfDev (d : Nat) : Nat := d % 16
/-- JORX_EPOCH.EPOCH and ISOLATED. -/
def State.devEpoch (s : State) : Nat := s.getF .jorx 0 0x10C 15 0
def State.isolated (s : State) : Bool := s.bitR .jorx 0 0x10C 16

/-- The JORX source (R431). -/
def jorxSrc : Nat := 0x002

/-- A bit of JORX_ERR; the JORX source follows. -/
def State.jorxErr (s : State) (bit : Nat) : State := (s.setErr .jorx 0 0 0x134 (2 ^ bit)).raise jorxSrc

/-- n occurrences of a Jorx event on the JORX page (R386). -/
def State.jorxCount (s : State) (ev n : Nat) : State := s.count .jorx 0 ev n

def peerDefault (_ : Nat) : Option Peer := none
/-- The record of a device. -/
def State.peer (s : State) (d : Nat) : Option Peer := s.jorx.peers.get peerDefault d
/-- A device is recorded dead. -/
def State.deadDev (s : State) (d : Nat) : Bool := match s.peer d with
  | some p => !p.alive
  | none => false

def State.modJorx (s : State) (f : JorxSt → JorxSt) : State := { s with jorx := f s.jorx }

/-- Keep the cells of a map whose key satisfies f. -/
def FMap.keep {V : Type} (m : FMap V) (f : Nat → Bool) : FMap V := ⟨m.cells.filter fun c => f c.1⟩

/-- The key of a stream by this device's shade and the remote device and shade (R361). -/
def streamKey (sh : ShadeIx) (dev : Nat) (rsh : ShadeIx) : Nat := (sh.val * 16384 + dev) * 16 + rsh.val
/-- The remote device of a stream's key. -/
def streamDev (key : Nat) : Nat := key / 16 % 16384

/-- Both directions of every stream with a device return to 0 (R361). -/
def State.resetStreams (s : State) (d : Nat) : State :=
  s.modJorx fun j => { j with outSeq := j.outSeq.keep fun k => streamDev k != d, inSeq := j.inSeq.keep fun k => streamDev k != d }

/-- Record a device; its streams are reset when its epoch changes. -/
def State.setPeer (s : State) (d : Nat) (p : Peer) : State :=
  let s' := s.modJorx fun j => { j with peers := j.peers.set peerDefault d (some p) }
  match s.peer d with
  | none => s'
  | some o => if o.epoch = p.epoch then s' else s'.resetStreams d

/-! ## Ports (R355, R358) -/

/-- A port. -/
def State.port (s : State) (i : PortIx) : PortSt := s.jorx.ports[i]
def State.modPort (s : State) (i : PortIx) (f : PortSt → PortSt) : State :=
  s.modJorx fun j => { j with ports := j.ports.set i.val (f j.ports[i]) }

/-- JPORT_STATUS.STATE: 0 DOWN, 1 TRAIN, 2 UP, 3 HELD. -/
def State.portState (s : State) (i : Nat) : Nat := s.getF .jport i 0x104 1 0
def State.portUp (s : State) (i : Nat) : Bool := s.portState i == 2
/-- The peer's device ID. -/
def State.portPeer (s : State) (i : Nat) : Nat := s.getF .jport i 0x104 15 2

/-- n occurrences of a Jorx event at a port: on its page and on the JORX page (R386). -/
def State.portCount (s : State) (i : PortIx) (ev n : Nat) : State := (s.count .jport i.val ev n).jorxCount ev n

/-- One LINK record (R355, R453): 0 DOWN, 1 HELD, 2 UP. -/
def State.linkRecord (s : State) (i : PortIx) (ev : Nat) : State :=
  let st := s.getR .jport i.val 0x104
  s.deviceRecord 0x0A [i.val + ev * 32 + bitsOf st 15 2 * 128 + bitsOf st 20 16 * 2 ^ 21]

/-- A bit of JPORT_ERR. -/
def State.portErr (s : State) (i : PortIx) (bit : Nat) : State := s.setErr .jport i.val i.val 0x108 (2 ^ bit)

/-- A port goes DOWN (R355, R357, R372): LINK_DOWN to the JORX source, one LINK record, and what it held is lost. -/
def State.portDown (s : State) (i : PortIx) : State :=
  let s := (s.setF .jport i.val 0x104 1 0 0).portErr i 0
  ((s.raise jorxSrc).linkRecord i 0).modPort i fun _ => { PortSt.reset with since := s.tb.toNat }

/-- A retrain (R355, R357): the eighth within 1 s takes the port DOWN. Flits in the replay buffer survive it. -/
def State.retrain (s : State) (i : PortIx) : State :=
  let now := s.tb.toNat
  let ts := ((s.port i).retrains.filter fun t => decide (now < t + 1000000000)) ++ [now]
  let s := s.portErr i 2
  if 8 ≤ ts.length then s.portDown i
  else (s.setF .jport i.val 0x104 1 0 1).modPort i fun p => { p with retrains := ts, resends := 0, since := now }

/-- The ports of the device. -/
def allPorts : List PortIx := List.finRange 20

/-! ## Messages on a port (R356 to R359) -/

/-- Body flits of a message of n data bytes: 212 B in the head flit, 244 B in each other. -/
def bodyFlits (n : Nat) : Nat := ceilDiv (n - 212) 244

/-- The first virtual channel of a body's class (R358). -/
def Body.vc : Body → Nat
  | .put _ _ => 2
  | .getReq _ _ _ _ => 2
  | .bcastData _ _ _ => 2
  | .ack _ => 4
  | .nack _ _ => 4
  | .getData _ _ => 4
  | .arrive _ _ _ _ => 1
  | .release _ _ _ _ => 1
  | _ => 0

/-- The virtual channel of a message. -/
def msgVc (m : Msg) : Nat := Body.vc m.body + (if Body.vc m.body = 0 ∨ Body.vc m.body = 1 then 0 else b2n m.head.vcB)

/-- Flits join what a port has sent; the last 256 stay (R357). -/
def PortSt.push (p : PortSt) (vc : Nat) (msg : Option Msg) (n : Nat) : PortSt :=
  let fs := (List.range n).map fun k => (⟨(p.lseq + k) % 4096, vc, if k = 0 then msg else none, k⟩ : Flit)
  let all := p.buf ++ fs
  { p with lseq := (p.lseq + n) % 4096, buf := all.drop (all.length - 256) }

/-- Send n flits on a port (R357, R386). -/
def State.sendFlits (s : State) (i : PortIx) (vc : Nat) (msg : Option Msg) (n : Nat) : State :=
  (s.modPort i fun p => p.push vc msg n).portCount i 1 n

/-- A control flit (R356). -/
def State.sendControl (s : State) (i : PortIx) : State := s.sendFlits i 0 none 1

/-- Send a message on a port. -/
def State.sendOn (s : State) (i : PortIx) (m : Msg) : State := s.sendFlits i (msgVc m) (some m) (1 + bodyFlits m.head.len.toNat)

/-- Flits arrive in order (R357, R386). -/
def State.rxFlits (s : State) (i : PortIx) (n : Nat) : State :=
  (s.modPort i fun p => { p with rx := (p.rx + n) % 4096 }).portCount i 2 n

/-! ## Routing (R362, R365, R366) -/

/-- The pane port of this device to a position of its pane (R362). -/
def State.panePort (s : State) (q : Nat) : Nat := if q < posOfDev s.devId then q else q - 1

/-- The routing entry of a pane in a copy (R365, R385). -/
def State.rtEntry (s : State) (tsel : Bool) (pane : Nat) : Nat :=
  s.getR .jorxRt (2 * b2n tsel + pane / 512) (0x100 + 4 * (pane % 512))

/-- JORX_VIA of a destination position. -/
def State.via (s : State) (q : Nat) : Nat :=
  if q < 8 then s.getF .jorx 0 0x120 (4 * q + 3) (4 * q) else s.getF .jorx 0 0x124 (4 * (q - 8) + 3) (4 * (q - 8))

/-- The choice among live members (R366). -/
def routeHash (src dst : Nat) : Nat := (src * 40503 + dst) % 65536

def pick (src dst : Nat) (l : List Nat) : Option Nat := if l.isEmpty then none else l[routeHash src dst % l.length]?

/-- How a message leaves: the port, and the dimension of the pane hop it makes there, if it makes one. -/
structure Hop where
  port : PortIx
  dim : Option Nat
  deriving DecidableEq, Repr

/-- A port number that is UP, as a hop. -/
def State.hopOn (s : State) (n : Nat) (dim : Option Nat) (avoid : Option PortIx) : Option Hop :=
  if h : n < 20 then
    if s.portUp n && avoid != some ⟨n, h⟩ then some ⟨⟨n, h⟩, dim⟩ else none
  else none

/-- Routing (R366), past a port that is to be avoided if there is one. -/
def State.route (s : State) (src dst : Nat) (tsel : Bool) (avoid : Option PortIx) : Option Hop :=
  let live (n : Nat) : Bool := (s.hopOn n none avoid).isSome
  if paneOf dst = paneOf s.devId then
    let q := posOfDev dst
    let v := s.via q
    s.hopOn (s.panePort (if v = q ∨ v = posOfDev s.devId then q else v)) none avoid
  else
    let e := s.rtEntry tsel (paneOf dst)
    if !bitOf e 23 then none
    else
      let off := ((List.range 5).filter fun k => bitOf e k && live (15 + k)).map fun k => 15 + k
      let gw := ((List.range 16).filter fun q => bitOf e (5 + q) && q != posOfDev s.devId && live (s.panePort q)).map s.panePort
      if off.isEmpty then (pick src dst gw).bind fun n => s.hopOn n none avoid
      else (pick src dst off).bind fun n => s.hopOn n (some (bitsOf e 22 21)) avoid

/-- The head of a message as it leaves by a hop (R358): on a pane hop in another dimension it returns to the A channel, and past a
dateline it moves to B. -/
def State.hopHead (s : State) (h : Head) (x : Hop) : Head :=
  match x.dim with
  | none => h
  | some d =>
    let b := if h.ldim.toNat = d then h.vcB else false
    { h with ldim := BitVec.ofNat 2 d, vcB := b || s.bitR .jport x.port.val 0x100 2 }

/-- A message with no route is dropped where it stands (R366). -/
def State.noRoute (s : State) : State := s.jorxCount 9 1

/-- Send a message on its way, or drop it: the answer says whether it left. -/
def State.forwardMsg (s : State) (m : Msg) (avoid : Option PortIx) : State × Bool :=
  match s.route m.head.src.toNat m.head.dst.toNat m.head.tsel avoid with
  | none => (s.noRoute, false)
  | some x => (s.sendOn x.port { m with head := s.hopHead m.head x }, true)

/-- JORX_CTRL.ACTIVE. -/
def State.activeCopy (s : State) : Bool := s.bitR .jorx 0 0x110 5

/-- The head of a message of this device (R359). -/
def State.newHead (s : State) (dst : Nat) (dsh ssh : ShadeIx) (seq len : Nat) : Head :=
  { dst := BitVec.ofNat 14 dst, src := BitVec.ofNat 14 s.devId, dshade := dsh, sshade := ssh, sepoch := BitVec.ofNat 16 s.devEpoch,
    depoch := match s.peer dst with
      | some p => p.epoch
      | none => 0
    seq := BitVec.ofNat 32 seq, len := BitVec.ofNat 13 len, ldim := 0, vcB := false, tsel := s.activeCopy }

/-- Inject a message of this device: whether it left. A shade's message counts its flits, and on VCs 2 to 5 itself (R386, R429). -/
def State.inject (s : State) (m : Msg) : State × Bool :=
  let r := s.forwardMsg m none
  let s' := if Body.vc m.body = 0 then r.1
    else r.1.count .jshade m.head.sshade.val 1 (if r.2 then 1 + bodyFlits m.head.len.toNat else 0)
  (if 2 ≤ Body.vc m.body then s'.count .shcfg m.head.sshade.val 4 (b2n r.2) else s', r.2)

/-- Inject a message whose loss shows nowhere here. -/
def State.post (s : State) (m : Msg) : State := (s.inject m).1

/-! ## Streams (R361, R403) -/

/-- The next SEQ of an outbound stream. -/
def State.nextSeq (s : State) (key : Nat) : Nat := s.jorx.outSeq.get (fun _ => 0) key

/-- The stream log has no room for a stream that this epoch has not yet used (R403). -/
def State.streamLogFull (s : State) (sh : ShadeIx) (key : Nat) : Bool :=
  let l := (s.sh sh).rep.streamLog
  !(l.any fun e => e.1 == key) && decide (512 ≤ l.length)

/-- Take the next SEQ of a stream, logging the stream when the epoch first sends on it (R403). -/
def State.takeSeq (s : State) (sh : ShadeIx) (key : Nat) : State × Nat :=
  let n := s.nextSeq key
  let s := s.modSh sh fun x =>
    if x.rep.streamLog.any fun e => e.1 == key then x else { x with rep := { x.rep with streamLog := x.rep.streamLog ++ [(key, n)] } }
  (s.modJorx fun j => { j with outSeq := j.outSeq.set (fun _ => 0) key ((n + 1) % 2 ^ 32) }, n)

/-- What an incoming SEQ is (R361). -/
inductive SeqKind where
  | dup | next | gap
  deriving DecidableEq, Repr

/-- Judge and record an incoming SEQ of a stream. -/
def State.takeIn (s : State) (i : PortIx) (key seq : Nat) : State × SeqKind :=
  let e := s.jorx.inSeq.get (fun _ => 0) key
  if seq < e then (s.portCount i 7 1, .dup)
  else
    let s' := s.modJorx fun j => { j with inSeq := j.inSeq.set (fun _ => 0) key (seq + 1) }
    if e < seq then ((s'.portCount i 8 1).jorxErr 1, .gap) else (s', .next)

/-! ## Receiving (R360, R366) -/

/-- Messages between link partners and floods, which no routing table carries (R374, R380, R381). -/
def Body.neighbour : Body → Bool
  | .dead _ _ => true
  | .alive _ _ => true
  | .join _ => true
  | .marrive _ _ => true
  | .mrelease _ _ _ => true
  | _ => false

/-- Management messages are exempt from R360. -/
def Body.mgmt : Body → Bool
  | .dead _ _ => true
  | .alive _ _ => true
  | .join _ => true
  | .probe _ => true
  | .marrive _ _ => true
  | .mrelease _ _ _ => true
  | _ => false

/-- R360 drops a message. -/
def State.stale (s : State) (m : Msg) : Bool :=
  !Body.mgmt m.body && ((match s.peer m.head.src.toNat with
    | none => false
    | some p => !p.alive || p.epoch != m.head.sepoch) || m.head.depoch.toNat != s.devEpoch)

/-- What becomes of an incoming message: it is not taken (the port is not UP, or the device has no ID), it is forwarded or dropped
on its way, it is stale, or it is this device's. -/
def State.receive (s : State) (i : PortIx) (m : Msg) (f : State → State) : State :=
  if !s.portUp i.val then s
  else
    let s := s.rxFlits i (1 + bodyFlits m.head.len.toNat)
    if !s.idValid then s
    else if m.head.dst.toNat ≠ s.devId ∧ !Body.neighbour m.body then (s.forwardMsg m none).1
    else if s.stale m then s.portCount i 6 1
    else f s

/-! ## Abnormal completion (R371) -/

/-- A bit of JSH_ERR; the JSH source follows (R431). -/
def State.jshErr (s : State) (sh : ShadeIx) (bit : Nat) : State := (s.setErr .jshade sh.val sh.val 0x184 (2 ^ bit)).raise (shadeSrc sh 2)

/-- The link status word (R371): the code's bit is ORed in and the count goes up by 1. -/
def State.linkStatus (s : State) (sh : ShadeIx) (bit : Nat) : State :=
  let r := s.getR .jshade sh.val 0x180
  let w := s.poolWin (s.leadP sh)
  let off := bitsOf r 15 0 * 128
  if !bitOf r 16 || decide (w.2 < off + 8) then s
  else
    let k := poolKey (s.leadP sh) (w.1 + off)
    let v := s.rdNat k 8
    s.wrN k (leBytes 8 (v % 2 ^ 32 ||| 2 ^ bit) |>.take 4 |>.append (leBytes 4 ((v / 2 ^ 32 + 1) % 2 ^ 32)))

/-- What an abnormal completion reports: the REPORT fault, the link status word and JSH_ERR (R371). -/
def State.abnormalMarks (s : State) (sh : ShadeIx) (q : QOp) (code : Nat) : State :=
  let bit := if code = F_DEST_DEAD then 0 else 1
  ((s.reportFault sh code ⟨q.slot, q.baddr, s.leadP sh, 0⟩).linkStatus sh bit).jshErr sh (bit + 1)

/-- An operation completes with DEST_DEAD or LINK_DOWN (R371). -/
def State.abnormal (s : State) (sh : ShadeIx) (q : QOp) (code : Nat) : State :=
  ((s.modSh sh fun x => { x with open_ := x.open_.filter fun o => o.opId != q.id }).finishNow sh q).abnormalMarks sh q code

/-! ## Pane hops (R373) -/

/-- H of a group (R373). How panes are joined only the routing tables of every device tell: a constant of the array. -/
def groupH (lo hi root : Nat) : Nat :=
  maxOf ((List.range (hi + 1 - lo)).map fun k => if lo + k = root then 0 else (Config.paneHops root (lo + k)).toNat)

end Sys2Proof.Machine
end

