-- ==== Sys2Proof/Machine/Capture.lean ====
section
/-! DEFINITION. The part of the start check that every operation on governed tensors meets: captures of mask epochs and their waits
(R117, R118), and the tables of generated objects (R342, R343, R345). -/

namespace Sys2Proof.Machine

/-! ## What an operation names -/

/-- The tensor descriptors an array operation reads or writes in a tile. -/
def arrayNamed (d : FMap W64) (o : ArrayOpc) (t ld : Nat) : List Nat :=
  let x := readNest d t ld
  let e := readPass d t x.pld
  let ins := [x.tda, x.tdb] ++ (if x.msrc = 0 then [] else [x.tdm])
  match o with
  | .zero => []
  | .store => [e.tdc]
  | .mms => ins ++ [e.tdc]
  | .mm => ins
  | .dist => ins

/-- The tensor descriptors an operation reads or writes. -/
def QOp.named (q : QOp) : List Nat :=
  match q.op with
  | .array o a => (tilesOf a.tiles).flatMap fun t => arrayNamed q.desc o t a.ld.toNat
  | .lens _ a => (readCD q.desc a.cd.toNat).ins ++ (readCD q.desc a.cd.toNat).outs
  | .focus o a => [a.tdi.toNat, a.tdv.toNat] ++ (if focusSums o then [] else [a.tdx.toNat])
  | .mask (.scomp _ _ td _ td2) => [td.toNat, td2.toNat]
  | .beam (.copy _ tds tdd g _) => tds.toNat :: (if (BeamWord.ofNat (q.greg g.toNat)).remote then [] else [tdd.toNat])
  | .beam (.scrub _ tdd _ _) => [tdd.toNat]
  | .jorx (.put td _ _) => [td.toNat]
  | .jorx (.get td _ _) => [td.toNat]
  | .jorx (.bcast td _ _ _) => [td.toNat]
  | .spk (.draw _ td _) => [td.toNat]
  | _ => []

/-- The governed descriptors among them. -/
def QOp.governed (q : QOp) : List TD := (q.named.map (readTD q.desc)).filter fun t => t.moen

/-- The operation captures the next epoch of a mask object (R117). -/
def QOp.capturesNext (q : QOp) (mo : Nat) : Bool := q.governed.any fun t => t.mo == mo && t.esel

/-- The mask object of a mask operation (R118). -/
def QOp.maskObj (q : QOp) : Option Nat :=
  match q.op with
  | .mask (.prune mo _ _) => some mo.toNat
  | .mask (.grow mo _ _) => some mo.toNat
  | .mask (.mirrorBuild mo _ _) => some mo.toNat
  | _ => none

/-- Operations issued before that are not complete. -/
def ShadeSt.before (x : ShadeSt) (q : QOp) : List QOp :=
  (x.queue.filter fun o => decide (o.id < q.id)) ++ ((x.running.filter fun r => !r.done && decide (r.q.id < q.id)).map fun r => r.q)

/-! ## R118 -/

/-- The operation waits under R118. -/
def State.maskWaits (s : State) (sh : ShadeIx) (q : QOp) : Bool :=
  let old := (s.sh sh).before q
  let copying (mo : Nat) : Bool := (s.maskOf sh mo).copy
  (q.governed.any fun t => t.esel && (copying t.mo || old.any fun o => o.maskObj == some t.mo))
  || (match q.op with
      | .mask (.mcommit mo) => old.any fun o => o.maskObj == some mo.toNat
      | _ => match q.maskObj with
        | some mo => copying mo || old.any fun o => o.capturesNext mo || o.maskObj.isSome
        | none => false)

/-- R117, R118 or R344 refuses a capture. -/
def State.maskRefused (s : State) (sh : ShadeIx) (q : QOp) : Bool :=
  let st (mo : Nat) : MaskSt := s.maskOf sh mo
  let learnBad (t : TD) : Bool := match s.genEntry sh t.mo with
    | none => false
    | some n => bitOf (s.pat sh n 0) 12 && (st (bitsOf (s.pat sh n 0) 24 19)).epoch == 0
  (q.governed.any fun t => (if t.esel then !(st t.mo).built else (st t.mo).epoch == 0) || learnBad t)
  || (match q.op with
      | .mask (.prune mo _ _) => (st mo.toNat).pend || (st mo.toNat).epoch == 0
      | .mask (.grow mo _ _) => (st mo.toNat).pend || (st mo.toNat).epoch == 0
      | .mask (.mirrorBuild mo _ _) => (st mo.toNat).pend
      | .mask (.silh mo _ _ _) => (st mo.toNat).epoch == 0
      | _ => false)

/-! ## Generated objects (R342, R343, R345) -/

/-- The prisms that run an operation. -/
def State.opPrisms (s : State) (sh : ShadeIx) (q : QOp) : List Nat :=
  match q.op with
  | .lens _ a => s.partPrisms sh (readCD q.desc a.cd.toNat).part
  | .focus _ a => s.partPrisms sh (FCW.ofNat (q.greg a.g.toNat)).part
  | .beam (.copy _ _ _ g _) => s.partPrisms sh (BeamWord.ofNat (q.greg g.toNat)).part
  | .spk (.draw g _ _) => s.partPrisms sh (bitsOf (q.greg g.toNat) 4 3)
  | .jorx (.put _ g _) => s.partPrisms sh (bitsOf (q.greg g.toNat) 27 26)
  | .jorx (.get _ g _) => s.partPrisms sh (bitsOf (q.greg g.toNat) 27 26)
  | .jorx (.bcast _ g _ _) => s.partPrisms sh (bitsOf (q.greg g.toNat) 27 26)
  | _ => s.prismsOf sh

/-- The pattern entries an operation holds, each with a descriptor that names it. -/
def State.genHeld (s : State) (sh : ShadeIx) (q : QOp) : List (Nat × TD) :=
  q.governed.filterMap fun t => (s.genEntry sh t.mo).map fun n => (n, t)

/-- The captured origins word of an entry. -/
def State.genWord (s : State) (sh : ShadeIx) (q : QOp) (n : Nat) : W64 :=
  BitVec.ofNat 64 (q.greg (bitsOf (s.pat sh n 0) 18 13))

/-- A running operation holds one of the entries with other origins (R343). -/
def State.genWaits (s : State) (sh : ShadeIx) (q : QOp) : Bool :=
  (s.genHeld sh q).any fun e => (s.sh sh).running.any fun r =>
    !r.done && r.q.id != q.id && ((s.genHeld sh r.q).any fun f => f.1 == e.1 && s.genWord sh r.q f.1 != s.genWord sh q e.1)

/-- The present blocks of a generated object in a prism, in ascending block index. -/
def State.genBlocks (s : State) (c : Ctx) (n : Nat) (m : MOD) : Except OpFault (List (Nat × Nat)) :=
  ((List.range m.rows).flatMap fun r => (List.range m.cols).map fun cc => (r, cc)).foldlM (fun (acc : List (Nat × Nat)) b => do
    let p ← s.genPresent c n b.1 b.2
    .ok (if p then acc ++ [b] else acc)) []

/-- The tables of a generated object in a prism's work area (R342). -/
def State.genTables (s : State) (p n : Nat) (m : MOD) (bs : List (Nat × Nat)) : State :=
  let at' := poolKey p ((s.poolWin p).1 + bitsOf (s.pat (((s.shadeOfPrism p)).getD 0) n 0x10) 15 0 * 128 + 128)
  let ofs := (List.range (m.rows + 1)).flatMap fun r => leBytes 4 (bs.filter fun b => decide (b.1 < r)).length
  let cofs := (List.range (m.cols + 1)).flatMap fun k => leBytes 4 (bs.filter fun b => decide (b.2 < k)).length
  (s.wrN at' ofs).wrN (at' + ceilDiv ((m.rows + 1) * 4) 128 * 128) cofs

/-- A prism's present count exceeds CAP (R345). -/
def overCap (p n : Nat) : OpFault := ⟨F_BOUND, .start, p, 0, none, .overCap n⟩

/-- Core cycles that computing an entry's tables takes (R342): LEARN doubles the first term and reads HBM, 126 ns (R287). -/
def State.genCycles (s : State) (sh : ShadeIx) (n : Nat) (m : MOD) : Nat :=
  let a := ceilDiv (m.rows * m.cols) 4096
  if bitOf (s.pat sh n 0) 12 then 2 * a + 32 + s.nsCycles 126 else a + 32

/-- Prepare the tables of an entry in every prism that takes part, unless they stand (R342, R345). -/
def State.genPrepare (s : State) (sh : ShadeIx) (q : QOp) (e : Nat × TD) : Res :=
  let m := readMO q.desc e.2.mo
  let w := s.genWord sh q e.1
  let stand := (s.sh sh).genTab.get (fun _ => none) e.1 == some w
  (resFold (fun s p =>
    Res.withRead s (s.genBlocks ⟨sh, p, 0, q.g⟩ e.1 m) fun bs =>
      if m.cap < bs.length then ⟨s.count .pattern sh.val 5 1, some (overCap p e.1)⟩
      else if stand then .ok s
      else .ok (((s.genTables p e.1 m bs).count .pattern sh.val 1 1).countSpan .pattern sh.val 2 (s.genCycles sh e.1 m)
        |>.countUnits .pattern sh.val 4 bs.length)) s
    (s.opPrisms sh q)).andThen fun s =>
    .ok (s.modSh sh fun x => { x with genTab := x.genTab.set (fun _ => none) e.1 (some w) })

/-! ## The shared start check -/

/-- What the shared part of a start check answers. -/
inductive Ready where
  | wait (s : State)
  | fault (s : State) (f : OpFault)
  | go (s : State)
  deriving DecidableEq, Repr

/-- The captures of an operation at its start check: a wait counts CAPTURE_WAIT, and GEN_WAIT where a pattern entry is held. -/
def State.capture (s : State) (sh : ShadeIx) (q : QOp) : Ready :=
  if s.maskWaits sh q then .wait (s.cycleEv .mask (s.leadP sh) 9 true)
  else if s.maskRefused sh q then .fault s (startFault (s.leadP sh) 0)
  else if s.genWaits sh q then .wait ((s.cycleEv .mask (s.leadP sh) 9 true).cycleEv .pattern sh.val 3 true)
  else
    let s := (s.cycleEv .mask (s.leadP sh) 9 false).cycleEv .pattern sh.val 3 false
    let r := resFold (fun s e => s.genPrepare sh q e) s (s.genHeld sh q)
    match r.err with
    | none => .go r.s
    | some f => .fault r.s f

end Sys2Proof.Machine
end

