-- ==== Sys2Proof/Machine/Remote.lean ====
section
/-! DEFINITION. Remote operations (R300, R369 to R372, R410, R411, R424): PUT, GET and COPY to another device, the items their messages
carry, the checks at the receiver, and their acknowledgements. -/

namespace Sys2Proof.Machine

/-! ## The remote word (R369) -/

/-- The remote word, and the place a remote COPY names (R300). -/
structure RemoteWord where
  dev : Nat
  shade : Nat
  rtd : Nat
  part : Nat
  rsvd : Bool
  deriving DecidableEq, Repr

def RemoteWord.ofNat (w : Nat) : RemoteWord := ⟨bitsOf w 13 0, bitsOf w 17 14, bitsOf w 25 18, bitsOf w 27 26, bitsOf w 63 28 != 0⟩

/-- A reserved value or bit. -/
def RemoteWord.bad (w : RemoteWord) : Bool := w.rsvd || w.part == 0 || w.part == 3

/-- A shade number of four bits. -/
def shadeOf (n : Nat) : ShadeIx := ⟨n % 16, Nat.mod_lt _ (by decide)⟩

/-- Spaces of Jorx operands (R370). -/
def jorxSpaces : List Nat := [0, 1, 2, 3, 4, 5, 6, 7, 9, 0xA]

/-- The issue check of PUT, GET and BCAST (R369, R370). -/
def State.remoteCheck (s : State) (sh : ShadeIx) (q : QOp) (td : Nat) (g : GReg) (bcast : Bool) : Option Nat :=
  let w := RemoteWord.ofNat (q.greg g.toNat)
  let t := readTD q.desc td
  firstCode [
    rsvdIf (w.bad || (bcast && (w.shade != 0 || w.rtd != 0))),
    s.checkSpacesTD sh q.desc td jorxSpaces false w.part t.sizes (if t.isBsg then some t else none)]

/-- The allowed destination set of a shade (R424). -/
def State.destAllowed (s : State) (sh : ShadeIx) (dev rsh : Nat) : Bool :=
  let pn := s.getR .shcfg sh.val 0x11C
  let ps := s.getR .shcfg sh.val 0x120
  (bitOf pn 20 || (decide (bitsOf pn 9 0 ≤ paneOf dev) && decide (paneOf dev ≤ bitsOf pn 19 10) && bitOf ps (posOfDev dev)))
  && bitOf ps (16 + rsh)

/-! ## Items of a part -/

/-- The sixteen words of a descriptor. -/
def tdWords (d : FMap W64) (n : Nat) : List W64 := (List.range 16).map fun i => d.get descDefault (tdWord n i)
/-- A descriptor from its words. -/
def tdOfWords (ws : List W64) : TD := readTD ((FMap.empty : FMap W64).setList descDefault 0 (ws.take 16)) 0

/-- Element positions of a part (R359, R370). -/
def TD.positions (t : TD) (r : PartRange) : Nat :=
  if t.isBsg then r.rn * t.bcols * (t.edge * t.edge) else r.dn * prodL t.sizes.tail

/-- Element positions in one message of 4,096 B (R359). -/
def TD.perMsg (t : TD) : Nat := 4096 * 8 / t.fmt.width

/-- The element at a position of a dense part. -/
def TD.elAt (t : TD) (r : PartRange) (i : Nat) : LEl :=
  let lco := unIndex (r.dn :: t.sizes.tail) i
  ⟨match lco with
    | [] => []
    | x :: xs => (r.d0 + x) :: xs, lco, none⟩

/-- Headers, offset-table entries and tile scales of a block row. -/
def State.rowItems (s : State) (c : Ctx) (v : LView) (rho : Nat) : Except OpFault (List Item) := do
  let hs ← (List.range v.t.groups).mapM fun g => do
    let h ← s.rdHdr c v.t v.m v.e rho g
    .ok (Item.hdr rho g h.toNat)
  let os ← if v.t.strided then .ok [] else [rho, rho + 1].mapM fun k => do
    let o ← s.rdOfs c v.t v.m v.e k
    .ok (Item.ofs k o)
  let ts ← ((List.range v.t.bcols).filter fun _ => v.t.tsen).mapM fun bc => do
    let x ← match v.t.tsAddr (v.t.blockCo rho bc) with
      | none => .ok 0
      | some a => s.rdSNat c v.t.space a 2
    .ok (Item.tsc rho bc x)
  .ok (hs ++ os ++ ts)

/-- What is sent for one position of a part: nothing for an element of an absent block. -/
def State.posItems (s : State) (c : Ctx) (v : LView) (r : PartRange) (i : Nat) : Except OpFault (List Item) :=
  if !v.t.isBsg then do
    let x ← s.rdRaw c v.t (v.t.partLoc r (v.t.elAt r i))
    .ok [.el i x.code x.scale x.ts]
  else
    let e2 := v.t.edge * v.t.edge
    let rho := r.r0 + i / e2 / v.t.bcols
    let bc := i / e2 % v.t.bcols
    let k := i % e2
    do
      let pre ← if bc = 0 ∧ k = 0 then s.rowItems c v rho else .ok []
      match ← s.viewSlot c v rho bc with
      | none => .ok pre
      | some a => do
        let x ← s.rdRaw c v.t (v.t.inBlock a (k / v.t.edge) (k % v.t.edge) none)
        .ok (pre ++ [.cell rho bc k x.code x.scale])

/-- What is sent for a range of positions. -/
def State.chunkItems (s : State) (c : Ctx) (v : LView) (r : PartRange) (first n : Nat) : Except OpFault (List Item) := do
  let l ← (List.range n).mapM fun i => s.posItems c v r (first + i)
  .ok l.flatten

/-- Data bytes of a message (R359). -/
def itemBytes (f : Fmt) (l : List Item) : Nat :=
  let n := (l.filter fun x => match x with
    | .el _ _ _ _ => true
    | .cell _ _ _ _ _ => true
    | _ => false).length
  min 4096 (ceilDiv (n * f.width) 8)

/-- The item lies inside the part and the grid of the tensor it is for. -/
def TD.itemFits (t : TD) (r : PartRange) (x : Item) : Bool :=
  let row (rho : Nat) : Bool := t.isBsg && decide (r.r0 ≤ rho) && decide (rho < r.r0 + r.rn)
  match x with
  | .el i _ _ _ => !t.isBsg && decide (i < t.positions r)
  | .cell rho bc k _ _ => row rho && decide (bc < t.bcols) && decide (k < t.edge * t.edge)
  | .hdr rho g _ => row rho && decide (g < t.groups)
  | .ofs k _ => t.isBsg && decide (r.r0 ≤ k) && decide (k ≤ r.r0 + r.rn)
  | .tsc rho bc _ => row rho && decide (bc < t.bcols)

/-- Write an element's code and, where the tensor has them, its scales. -/
def State.putEl (s : State) (c : Ctx) (t : TD) (l : ELoc) (code scale ts : Nat) : Res :=
  let opt (s : State) (a : Option Nat) (n v : Nat) : Res := match a with
    | none => .ok s
    | some a => s.wrSN c t.space a (leBytes n v)
  ((s.wrBits c t.space l.bit t.fmt.width code).andThen fun s => opt s l.scale t.fmt.scaleBytes scale).andThen fun s => opt s l.ts 2 ts

/-- Write one item to a tensor under the PLAIN rules (R297): a governed tensor's headers are never written, and a block it does not
hold is passed over. -/
def State.putItem (s : State) (c : Ctx) (q : QOp) (n part : Nat) (r : PartRange) (x : Item) : Res :=
  let t := readTD q.desc n
  let m := readMO q.desc t.mo
  let e := capParity q.masks t
  match x with
  | .el i code scale ts => s.putEl c t (t.partLoc r (t.elAt r i)) code scale ts
  | .hdr rho g w => if t.moen then .ok s else s.wrSN c (t.hdrPlace m e rho g).1 (t.hdrPlace m e rho g).2 (leBytes 2 w)
  | .ofs k v => if t.moen || t.strided then .ok s else s.wrSN c (t.ofsPlace m e k).1 (t.ofsPlace m e k).2 (leBytes 4 v)
  | .tsc rho bc v => match t.tsAddr (t.blockCo rho bc) with
    | none => .ok s
    | some a => s.wrSN c t.space a (leBytes 2 v)
  | .cell rho bc k code scale =>
    Res.withRead s (s.lview c q n part r) fun v =>
    Res.withRead s (s.viewSlot c v rho bc) fun y => match y with
      | none => .ok s
      | some a => s.putEl c t (t.inBlock a (k / t.edge) (k % t.edge) none) code scale 0

/-! ## The remote side (R370, R410, R424) -/

/-- The operation that a request stands for at a shade: its descriptors, masks and registers as they are now. -/
def State.visitor (s : State) (sh : ShadeIx) : QOp :=
  let x := s.sh sh
  ⟨x.nextId, 12, 0, .hold, x.lan.g, x.desc, x.masks, 0, false, 0, false⟩

/-- The prism that serves a request: the one at the sender's position, or the lead prism (R370). -/
def State.servingPrism (s : State) (sh : ShadeIx) (t : MsgTD) : Option Nat :=
  let ps := s.prismsOf sh
  match t.part.toNat with
  | 2 => some (s.leadP sh)
  | 1 => if ps.length = t.prisms then ps[t.pos]? else none
  | _ => ps[t.pos]?

/-- The epoch a governed tensor would capture exists (R117). -/
def captureOk (q : QOp) (t : TD) : Bool :=
  let st := q.masks.get maskDefault t.mo
  !t.moen || (if t.esel then st.built else st.epoch != 0)

/-- The remote side of a request, past every check but those of the accesses: the operation it stands for and the prism. -/
def State.remotePlan (s : State) (sh : ShadeIx) (dev : Nat) (rsh : ShadeIx) (t : MsgTD) (get : Bool) : Option (QOp × Nat) :=
  let q := s.visitor sh
  let far := tdOfWords t.words
  let b := readTD q.desc t.rtd.toNat
  let ok := (s.sh sh).life == 1 && s.destAllowed sh dev rsh.val && captureOk q b
    && (s.checkSpacesTD sh q.desc t.rtd.toNat jorxSpaces false t.part.toNat b.sizes (if b.isBsg then some b else none)).isNone
    && !(if get then plainBad b far else plainBad far b)
  if ok then (s.servingPrism sh t).map fun p => (q, p) else none

/-- The part of a prism of a tensor. -/
def State.tdPart (s : State) (sh : ShadeIx) (part p : Nat) (t : TD) : PartRange :=
  s.partRange sh part p t.sizes (if t.isBsg then some t else none)

/-- A request is rejected: outside the destination set SH_ERR.SRC is set (R424). -/
def State.rejectMarks (s : State) (sh : ShadeIx) (dev : Nat) (rsh : ShadeIx) : State :=
  if s.destAllowed sh dev rsh.val then s else (s.setErr .shcfg sh.val sh.val 0x124 4).count .shcfg sh.val 8 1

/-- The fault of an access at the remote side: its failed walk and the guard it met leave their marks (R291, R410). -/
def State.remoteFault (s : State) (sh : ShadeIx) (f : OpFault) : State :=
  let s := match f.xl with
    | none => s
    | some x => s.recordXlate sh 5 x
  match f.mark with
  | .guard _ => s.count .replay sh.val 7 1
  | _ => s

/-- Write the items of a message to a shade's tensor: the state, and whether it was accepted. A rejected message writes nothing; an
accepted one leaves the guard's WRITTEN bits as they were, for it is no write of the shade's units. -/
def State.acceptItems (s : State) (sh : ShadeIx) (dev : Nat) (rsh : ShadeIx) (t : MsgTD) (items : List Item) : State × Bool :=
  match s.remotePlan sh dev rsh t false with
  | none => (s.rejectMarks sh dev rsh, false)
  | some (q, p) =>
    let r := s.tdPart sh t.part.toNat p (readTD q.desc t.rtd.toNat)
    if !(items.all fun x => (readTD q.desc t.rtd.toNat).itemFits r x) then (s, false)
    else
      let z := resFold (fun s x => s.putItem ⟨sh, p, 0, q.g⟩ q t.rtd.toNat t.part.toNat r x) s items
      match z.err with
      | some f => (s.remoteFault sh f, false)
      | none => ({ z.s with regs := s.regs }, true)

/-- Read a range of positions of a shade's tensor for a GET: the state and the items, or a rejection. -/
def State.serveItems (s : State) (sh : ShadeIx) (dev : Nat) (rsh : ShadeIx) (t : MsgTD) (first n : Nat) : State × Option (List Item) :=
  match s.remotePlan sh dev rsh t true with
  | none => (s.rejectMarks sh dev rsh, none)
  | some (q, p) =>
    let b := readTD q.desc t.rtd.toNat
    let r := s.tdPart sh t.part.toNat p b
    let c : Ctx := ⟨sh, p, 0, q.g⟩
    if b.positions r < first + n then (s, none)
    else match (do let v ← s.lview c q t.rtd.toNat t.part.toNat r; s.chunkItems c v r first n) with
      | .ok l => (s, some l)
      | .error f => (s.remoteFault sh f, none)

/-! ## The source side -/

/-- A Jorx operation, or a COPY to another device, as its parts need it: where it goes, which local tensor it moves, whether it is a
GET and its Beam. -/
structure Transfer where
  dev : Nat
  rsh : ShadeIx
  rtd : BitVec 8
  part : Nat
  td : Nat
  get : Bool
  beam : Option Nat
  deriving DecidableEq, Repr

/-- What an operation moves to or from another device. -/
def QOp.transfer (q : QOp) : Option Transfer :=
  match q.op with
  | .jorx (.put td g _) =>
    let w := RemoteWord.ofNat (q.greg g.toNat)
    some ⟨w.dev, shadeOf w.shade, BitVec.ofNat 8 w.rtd, w.part, td.toNat, false, none⟩
  | .jorx (.get td g _) =>
    let w := RemoteWord.ofNat (q.greg g.toNat)
    some ⟨w.dev, shadeOf w.shade, BitVec.ofNat 8 w.rtd, w.part, td.toNat, true, none⟩
  | .beam (.copy b tds tdd g _) =>
    let w := BeamWord.ofNat (q.greg g.toNat)
    let x := q.greg (g.toNat + 1)
    if w.remote then some ⟨bitsOf x 13 0, shadeOf (bitsOf x 17 14), tdd, w.part, tds.toNat, false, some b.toNat⟩ else none
  | _ => none

/-- An operation of slot 12. -/
def QOp.isJorx (q : QOp) : Bool :=
  match q.op with
  | .jorx _ => true
  | _ => false

/-- The Jorx engines hold eight operations (R370). -/
def State.jorxFull (s : State) (sh : ShadeIx) : Bool :=
  decide (8 ≤ ((s.sh sh).running.filter fun r => !r.done && r.q.isJorx).length)

/-- A stream with a device's shade still has messages of the other routing copy unacknowledged (R367). -/
def State.oldCopy (s : State) (sh : ShadeIx) (dev : Nat) (rsh : ShadeIx) : Bool :=
  (s.sh sh).open_.any fun o => o.dev.toNat == dev && o.shade == rsh && o.tsel != s.activeCopy

/-- The start check of a transfer past its captures (R367, R370, R383, R403, R424): it waits, fails, or goes. -/
def State.transferReady (s : State) (sh : ShadeIx) (q : QOp) (x : Transfer) : Ready :=
  if !s.destAllowed sh x.dev x.rsh.val then
    .fault ((s.setErr .shcfg sh.val sh.val 0x124 2).count .shcfg sh.val 8 1) (boundStart (s.leadP sh) 0)
  else if x.dev ≠ s.devId ∧ !x.get ∧ s.streamLogFull sh (streamKey sh x.dev x.rsh) then .fault s (startFault (s.leadP sh) 0)
  else if (q.isJorx ∧ s.jorxFull sh) ∨ s.jorx.holdFrom.isSome ∨ s.oldCopy sh x.dev x.rsh then .wait s
  else match x.beam with
    | none => .go s
    | some _ => match s.readMeetCheck sh (readTD q.desc x.td) (readMO q.desc (readTD q.desc x.td).mo) .whole with
      | some f => .fault s f
      | none => .go s

/-- The message that part of a transfer needs says this of its tensors. -/
def State.msgTD (s : State) (sh : ShadeIx) (q : QOp) (x : Transfer) (p : Nat) : MsgTD :=
  ⟨x.rtd, tdWords q.desc x.td, BitVec.ofNat 2 x.part, s.posOf sh p, (s.prismsOf sh).length⟩

/-- First positions and lengths of the messages of n positions, k to a message. -/
def msgRanges (n k : Nat) : List (Nat × Nat) := (List.range (ceilDiv n k)).map fun i => (i * k, min k (n - i * k))

/-- A transfer stops with what a rejection reports (R300, R370). -/
def State.rejected (s : State) (sh : ShadeIx) (q : QOp) (p : Nat) : State :=
  let s := s.modSh sh fun x => { x with open_ := x.open_.filter fun o => o.opId != q.id }
  let s := match q.transfer.bind Transfer.beam with
    | some b => s.beamErr b p 3
    | none => s.jshErr sh 0
  s.opFault sh q (accFault F_BOUND p 0)

/-- The operation completes when none of its messages is open: a Beam counts its OPS (R307). -/
def State.openDone (s : State) (sh : ShadeIx) (q : QOp) : State :=
  if (s.sh sh).open_.any fun o => o.opId == q.id then s
  else
    let s := match q.transfer with
      | some ⟨_, _, _, part, _, _, some b⟩ =>
        (s.partPrisms sh part).foldl (fun (s : State) p => s.count (beamPage b p).1 (beamPage b p).2 1 1) s
      | _ => s
    s.finish sh q.id []

/-- A part that may go on: the state, or what ended the operation. -/
inductive Sent where
  | ok (s : State)
  | over (s : State)
  deriving DecidableEq, Repr

def Sent.andThen (r : Sent) (f : State → Sent) : Sent :=
  match r with
  | .ok s => f s
  | .over s => .over s

def sentFold {α : Type} (f : State → α → Sent) : State → List α → Sent
  | s, [] => .ok s
  | s, x :: xs => (f s x).andThen fun s => sentFold f s xs

/-- One message leaves the source, and its answer is awaited; with no route the operation completes with DEST_DEAD (R366). -/
def State.sendPart (s : State) (sh : ShadeIx) (q : QOp) (x : Transfer) (p arg len : Nat) (seq : Nat) (b : Body) : Sent :=
  let r := s.inject ⟨s.newHead x.dev x.rsh sh seq len, b⟩
  if r.2 then
    .ok (r.1.modSh sh fun y => { y with open_ := y.open_ ++
      [⟨q.id, BitVec.ofNat 14 x.dev, x.rsh, x.get, arg, s.posOf sh p, s.tb.toNat, s.activeCopy⟩] })
  else .over ((r.1.count .jshade sh.val 9 1).abnormal sh q F_DEST_DEAD)

/-- One message of a PUT or a remote COPY: nothing for a range without data (R411). -/
def State.putPart (s : State) (sh : ShadeIx) (q : QOp) (x : Transfer) (p : Nat) (v : LView) (r : PartRange) (ch : Nat × Nat) : Sent :=
  match s.chunkItems ⟨sh, p, 0, q.g⟩ v r ch.1 ch.2 with
  | .error f => .over (s.opFault sh q f)
  | .ok [] => .ok s
  | .ok items =>
    let m := s.msgTD sh q x p
    if x.dev = s.devId then
      let z := s.acceptItems x.rsh s.devId sh m items
      if z.2 then .ok z.1 else .over (((z.1.jorxCount 0xB 1)).rejected sh q p)
    else
      let z := s.takeSeq sh (streamKey sh x.dev x.rsh)
      z.1.sendPart sh q x p z.2 (itemBytes v.t.fmt items) z.2 (.put m items)

/-- One request of a GET. -/
def State.getPart (s : State) (sh : ShadeIx) (q : QOp) (x : Transfer) (p : Nat) (ch : Nat × Nat) : Sent :=
  let m := s.msgTD sh q x p
  let t := readTD q.desc x.td
  if x.dev = s.devId then
    match s.serveItems x.rsh s.devId sh m ch.1 ch.2 with
    | (s, none) => .over ((s.jorxCount 0xB 1).rejected sh q p)
    | (s, some items) =>
      let z := resFold (fun s i => s.putItem ⟨sh, p, 0, q.g⟩ q x.td x.part (s.tdPart sh x.part p t) i) s items
      match z.err with
      | some f => .over (z.s.opFault sh q f)
      | none => .ok z.s
  else
    let tag := s.jorx.nextTag
    let s := s.modJorx fun j => { j with nextTag := (j.nextTag + 1) % 2 ^ 64 }
    s.sendPart sh q x p tag 0 (s.nextSeq (streamKey sh x.dev x.rsh)) (.getReq m ch.1 ch.2 tag)

/-- A unit of a state region is checked before a remote COPY reads it (R321). -/
def State.transferVerify (s : State) (sh : ShadeIx) (q : QOp) (x : Transfer) (p : Nat) : Res :=
  let t := readTD q.desc x.td
  match x.beam, s.regTensor sh t (readMO q.desc t.mo) (capParity q.masks t) with
  | some _, some y => resFold (fun s u => s.verifyUnit ⟨sh, p, 0, q.g⟩ y u) s (y.unitsOf .whole)
  | _, _ => .ok s

/-- The messages of one prism's part, in order (R411). -/
def State.transferPrism (s : State) (sh : ShadeIx) (q : QOp) (x : Transfer) (p : Nat) : Sent :=
  let t := readTD q.desc x.td
  let r := s.tdPart sh x.part p t
  let cs := msgRanges (t.positions r) t.perMsg
  if x.get then sentFold (fun s ch => s.getPart sh q x p ch) s cs
  else
    let z := s.transferVerify sh q x p
    match z.err with
    | some f => .over (z.s.opFault sh q f)
    | none => match z.s.lview ⟨sh, p, 0, q.g⟩ q x.td x.part r with
      | .error f => .over (z.s.opFault sh q f)
      | .ok v => sentFold (fun s ch => s.putPart sh q x p v r ch) z.s cs

/-- A transfer begins: to a device recorded dead, or from an isolated one, it completes at once (R371, R381). -/
def State.transferGo (s : State) (sh : ShadeIx) (q : QOp) (x : Transfer) : State :=
  if s.isolated || (x.dev != s.devId && s.deadDev x.dev) then s.abnormal sh q F_DEST_DEAD
  else match sentFold (fun s p => s.transferPrism sh q x p) s (s.partPrisms sh x.part) with
    | .over s => s
    | .ok s => s.openDone sh q

/-! ## Messages of transfers -/

/-- An answer to a message, from the shade that received it; an isolated device sends none (R381). -/
def State.answer (s : State) (m : Msg) (len : Nat) (b : Body) : State :=
  if s.isolated then s
  else (s.forwardMsg ⟨s.newHead m.head.src.toNat m.head.sshade m.head.dshade 0 len, b⟩ none).1

/-- The key of the stream a message came on. -/
def msgInKey (m : Msg) : Nat := streamKey m.head.dshade m.head.src.toNat m.head.sshade

/-- A PUT for this device (R361, R370). -/
def State.putArrives (s : State) (i : PortIx) (m : Msg) : State :=
  match m.body with
  | .put t items =>
    let seq := m.head.seq.toNat
    match s.takeIn i (msgInKey m) seq with
    | (s, .dup) => s.answer m 0 (.ack m.head.seq)
    | (s, _) =>
      let z := s.acceptItems m.head.dshade m.head.src.toNat m.head.sshade t items
      if z.2 then z.1.answer m 0 (.ack m.head.seq)
      else (z.1.portCount i 0xB 1).answer m 0 (.nack false (BitVec.ofNat 64 seq))
  | _ => s

/-- A GET request for this device (R361, R370). -/
def State.getReqArrives (s : State) (i : PortIx) (m : Msg) : State :=
  match m.body with
  | .getReq t first n tag =>
    match s.serveItems m.head.dshade m.head.src.toNat m.head.sshade t first n with
    | (s, some items) => s.answer m (itemBytes (tdOfWords t.words).fmt items) (.getData tag items)
    | (s, none) => (s.portCount i 0xB 1).answer m 0 (.nack true (BitVec.ofNat 64 tag))
  | _ => s

/-- The open message an answer is for. -/
def State.openFor (s : State) (m : Msg) (get : Bool) (arg : Nat) : Option OpenMsg :=
  (s.sh m.head.dshade).open_.find? fun o => o.dev == m.head.src && o.get == get && o.arg == arg && (get || o.shade == m.head.sshade)

/-- The running operation behind an open message. -/
def State.openOp (s : State) (sh : ShadeIx) (o : OpenMsg) : Option QOp :=
  ((s.sh sh).running.find? fun r => r.q.id == o.opId && !r.done).map fun r => r.q

/-- An open message has its answer. -/
def State.closeMsg (s : State) (sh : ShadeIx) (o : OpenMsg) : State := s.modSh sh fun x => { x with open_ := x.open_.erase o }

/-- An ACK for this device. -/
def State.ackArrives (s : State) (m : Msg) : State :=
  match m.body with
  | .ack seq => match s.openFor m false seq.toNat with
    | none => s
    | some o =>
      let s := s.closeMsg m.head.dshade o
      match s.openOp m.head.dshade o with
      | none => s
      | some q => s.openDone m.head.dshade q
  | _ => s

/-- A NACK for this device (R370). -/
def State.nackArrives (s : State) (m : Msg) : State :=
  match m.body with
  | .nack get arg => match s.openFor m get arg.toNat with
    | none => s
    | some o => match s.openOp m.head.dshade o with
      | none => s.closeMsg m.head.dshade o
      | some q => s.rejected m.head.dshade q (((s.prismsOf m.head.dshade)[o.pos]?).getD 0)
  | _ => s

/-- Data for a GET of this device: without an open request it is dropped (R370). -/
def State.getDataArrives (s : State) (i : PortIx) (m : Msg) : State :=
  match m.body with
  | .getData tag items =>
    let sh := m.head.dshade
    match s.openFor m true tag with
    | none => (s.portCount i 7 1).count .jshade sh.val 7 1
    | some o => match s.openOp sh o with
      | none => s.closeMsg sh o
      | some q => match q.transfer with
        | none => s
        | some x =>
          let p := ((s.prismsOf sh)[o.pos]?).getD 0
          let t := readTD q.desc x.td
          let r := s.tdPart sh x.part p t
          if !(items.all fun y => t.itemFits r y) then s
          else
            let z := resFold (fun s y => s.putItem ⟨sh, p, 0, q.g⟩ q x.td x.part r y) s items
            match z.err with
            | some f => (z.s.modSh sh fun x => { x with open_ := x.open_.filter fun y => y.opId != o.opId }).opFault sh q f
            | none => (z.s.closeMsg sh o).openDone sh q
  | _ => s

/-- ACK_US in ns; 0 is read as 1 (R371). -/
def State.ackTime (s : State) : Nat := max 1 (s.getF .jorx 0 0x11C 15 0) * 1000

/-- The oldest message of a shade that lacks its answer is given up (R371). -/
def State.ackTimeout (s : State) (sh : ShadeIx) : State :=
  match (s.sh sh).open_.find? fun o => decide (o.sentAt + s.ackTime ≤ s.tb.toNat) with
  | none => s
  | some o => match s.openOp sh o with
    | none => s.closeMsg sh o
    | some q => s.abnormal sh q F_LINK_DOWN

end Sys2Proof.Machine
end

