-- ==== Sys2Proof/Machine/Collect.lean ====
section
/-! DEFINITION. Collectives (R373 to R378, R382): groups, arrivals, releases, broadcasts and SYNC_N. -/

namespace Sys2Proof.Machine

/-! ## Groups (R373, R385) -/

/-- A collective group as its registers hold it. -/
structure Grp where
  en : Bool
  sync : Bool
  broken : Bool
  gid : Nat
  lo : Nat
  hi : Nat
  root : Nat
  pos : Nat
  deriving DecidableEq, Repr

/-- The offset of a group's registers. -/
def grpOff (n : Nat) : Nat := 0x100 + 0x10 * n

/-- A group of a shade. -/
def State.grp (s : State) (sh : ShadeIx) (n : Nat) : Grp :=
  let c := s.getR .jshade sh.val (grpOff n)
  let p := s.getR .jshade sh.val (grpOff n + 4)
  ⟨bitOf c 0, bitOf c 1, bitOf c 2, bitsOf c 31 16, bitsOf p 9 0, bitsOf p 19 10, bitsOf p 29 20,
   s.getF .jshade sh.val (grpOff n + 8) 15 0⟩

/-- Member positions of every pane, ascending. -/
def Grp.positions (g : Grp) : List Nat := (List.range 16).filter fun q => bitOf g.pos q
/-- The members in a pane, ascending. -/
def Grp.inPane (g : Grp) (pane : Nat) : List Nat := g.positions.map fun q => pane * 16 + q
/-- Member panes, ascending. -/
def Grp.panes (g : Grp) : List Nat := (List.range (g.hi + 1 - g.lo)).map fun i => g.lo + i
/-- Is a device a member? -/
def Grp.member (g : Grp) (d : Nat) : Bool := decide (g.lo ≤ paneOf d) && decide (paneOf d ≤ g.hi) && bitOf g.pos (posOfDev d)
/-- The gatherer of a pane: its lowest member. -/
def Grp.gatherer (g : Grp) (pane : Nat) : Nat := (g.inPane pane).headD (pane * 16)
/-- The root of the group. -/
def Grp.rootDev (g : Grp) : Nat := g.gatherer g.root
/-- Every member. -/
def Grp.members (g : Grp) : List Nat := g.panes.flatMap g.inPane

/-- The shade and group of an enabled group's GID. -/
def State.groupOf (s : State) (gid : Nat) : Option (ShadeIx × GroupIx) :=
  ((List.finRange 16).flatMap fun sh => (List.finRange 8).map fun n => (sh, n)).find? fun x =>
    (s.grp x.1 x.2.val).en && (s.grp x.1 x.2.val).gid == gid

/-- The group an operation names. -/
def JorxOp_group : JorxOp → Option GroupIx
  | .barrier g _ => some ⟨g.toNat, g.isLt⟩
  | .flagred _ g _ => some ⟨g.toNat, g.isLt⟩
  | .smallred _ g _ _ => some ⟨g.toNat, g.isLt⟩
  | .bcast _ _ g _ => some ⟨g.toNat, g.isLt⟩
  | _ => none

/-- The Jorx operation of a queued one. -/
def QOp.jorxOp (q : QOp) : Option JorxOp :=
  match q.op with
  | .jorx o => some o
  | _ => none

/-- The group a queued operation names. -/
def QOp.group (q : QOp) : Option GroupIx := q.jorxOp.bind JorxOp_group

/-! ## Contributions and combines (R375) -/

/-- FLAGRED: bits [31:0] are ORed and [63:32] ANDed. -/
def flagCombine (a b : W64) : W64 :=
  ((a >>> 32) &&& (b >>> 32)) <<< 32 ||| ((a ||| b) &&& 0xFFFFFFFF#64)

/-- Two FP32 lanes of a register. -/
def lanes (f : Nat → Nat → Nat) (a b : W64) : W64 :=
  BitVec.ofNat 64 (f (a.toNat % 2 ^ 32) (b.toNat % 2 ^ 32) + 2 ^ 32 * f (a.toNat / 2 ^ 32) (b.toNat / 2 ^ 32))

/-- One FP32 addition. -/
def addF32 (a b : Nat) : Nat := toF32 ((f32 a).add (f32 b))
/-- The larger of two FP32 values: NaN above all (R48); +0 for +0 against −0. -/
def maxF32 (a b : Nat) : Nat :=
  let x := f32 a
  let y := f32 b
  if x.isNan || y.isNan then toF32 .nan else if x.lt y then b else if y.lt x then a else if a = 0 ∨ b = 0 then 0 else a

/-- One pair of words of SMALLRED. -/
def redCombine (r : RedOp) (a b : W64) : W64 :=
  match r with
  | .sumU64 => a + b
  | .maxS64 => if a.slt b then b else a
  | .sumF32 => lanes addF32 a b
  | .maxF32 => lanes maxF32 a b

/-- Two contributions of a collective. -/
def collCombine (o : JorxOp) (a b : List W64) : List W64 :=
  match o with
  | .flagred _ _ _ => (a.zip b).map fun p => flagCombine p.1 p.2
  | .smallred _ _ r _ => (a.zip b).map fun p => redCombine r p.1 p.2
  | _ => []

/-- Contributions in order. -/
def collCombineAll (o : JorxOp) : List (List W64) → List W64
  | [] => []
  | x :: xs => xs.foldl (collCombine o) x

/-- What a member contributes. -/
def State.contribution (s : State) (sh : ShadeIx) (q : QOp) : List W64 :=
  match q.op with
  | .jorx (.flagred g _ _) =>
    [BitVec.ofNat 64 (q.greg g.toNat / 512 * 512 + s.getF .safe (shInst sh) 0x104 7 0)]
  | .jorx (.smallred g _ _ _) => (List.range 8).map fun i => BitVec.ofNat 64 (q.greg (g.toNat + i))
  | _ => []

/-- The registers a collective's result goes to. -/
def collRegs (q : QOp) : List Nat :=
  match q.op with
  | .jorx (.flagred g _ _) => [g.toNat]
  | .jorx (.smallred g _ _ _) => (List.range 8).map fun i => g.toNat + i
  | _ => []

/-! ## Completion at a member -/

/-- Change a shade's collectives. -/
def State.modColl (s : State) (sh : ShadeIx) (f : CollSt → CollSt) : State := s.modSh sh fun x => { x with colls := f x.colls }

/-- Keep a result; the last 16 of a group stay (R374). -/
def CollSt.keep (c : CollSt) (k : Kept) : CollSt :=
  let same := (c.kept.filter fun x => x.group == k.group && x.number != k.number) ++ [k]
  { c with kept := (c.kept.filter fun x => x.group != k.group) ++ same.drop (same.length - 16) }

/-- FLAGRED ORs bits [2:0] of its result into SAFE_RED (R157, R375). -/
def State.redFlags (s : State) (sh : ShadeIx) (q : QOp) (words : List W64) : State :=
  match q.op with
  | .jorx (.flagred _ _ _) => s.orR .safe (shInst sh) 0x108 ((words.headD 0).toNat % 8)
  | _ => s

/-- A collective completes with its result: the counts, the kept result and the registers, which the token's release writes. -/
def State.collEnd (s : State) (sh : ShadeIx) (g : GroupIx) (number : Nat) (q : QOp) (words : List W64) (dead : Bool) : State :=
  let s := (s.count .jshade sh.val 0xC 1).jorxCount 0xC 1
  let s := s.setR .jshade sh.val (grpOff g.val + 0xC) (s.getR .jshade sh.val (grpOff g.val + 0xC) + 1)
  let s := s.modColl sh fun c =>
    { c with members := c.members.filter fun m => !(m.group == g && m.number == number) }.keep ⟨g, number, words, dead⟩
  ((s.redFlags sh q words).finish sh q.id ((collRegs q).zip words))

/-- Free words: the spec does not say what the result registers hold after DEST_DEAD, but for FLAGRED's bit 8. -/
def State.freeWords (s : State) : Nat → State × List W64
  | 0 => (s, [])
  | n + 1 => let r := s.tick.freeWords n; (r.1, Config.freeWide s.fresh :: r.2)

/-- A collective completes with DEST_DEAD (R371, R375, R380). -/
def State.collDead (s : State) (sh : ShadeIx) (g : GroupIx) (number : Nat) (q : QOp) : State :=
  let r := s.freeWords (collRegs q).length
  let words := match q.op with
    | .jorx (.flagred _ _ _) => r.2.map fun w => w ||| 0x100#64
    | _ => r.2
  (r.1.collEnd sh g number q words true).abnormalMarks sh q F_DEST_DEAD

/-- The operation of a member still runs. -/
def State.collLive (s : State) (sh : ShadeIx) (m : Member) : Bool := (s.sh sh).running.any fun r => r.q.id == m.q.id && !r.done

/-- A member completes when its release time has come and its data is there (R374, R377). -/
def State.memberTry (s : State) (sh : ShadeIx) (m : Member) : State :=
  match m.release with
  | none => s
  | some (t, words, dead) =>
    if s.tb.toNat < t || !s.collLive sh m then s
    else if dead then s.collDead sh m.group m.number m.q
    else if m.need = 0 then s.collEnd sh m.group m.number m.q words false
    else s

/-- The member record of a collective. -/
def State.memberOf (s : State) (sh : ShadeIx) (g : GroupIx) (number : Nat) : Option Member :=
  (s.sh sh).colls.members.find? fun m => m.group == g && m.number == number

/-- Put a member record. -/
def State.setMember (s : State) (sh : ShadeIx) (m : Member) : State :=
  s.modColl sh fun c => { c with members := (c.members.filter fun x => !(x.group == m.group && x.number == m.number)) ++ [m] }

/-! ## Broadcast data (R375) -/

/-- Messages that a broadcast of this descriptor takes to one member. -/
def State.bcastMessages (s : State) (sh : ShadeIx) (q : QOp) (td part : Nat) : Nat :=
  let t := readTD q.desc td
  ((s.partPrisms sh part).map fun p => ceilDiv (t.positions (s.tdPart sh part p t)) t.perMsg).foldl (· + ·) 0

/-- One message of a broadcast to one member. -/
def State.bcastPart (s : State) (sh : ShadeIx) (c : CollId) (m : MsgTD) (f : Fmt) (items : List Item) (d : Nat) : State :=
  let z := s.takeSeq sh (streamKey sh d 0)
  z.1.post ⟨z.1.newHead d 0 sh z.2 (itemBytes f items), .bcastData c m items⟩

/-- The device that a BCAST names as its root sends its tensor to every other member (R375). -/
def State.bcastSend (s : State) (sh : ShadeIx) (g : GroupIx) (number : Nat) (q : QOp) : State :=
  match q.op with
  | .jorx (.bcast td gr _ _) =>
    let w := RemoteWord.ofNat (q.greg gr.toNat)
    let t := readTD q.desc td.toNat
    let grp := s.grp sh g.val
    if w.dev ≠ s.devId then s
    else
      let r := sentFold (fun s p =>
        let r := s.tdPart sh w.part p t
        match s.lview ⟨sh, p, 0, q.g⟩ q td.toNat w.part r with
        | .error f => .over (s.opFault sh q f)
        | .ok v => sentFold (fun s ch => match s.chunkItems ⟨sh, p, 0, q.g⟩ v r ch.1 ch.2 with
            | .error f => .over (s.opFault sh q f)
            | .ok items =>
              let m : MsgTD := ⟨td, tdWords q.desc td.toNat, BitVec.ofNat 2 w.part, s.posOf sh p, (s.prismsOf sh).length⟩
              .ok ((grp.members.filter fun d => d != s.devId && !s.deadDev d).foldl
                (fun s d => s.bcastPart sh ⟨BitVec.ofNat 16 grp.gid, number⟩ m t.fmt items d) s)) s
            (msgRanges (t.positions r) t.perMsg)) s (s.partPrisms sh w.part)
      match r with
      | .ok s => s
      | .over s => s
  | _ => s

/-! ## The tree (R374) -/

/-- The RELEASE goes to devices of the tree. -/
def State.sendRelease (s : State) (sh : ShadeIx) (c : CollId) (t : Nat) (words : List W64) (dead : Bool) (ds : List Nat) : State :=
  (ds.filter fun d => d != s.devId && !s.deadDev d).foldl (fun s d =>
    s.post ⟨s.newHead d 0 sh 0 (8 * words.length), .release c (BitVec.ofNat 64 t) words dead⟩) s

/-- Where the root, or a pane's gatherer, sends a RELEASE. -/
def Grp.below (g : Grp) (me : Nat) : List Nat :=
  (if me = g.rootDev then (g.panes.filter fun p => p != g.root).map g.gatherer else []) ++
  (if me = g.gatherer (paneOf me) then g.inPane (paneOf me) else [])

/-- A release is known at this member: it takes the result, and completes if the time has passed (R374). -/
def State.releaseHere (s : State) (sh : ShadeIx) (g : GroupIx) (number t : Nat) (words : List W64) (dead : Bool) : State :=
  match s.memberOf sh g number with
  | none => s
  | some m =>
    if m.release.isSome then s
    else
      let m := { m with release := some (t, words, dead) }
      let s := s.setMember sh m
      (if m.q.jorxOp.isSome && !dead then s.bcastSend sh g number m.q else s).memberTry sh m

/-- The root holds every contribution (R374). -/
def State.rootRelease (s : State) (sh : ShadeIx) (g : GroupIx) (number : Nat) (words : List W64) : State :=
  let grp := s.grp sh g.val
  let t := s.tb.toNat + 125 + 160 * groupH grp.lo grp.hi grp.root
  (s.sendRelease sh ⟨BitVec.ofNat 16 grp.gid, number⟩ t words false (grp.below s.devId)).releaseHere sh g number t words false

/-- The contribution of one device among arrivals. -/
def arrivedOf (l : List (DevId × List W64)) (d : Nat) : Option (List W64) := (l.find? fun a => a.1.toNat == d).map Prod.snd

/-- Arrivals of a list of devices, in that order, if all are there. -/
def arrivedAll (l : List (DevId × List W64)) (ds : List Nat) : Option (List (List W64)) := ds.mapM (arrivedOf l)

/-- A gatherer that holds every contribution of its pane combines them; the root combines the panes', each lowest member first, and
releases; another gatherer sends one ARRIVE toward the root (R374, R375). -/
def State.gatherTry (s : State) (sh : ShadeIx) (g : GroupIx) (number : Nat) : State :=
  let grp := s.grp sh g.val
  let me := s.devId
  match (s.sh sh).colls.gathers.find? fun x => x.group == g && x.number == number, (s.memberOf sh g number).map fun m => m.q with
  | some x, some q => match q.jorxOp, arrivedAll x.arrived (grp.inPane (paneOf me)) with
    | some o, some ls =>
      let own := collCombineAll o ls
      let drop (s : State) : State := s.modColl sh fun c => { c with gathers := c.gathers.erase x }
      if me ≠ grp.rootDev then
        let z := (drop s).takeSeq sh (streamKey sh grp.rootDev 0)
        z.1.post ⟨z.1.newHead grp.rootDev 0 sh z.2 (8 * own.length), .arrive ⟨BitVec.ofNat 16 grp.gid, number⟩ (BitVec.ofNat 14 me) own false⟩
      else
        match grp.panes.mapM fun p => if p = grp.root then some own else arrivedOf x.arrived (grp.gatherer p) with
        | none => s
        | some ps => (drop s).rootRelease sh g number (collCombineAll o ps)
    | _, _ => s
  | _, _ => s

/-- A contribution is here; a second one of the same member and number is ignored (R374). -/
def State.arriveHere (s : State) (sh : ShadeIx) (g : GroupIx) (number : Nat) (from_ : Nat) (words : List W64) : State :=
  let same (x : Gathering) : Bool := x.group == g && x.number == number
  let s := s.modColl sh fun c =>
    match c.gathers.find? same with
    | none => { c with gathers := c.gathers ++ [⟨g, number, [(BitVec.ofNat 14 from_, words)], false, false⟩] }
    | some x =>
      if (arrivedOf x.arrived from_).isSome then c
      else
        let add (y : Gathering) : Gathering := if same y then { y with arrived := y.arrived ++ [(BitVec.ofNat 14 from_, words)] } else y
        { c with gathers := c.gathers.map add }
  s.gatherTry sh g number

/-! ## Starting a collective -/

/-- The device takes part in collectives released by time: not for 5 ms after its parent changed (R379). -/
def State.inTime (s : State) : Bool :=
  s.jorx.parentSince == 0 || decide (s.jorx.parentSince + 5000000 ≤ s.tb.toNat)

/-- A BARRIER on the group that owns SYNC_N (R378). -/
def State.onLine (s : State) (sh : ShadeIx) (q : QOp) (g : GroupIx) : Bool :=
  (match q.op with
    | .jorx (.barrier _ _) => true
    | _ => false) && (s.grp sh g.val).sync

/-- The start check of a collective (R369, R373, R374, R379). -/
def State.collReady (s : State) (sh : ShadeIx) (q : QOp) (g : GroupIx) : Ready :=
  let grp := s.grp sh g.val
  let gat := grp.gatherer (paneOf s.devId)
  let far : Bool := match q.op with
    | .jorx (.bcast _ gr _ _) =>
      let d := (RemoteWord.ofNat (q.greg gr.toNat)).dev
      !((List.range 16).any fun r => s.destAllowed sh d r)
    | _ => false
  if !grp.en then .fault s (startFault (s.leadP sh) 0)
  else if far then .fault ((s.setErr .shcfg sh.val sh.val 0x124 2).count .shcfg sh.val 8 1) (boundStart (s.leadP sh) 0)
  else if 16 ≤ (s.sh sh).colls.issued.get (fun _ => 0) g.val then .fault s (startFault (s.leadP sh) 0)
  else if gat ≠ s.devId ∧ s.streamLogFull sh (streamKey sh gat 0) then .fault s (startFault (s.leadP sh) 0)
  else if s.jorxFull sh then .wait s
  else if !s.onLine sh q g && (s.jorx.holdFrom.isSome || !s.inTime || s.oldCopy sh gat 0) then .wait s
  else .go s

/-- The next number of a group is taken. -/
def State.takeNumber (s : State) (sh : ShadeIx) (g : GroupIx) : State × Nat :=
  let n := (s.sh sh).colls.next.get (fun _ => 0) g.val
  (s.modColl sh fun c => { c with
    next := c.next.set (fun _ => 0) g.val (n + 1)
    issued := c.issued.set (fun _ => 0) g.val (c.issued.get (fun _ => 0) g.val + 1) }, n)

/-- This device releases SYNC_N for a BARRIER, if it has driven the line low for 100 ns; else it does so later (R378). -/
def State.syncWant (s : State) : State :=
  let f (y : SyncSt) : SyncSt :=
    if y.low && decide (y.since + 100 ≤ s.tb.toNat) then ⟨false, s.tb.toNat, false⟩ else { y with want := y.low }
  s.modJorx fun j => { j with sync := f j.sync }

/-- A collective begins (R374, R378, R381). A number already completed completes with its kept result. -/
def State.collGo (s : State) (sh : ShadeIx) (q : QOp) (g : GroupIx) : State :=
  let grp := s.grp sh g.val
  let me := s.devId
  let z := s.takeNumber sh g
  let s := z.1
  let n := z.2
  let need := match q.op with
    | .jorx (.bcast td gr _ _) =>
      let w := RemoteWord.ofNat (q.greg gr.toNat)
      if w.dev = me then 0 else s.bcastMessages sh q td.toNat w.part
    | _ => 0
  if s.isolated then s.collDead sh g n q
  else match (s.sh sh).colls.kept.find? fun k => k.group == g && k.number == n with
    | some k => if k.dead then s.collDead sh g n q else s.collEnd sh g n q k.words false
    | none =>
      if grp.broken then s.collDead sh g n q
      else
        let m : Member := match s.memberOf sh g n with
          | some old => { old with q := q }
          | none => ⟨g, n, q, need, none⟩
        let s := s.setMember sh m
        if s.onLine sh q g then s.syncWant
        else
          let words := s.contribution sh q
          let gat := grp.gatherer (paneOf me)
          let s := if gat = me then s.arriveHere sh g n me words
            else
              let z := s.takeSeq sh (streamKey sh gat 0)
              let r := z.1.inject ⟨z.1.newHead gat 0 sh z.2 (8 * words.length),
                .arrive ⟨BitVec.ofNat 16 grp.gid, n⟩ (BitVec.ofNat 14 me) words false⟩
              if r.2 then r.1 else (r.1.count .jshade sh.val 9 1).collDead sh g n q
          match s.memberOf sh g n with
          | none => s
          | some m => s.memberTry sh m

/-! ## Messages of collectives -/

/-- An ARRIVE for this device (R361, R374); for a shade that is resetting it is dropped (R441). -/
def State.arriveArrives (s : State) (i : PortIx) (m : Msg) : State :=
  match m.body with
  | .arrive c lowest words _ =>
    match s.takeIn i (msgInKey m) m.head.seq.toNat with
    | (s, .dup) => s
    | (s, _) => match s.groupOf c.gid.toNat with
      | none => s
      | some (sh, g) =>
        if 2 ≤ (s.sh sh).life then s.portCount i 0xB 1
        else if (s.grp sh g.val).broken then s else s.arriveHere sh g c.number lowest.toNat words
  | _ => s

/-- A RELEASE for this device: it goes on down the tree and to the member here; past its time it counts as late (R374). -/
def State.releaseArrives (s : State) (i : PortIx) (m : Msg) : State :=
  match m.body with
  | .release c time words dead => match s.groupOf c.gid.toNat with
    | none => s
    | some (sh, g) =>
      if 2 ≤ (s.sh sh).life then s.portCount i 0xB 1 else
      let grp := s.grp sh g.val
      let s := if s.devId = grp.rootDev then s else s.sendRelease sh c time.toNat words dead (grp.below s.devId)
      let late := decide (time.toNat < s.tb.toNat) && (s.memberOf sh g c.number).isSome
      let s := if late then ((s.portCount i 0xD 1).count .jshade sh.val 0xD 1).jorxErr 3 else s
      s.releaseHere sh g c.number time.toNat words dead
  | _ => s

/-- RELEASE_TIME at a group: its oldest collective whose time has come completes. -/
def State.releaseTimeGroup (s : State) (sh : ShadeIx) (g : GroupIx) : State :=
  match (s.sh sh).colls.members.find? fun m => m.group == g && (match m.release with
      | some r => decide (r.1 ≤ s.tb.toNat)
      | none => false) && (m.need == 0 || (match m.release with
      | some r => r.2.2
      | none => false)) && s.collLive sh m with
  | none => s
  | some m => s.memberTry sh m

/-- A member's tensor does not match the data of a broadcast: RSVD_FIELD (R375). -/
def bcastFault (p : Nat) : OpFault := ⟨RSVD_FIELD, .access, p, 0, none, .none⟩

/-- Data of a broadcast for this device (R361, R375). -/
def State.bcastArrives (s : State) (i : PortIx) (m : Msg) : State :=
  match m.body with
  | .bcastData c t items =>
    match s.takeIn i (msgInKey m) m.head.seq.toNat with
    | (s, .dup) => s
    | (s, _) => match s.groupOf c.gid.toNat with
      | none => s
      | some (sh, g) => match s.memberOf sh g c.number with
        | none => s
        | some mem =>
          let q := mem.q
          if !s.collLive sh mem then s
          else match q.op with
            | .jorx (.bcast td gr _ _) =>
              let w := RemoteWord.ofNat (q.greg gr.toNat)
              let b := readTD q.desc td.toNat
              match s.servingPrism sh { t with part := BitVec.ofNat 2 w.part } with
              | none => s.opFault sh q (bcastFault (s.leadP sh))
              | some p =>
                let r := s.tdPart sh w.part p b
                if plainBad (tdOfWords t.words) b || !(items.all fun x => b.itemFits r x) then s.opFault sh q (bcastFault p)
                else
                  let z := resFold (fun s x => s.putItem ⟨sh, p, 0, q.g⟩ q td.toNat w.part r x) s items
                  match z.err with
                  | some f => z.s.opFault sh q f
                  | none =>
                    let mem := { mem with need := mem.need - 1 }
                    (z.s.setMember sh mem).memberTry sh mem
            | _ => s
  | _ => s

/-! ## SYNC_N (R378) -/

/-- The shade and group that own SYNC_N. -/
def State.syncGroup (s : State) : Option (ShadeIx × GroupIx) :=
  let r := s.getR .jorx 0 0x128
  let sh := shadeOf (bitsOf r 3 0)
  let g : GroupIx := ⟨bitsOf r 6 4 % 8, Nat.mod_lt _ (by decide)⟩
  if bitOf r 7 && (s.grp sh g.val).en && (s.grp sh g.val).sync then some (sh, g) else none

/-- SYNC_N has been high for 60 ns: the BARRIER completes and the line is driven low again (R378). -/
def State.syncHigh (s : State) : State :=
  match s.syncGroup with
  | none => s
  | some (sh, g) =>
    if s.jorx.sync.low then s
    else match (s.sh sh).colls.members.find? fun m => m.group == g && s.onLine sh m.q g && s.collLive sh m with
      | none => s
      | some m =>
        (s.modJorx fun j => { j with sync := ⟨true, s.tb.toNat, false⟩ }).collEnd sh g m.number m.q [] false

/-- 100 ns low have passed and a BARRIER waits: the line is released (R378). -/
def State.syncRelease (s : State) : State :=
  if s.jorx.sync.low && s.jorx.sync.want && decide (s.jorx.sync.since + 100 ≤ s.tb.toNat) then
    s.modJorx fun j => { j with sync := ⟨false, s.tb.toNat, false⟩ }
  else s

end Sys2Proof.Machine
end

