-- ==== Sys2Proof/Machine/Liveness.lean ====
section
/-! DEFINITION. Ports coming up (R355, R357, R362), enumeration (R364), time synchronisation (R379), liveness, epochs and joining (R380,
R381), and the management tree (R367, R374, R383, R384). -/

namespace Sys2Proof.Machine

/-! ## Ports -/

/-- JPORT_CTRL.EN. -/
def State.portEn (s : State) (i : PortIx) : Bool := s.bitR .jport i.val 0x100 0

/-- PORT_TRAINING: training of a port in TRAIN ends. A trained port sends its HELLO; one that failed goes DOWN (R355). -/
def State.portTraining (s : State) (i : PortIx) (ok : Bool) : State :=
  if !s.portEn i || s.portState i.val != 1 then s
  else if ok then s.sendControl i
  else s.portDown i

/-- Training begins: the port is in TRAIN. -/
def State.portTrain (s : State) (i : PortIx) : State :=
  (s.setF .jport i.val 0x104 1 0 1).modPort i fun p => { p with since := s.tb.toNat }

/-- PORT_RETRY_TIMER: firmware retries a DOWN port after 1 s while EN = 1 (R355). -/
def State.portRetry (s : State) (i : PortIx) : State :=
  if s.portEn i && s.portState i.val == 0 && decide ((s.port i).since + 1000000000 ≤ s.tb.toNat) then s.portTrain i else s

/-- PORT_LOCK_LOSS (R355). -/
def State.portLockLoss (s : State) (i : PortIx) : State := if s.portState i.val = 0 then s else s.portDown i

/-- The wiring check of a HELLO fails (R362, R363). -/
def State.helloBad (s : State) (i : PortIx) (h : HelloFlit) : Bool :=
  let d := h.dev.toNat
  let me := s.devId
  let q := if i.val < posOfDev me then i.val else i.val + 1
  !s.idValid || d == me || (decide (i.val < 15) && (paneOf d != paneOf me || posOfDev d != q))
  || (decide (15 ≤ i.val) && paneOf d == paneOf me)

/-- An unseen device becomes alive at its HELLO epoch; a device recorded dead stays so (R381). -/
def State.helloPeer (s : State) (h : HelloFlit) : State :=
  match s.peer h.dev.toNat with
  | none => s.setPeer h.dev.toNat ⟨h.epoch, true⟩
  | some _ => s

/-- HELLO: a port that has trained is UP, or HELD out of service (R355, R362, R431). -/
def State.helloArrives (s : State) (i : PortIx) (h : HelloFlit) : State :=
  if !s.portEn i || (s.portState i.val != 1 && s.portState i.val != 3) then s
  else
    let s := s.rxFlits i 1
    let r := putBits (putBits (s.getR .jport i.val 0x104) 15 2 h.dev.toNat) 20 16 h.port.toNat
    let s := s.setR .jport i.val 0x104 r
    if s.helloBad i h then
      (((s.setF .jport i.val 0x104 1 0 3).portErr i 1).raise jorxSrc).linkRecord i 1
    else
      (((s.setF .jport i.val 0x104 1 0 2).modPort i fun p => { p with missed := 0, replied := false }).helloPeer h).linkRecord i 2

/-- NAK: the flits behind the last good one are sent again; the eighth time in a row that the same flit is, the port retrains (R357). -/
def State.nakArrives (s : State) (i : PortIx) (lseq : Nat) : State :=
  if s.portState i.val < 2 then s
  else
    let p := s.port i
    let rest := match p.buf.findIdx? fun f => f.lseq == lseq with
      | some k => p.buf.drop (k + 1)
      | none => if (p.buf.head?).map (fun (f : Flit) => f.lseq) == some ((lseq + 1) % 4096) then p.buf else []
    match rest with
    | [] => s
    | f :: _ =>
      let n := if p.resendFrom = f.lseq ∧ 0 < p.resends then p.resends + 1 else 1
      let s := (s.modPort i fun p => { p with buf := rest, resends := n, resendFrom := f.lseq }).portCount i 3 rest.length
      let s := s.portCount i 1 rest.length
      if 8 ≤ n then s.retrain i else s

/-- FLIT_CRC_FAILURE: the flit is discarded and a NAK sent (R357). -/
def State.flitBad (s : State) (i : PortIx) (why : FlitBad) : State :=
  if s.portState i.val < 2 then s
  else (if why = .fec then s.portCount i 4 1 else s).sendControl i

/-! ## Enumeration (R364) -/

/-- JORX_ENUM.STATE. -/
def State.enumState (s : State) : Nat := s.getF .jorx 0 0x108 5 4

/-- Enumeration fails: the device stays without a position until device reset. -/
def State.enumFail (s : State) : State := (s.setF .jorx 0 0x108 5 4 2).jorxErr 0

/-- JORX_ID follows the position and the pane: VALID once the position is known and JORX_PANE has been written. -/
def State.idUpdate (s : State) (paneWritten : Bool) : State :=
  if s.enumState = 1 ∧ paneWritten then
    s.setR .jorx 0 0x100 (s.getF .jorx 0 0x104 9 0 * 16 + s.getF .jorx 0 0x108 3 0 + 2 ^ 14)
  else s

/-- A position is taken. -/
def State.takePosition (s : State) (p : Nat) (head : Bool) : State :=
  (s.setR .jorx 0 0x108 (p + 16 + b2n head * 64)).idUpdate s.jorx.paneWritten

/-- ENUM_FRAME: two identical frames in a row give the position; a value of 16 or more fails. -/
def State.enumFrame (s : State) (v : Nat) : State :=
  if s.enumState ≠ 0 then s
  else if 16 ≤ v then s.enumFail
  else if s.jorx.enumLast = some v then s.takePosition v false
  else s.modJorx fun j => { j with enumLast := some v }

/-- ENUM_HEAD. -/
def State.enumHead (s : State) : State := if s.enumState = 0 then s.takePosition 0 true else s

/-- ENUM_TIMEOUT: 20 ms after sampling began. -/
def State.enumTimeout (s : State) : State :=
  if s.enumState = 0 ∧ s.jorx.enumFrom + 20000000 ≤ s.tb.toNat then s.enumFail else s

/-- ENUM_SEND: a positioned device sends the frame p + 1. -/
def State.enumSend (s : State) : State :=
  if s.enumState = 1 then s.modJorx fun j => { j with enumSent := j.enumSent + 1 } else s

/-! ## The management tree -/

/-- JORX_MGMT.PARENT, and the child ports. -/
def State.parent (s : State) : Nat := s.getF .jorx 0 0x114 4 0
def State.mgmtRoot (s : State) : Bool := s.parent == 0x1F
def State.children (s : State) : List PortIx := allPorts.filter fun i => s.bitR .jorx 0 0x114 (5 + i.val)

/-- A message to a link partner. -/
def State.toPeer (s : State) (i : PortIx) (b : Body) : State :=
  if s.portUp i.val then s.sendOn i ⟨s.newHead (s.portPeer i.val) 0 0 0 0, b⟩ else s

/-- A message to the link partners of some ports. -/
def State.toPeers (s : State) (is : List PortIx) (b : Body) : State := is.foldl (fun s i => s.toPeer i b) s

def State.modMgmt (s : State) (f : MgmtSt → MgmtSt) : State := s.modJorx fun j => { j with mgmt := f j.mgmt }

/-- JORX_CTRL.ARM. -/
def State.armed (s : State) : Bool := s.bitR .jorx 0 0x110 4

/-- The release of a management collective is known here: it goes on down the tree. -/
def State.mgmtRelease (s : State) (k : MgmtKind) (t : Nat) (ok : Bool) : State :=
  (s.toPeers s.children (.mrelease k (BitVec.ofNat 64 t) ok)).modMgmt fun m => { m with running := none, arrived := [], release := some (k, t, ok) }

/-- Every child has arrived: the root releases, with the time of R374 over the tree; another device arrives at its parent. -/
def State.mgmtTry (s : State) (k : MgmtKind) : State :=
  let m := s.jorx.mgmt
  if !(s.children.all fun c => m.arrived.any fun a => a.1 == c) then s
  else
    let ok := s.armed && m.arrived.all fun a => a.2
    if s.mgmtRoot then s.mgmtRelease k (s.tb.toNat + 125 + 160 * Config.mgmtHops.toNat) (k != .swap || ok)
    else if h : s.parent < 20 then s.toPeer ⟨s.parent, h⟩ (.marrive k ok) else s

/-- A management barrier begins at a device: its children are called. -/
def State.mgmtBegin (s : State) (k : MgmtKind) : State :=
  ((s.modMgmt fun m => { m with running := some k, arrived := [] }).toPeers s.children (.marrive k false)).mgmtTry k

/-- SWAP or SNAP at the root; elsewhere the write is ignored (R367, R383). -/
def State.mgmtStart (s : State) (k : MgmtKind) : State :=
  if !s.mgmtRoot then s.rsvdWr .jorx 0
  else if s.jorx.mgmt.running.isSome then s
  else s.mgmtBegin k

/-- ARESET at the root (R384): RESET(T) to every device. -/
def State.aresetStart (s : State) : State :=
  if !s.mgmtRoot then s.rsvdWr .jorx 0
  else s.mgmtRelease .areset (s.tb.toNat + 125 + 160 * Config.mgmtHops.toNat) true

/-- A MARRIVE: the call from the parent, or a child's arrival. -/
def State.marriveArrives (s : State) (i : PortIx) (k : MgmtKind) (armed : Bool) : State :=
  if i.val = s.parent then s.mgmtBegin k
  else if s.children.contains i && s.jorx.mgmt.running == some k then
    (s.modMgmt fun m => { m with arrived := (m.arrived.filter fun a => a.1 != i) ++ [(i, armed)] }).mgmtTry k
  else s

/-- The release of a management barrier takes effect here: SWAP flips the routing copy and clears ARM, ABORT only reports; SNAP holds
injection (R367, R383). -/
def State.mgmtApply (s : State) : State :=
  match s.jorx.mgmt.release with
  | none => s
  | some (k, t, ok) =>
    if s.tb.toNat < t then s
    else match k with
      | .swap =>
        let s := s.modMgmt fun m => { m with release := none }
        if ok then (s.setF .jorx 0 0x110 5 5 (1 - s.getF .jorx 0 0x110 5 5)).setF .jorx 0 0x110 4 4 0 else s.jorxErr 4
      | .snap => (s.modMgmt fun m => { m with release := none }).modJorx fun j => { j with holdFrom := some t }
      | .areset => s

/-- An MRELEASE from the parent; past its time it takes effect on arrival. -/
def State.mreleaseArrives (s : State) (i : PortIx) (k : MgmtKind) (t : Nat) (ok : Bool) : State :=
  if i.val ≠ s.parent then s
  else
    let s := s.mgmtRelease k t ok
    let s := if t < s.tb.toNat ∧ k ≠ .areset then (s.portCount i 0xD 1).jorxErr 3 else s
    s.mgmtApply

/-! ## Time (R379) -/

/-- LOCKED: within ±2 ns of the parent, and the parent has not changed for 5 ms. -/
def State.lockUpdate (s : State) (offset : Int) : State :=
  s.setF .jorx 0 0x118 0 0 (b2n (decide (offset.natAbs ≤ 128) && s.inTime))

/-- The slew of the timebase: what is left is made up at 200 ppm, 1 ns every 5,000 ns, and the counter never steps back. -/
def State.slewTick (s : State) : State :=
  let j := s.jorx
  if j.slew.natAbs < 64 then { s with tb := s.tb + 1 }
  else if j.slewTicks < 4999 then { s with tb := s.tb + 1, jorx := { j with slewTicks := j.slewTicks + 1 } }
  else if 0 < j.slew then { s with tb := s.tb + 2, jorx := { j with slewTicks := 0, slew := j.slew - 64 } }
  else { s with jorx := { j with slewTicks := 0, slew := j.slew + 64 } }

/-- HEARTBEAT: an UP port sends one (R380). The management root is the time master: it is locked on itself. -/
def State.heartbeat (s : State) (i : PortIx) : State :=
  if !s.portUp i.val then s
  else
    let s := s.sendControl i
    if s.mgmtRoot then s.lockUpdate 0 else s

/-- The offset of a child from its parent in 1/64 ns, from the two one-way times. -/
def offsetOf (down up : Nat) : Int := ((down : Int) - up) / 2

/-- The 16 bits of OFFSET; what it shows of an offset beyond its range is not stated. -/
def State.offsetBits (s : State) (o : Int) : Nat :=
  if -32768 ≤ o ∧ o < 32768 then (o % 65536).toNat else (Config.freeWord s.fresh).toNat % 65536

/-- HEARTBEAT_RECEIVE: the partner is alive; from the parent it also disciplines the timebase. -/
def State.heartbeatIn (s : State) (i : PortIx) (down up : Nat) : State :=
  if !s.portUp i.val then s
  else
    let s := (s.rxFlits i 1).modPort i fun p => { p with missed := 0, replied := false }
    if i.val ≠ s.parent then s
    else
      let o := offsetOf down up
      let s := ((s.setF .jorx 0 0x118 31 16 (s.offsetBits o)).tick).modJorx fun j => { j with slew := -o, slewTicks := 0 }
      s.lockUpdate o

/-! ## Death (R380, R381) -/

/-- A message that floods to every device: on every UP port but the one it came by. -/
def State.flood (s : State) (from_ : Option PortIx) (b : Body) : State :=
  s.toPeers (allPorts.filter fun i => some i != from_) b

/-- Operations of a shade that wait on a device complete with DEST_DEAD. -/
def State.killWaits (s : State) (d : Nat) (sh : ShadeIx) : State :=
  let ids := ((s.sh sh).open_.filter fun o => o.dev.toNat == d).map fun o => o.opId
  let qs := ((s.sh sh).running.filter fun r => !r.done && ids.contains r.q.id).map fun r => r.q
  qs.foldl (fun s q => s.abnormal sh q F_DEST_DEAD) s

/-- A group with a dead member is BROKEN: its collectives complete with DEST_DEAD here, and a root that has not released does so for
every member (R380). -/
def State.breakGroup (s : State) (sh : ShadeIx) (g : GroupIx) : State :=
  let grp := s.grp sh g.val
  let s := s.orR .jshade sh.val (grpOff g.val) 4
  let s := if grp.rootDev = s.devId then
      ((s.sh sh).colls.gathers.filter fun x => x.group == g).foldl (fun s x =>
        s.sendRelease sh ⟨BitVec.ofNat 16 grp.gid, x.number⟩ s.tb.toNat [] true (grp.below s.devId)) s
    else s
  let s := s.modColl sh fun c => { c with gathers := c.gathers.filter fun x => x.group != g }
  let ms := (s.sh sh).colls.members.filter fun m => m.group == g && s.collLive sh m
  ms.foldl (fun s m => s.collDead sh g m.number m.q) s

/-- Enabled groups of the device that have a device as a member. -/
def State.groupsWith (s : State) (d : Nat) : List (ShadeIx × GroupIx) :=
  ((List.finRange 16).flatMap fun sh => (List.finRange 8).map fun n => (sh, n)).filter fun x =>
    let g := s.grp x.1 x.2.val
    g.en && g.member d && !g.broken

/-- A device is recorded dead. -/
def State.recordDead (s : State) (d : Nat) (epoch : BitVec 16) : State :=
  let s := s.setPeer d ⟨epoch, false⟩
  let s := (List.finRange 16).foldl (fun s sh => s.killWaits d sh) s
  (s.groupsWith d).foldl (fun s x => s.breakGroup x.1 x.2) s

/-- Every Jorx operation of the device's shades completes with DEST_DEAD. -/
def State.isolateOps (s : State) : State :=
  (List.finRange 16).foldl (fun s sh =>
    let ms := (s.sh sh).colls.members.filter fun m => s.collLive sh m
    let s := ms.foldl (fun s m => s.collDead sh m.group m.number m.q) s
    let qs := ((s.sh sh).running.filter fun r => !r.done && (r.q.transfer.isSome)).map fun r => r.q
    qs.foldl (fun s q => s.abnormal sh q F_DEST_DEAD) s) s

/-- DEAD(X, epoch): about another device it is recorded and passed on, once; about this one, at its present epoch, it isolates the device
(R380, R381). -/
def State.deadArrives (s : State) (i : PortIx) (x : Nat) (epoch : BitVec 16) : State :=
  if x = s.devId then
    if epoch.toNat ≠ s.devEpoch ∨ s.isolated then s
    else (((s.orR .jorx 0 0x10C 65536).jorxErr 2).raise jorxSrc).isolateOps
  else
    let fresh := match s.peer x with
      | none => true
      | some p => p.alive && p.epoch == epoch
    if fresh then (s.flood (some i) (.dead (BitVec.ofNat 14 x) epoch)).recordDead x epoch else s

/-- This device declares another dead: it broadcasts DEAD with its recorded epoch (R380). -/
def State.declareDead (s : State) (x : Nat) : State :=
  match s.peer x with
  | some ⟨epoch, true⟩ => (s.flood none (.dead (BitVec.ofNat 14 x) epoch)).recordDead x epoch
  | _ => s

/-- HEARTBEAT_MISS (R380): the first sends a PROBE that avoids the port; the third declares the partner dead, or takes the port DOWN when a
reply has come. -/
def State.heartbeatMiss (s : State) (i : PortIx) : State :=
  if !s.portUp i.val then s
  else
    let x := s.portPeer i.val
    let s := ((s.modPort i fun p => { p with missed := p.missed + 1 }).portErr i 3).portCount i 0xE 1
    let p := s.port i
    if p.missed = 1 then (s.forwardMsg ⟨s.newHead x 0 0 0 0, .probe false⟩ (some i)).1
    else if 3 ≤ p.missed then (if p.replied then s.portDown i else s.declareDead x)
    else s

/-- A PROBE for this device is answered; a reply is noted at the silent ports of its sender, and takes one that has missed three
DOWN. -/
def State.probeArrives (s : State) (src : Nat) (reply : Bool) : State :=
  if !reply then (s.forwardMsg ⟨s.newHead src 0 0 0 0, .probe true⟩ none).1
  else (allPorts.filter fun i => s.portUp i.val && s.portPeer i.val == src && decide (1 ≤ (s.port i).missed)).foldl (fun s i =>
      let s := s.modPort i fun p => { p with replied := true }
      if 3 ≤ (s.port i).missed then s.portDown i else s) s

/-- ALIVE(X, epoch): the new epoch is recorded and streams with the device begin again; the news is passed on, once (R381). About this
device it ends the join (JORX_CTRL.JOIN). -/
def State.aliveArrives (s : State) (i : PortIx) (x : Nat) (epoch : BitVec 16) : State :=
  if x = s.devId then (if epoch.toNat = s.devEpoch then s.setF .jorx 0 0x110 0 0 0 else s)
  else if s.peer x = some ⟨epoch, true⟩ then s
  else ((s.flood (some i) (.alive (BitVec.ofNat 14 x) epoch)).setPeer x ⟨epoch, true⟩).resetStreams x

/-- JOIN from a link partner (R381). -/
def State.joinArrives (s : State) (x : Nat) (epoch : BitVec 16) : State :=
  let s := match s.peer x with
    | some ⟨old, true⟩ => if old = epoch then s else s.declareDead x
    | _ => s
  ((s.flood none (.alive (BitVec.ofNat 14 x) epoch)).setPeer x ⟨epoch, true⟩).resetStreams x

/-- The device's epoch goes up by 1: its streams begin again (R361, R381). -/
def State.epochUp (s : State) : State :=
  (s.setF .jorx 0 0x10C 15 0 (s.devEpoch + 1)).modJorx fun j => { j with outSeq := FMap.empty, inSeq := FMap.empty }

/-- JOIN by the driver (R381). -/
def State.joinStart (s : State) : State :=
  let s := (s.epochUp.clrR .jorx 0 0x10C 65536).orR .jorx 0 0x110 1
  s.toPeers allPorts (.join (BitVec.ofNat 16 s.devEpoch))

end Sys2Proof.Machine
end

