-- ==== Sys2Proof/Machine/Telemetry.lean ====
section
/-! DEFINITION. Telemetry: GLINT and MARK (R397, R453), the Afterglow pool (R446 to R456), block counters under freeze and snapshot (R457
to R459) and the drawing of tagged bundles (R460). -/

namespace Sys2Proof.Machine

/-! ## GLINT and MARK -/

/-- The operation is a STORE into a tensor descriptor. -/
def QOp.storesTo (q : QOp) (td : Nat) : Bool :=
  match q.op with
  | .array .store a => (tilesOf a.tiles).any fun t => (arrayNamed q.desc .store t a.ld.toNat).contains td
  | _ => false

/-- A STORE into the descriptor, issued before, has not released its token (R397). -/
def State.glintWaits (s : State) (sh : ShadeIx) (q : QOp) (td : Nat) : Bool :=
  ((s.sh sh).queue.any fun o => decide (o.id < q.id) && o.storesTo td)
  || (s.sh sh).running.any fun r => decide (r.q.id < q.id) && r.q.storesTo td

/-- The keys of accumulator n in every tile of the shade. -/
def State.glintKeys (s : State) (sh : ShadeIx) (n : Nat) : List Nat :=
  (s.prismsOf sh).flatMap fun p => (List.range 8).map fun t => 256 * tileKey p t + n

/-- The sum of accumulator n over every tile of the shade. -/
def State.glintSum (s : State) (sh : ShadeIx) (n : Nat) : W64 :=
  ((s.glintKeys sh n).map fun k => s.glints.get (fun _ => 0) k).foldl (· + ·) 0

/-- Clear accumulator n in every tile of the shade. -/
def State.glintClear (s : State) (sh : ShadeIx) (n : Nat) : State :=
  (s.glintKeys sh n).foldl (fun s k => { s with glints := s.glints.set (fun _ => 0) k 0 }) s

/-- GLINT (R397): the sum goes to g[G] with the token. -/
def State.glintRun (s : State) (sh : ShadeIx) (q : QOp) (td : Nat) (g : GReg) (clr : Bool) : State :=
  let v := s.glintSum sh td
  let s := (if clr then s.glintClear sh td else s).count .replay sh.val 0xA 1
  s.finish sh q.id [(g.toNat, v)]

/-- MARK (R453). -/
def State.markRun (s : State) (sh : ShadeIx) (q : QOp) (code : BitVec 16) : State :=
  s.shadeRecord sh 0x07 [code.toNat + q.baddr % 16384 * 2 ^ 16]

/-! ## The cell pool (R446, R447, R450) -/

def agEmpty (_ : Nat) : AgQueue := ⟨[], 0⟩
/-- An Afterglow queue. -/
def State.agQ (s : State) (q : Nat) : AgQueue := s.agq.queues.get agEmpty q
def State.setAgQ (s : State) (q : Nat) (x : AgQueue) : State := { s with agq := { s.agq with queues := s.agq.queues.set agEmpty q x } }

/-- The sum of a list. -/
def sumL (l : List Nat) : Nat := l.foldl (· + ·) 0

/-- Cells a queue holds. -/
def AgQueue.held (x : AgQueue) : Nat := sumL (x.packets.map fun p => p.cells)

/-- MIN and MAX of a queue. -/
def State.agMin (s : State) (q : Nat) : Nat := s.getF .agq q 0x100 15 0
def State.agMax (s : State) (q : Nat) : Nat := s.getF .agq q 0x100 31 16

/-- Cells on the free list. -/
def State.agFree (s : State) : Nat := 65536 - sumL (s.agq.queues.cells.map fun c => c.2.held)

/-- Cells still missing from the MIN of the queues but one. -/
def State.agMissing (s : State) (but : Nat) : Nat :=
  sumL (((List.range 256).filter fun q => q != but).map fun q => s.agMin q - (s.agQ q).held)

/-- A queue that holds `held` cells may take a free cell (R447). -/
def mayTake (mn mx missing held free : Nat) : Bool :=
  decide (0 < free) && (decide (held < mn) || (decide (held < mx) && decide (missing + (mn - held) < free)))

/-- Find n cells for a queue: take a free one where R447 allows it, else free the oldest packet. The answer is the packets that stay and
the number freed, and whether the cells were found. -/
def findCells (mn mx missing : Nat) : Nat → Nat → List Packet → Nat → Nat → Nat → List Packet × Nat × Bool
  | 0, _, ps, _, _, lost => (ps, lost, false)
  | fuel + 1, need, ps, held, free, lost =>
    if need = 0 then (ps, lost, true)
    else if mayTake mn mx missing held free then findCells mn mx missing fuel (need - 1) ps (held + 1) (free - 1) lost
    else match ps with
      | [] => ([], lost, false)
      | p :: rest =>
        if !p.complete then (ps, lost, false)
        else
          let got := min p.cells need
          findCells mn mx missing fuel (need - got) rest (held - p.cells + got) (free + p.cells - got) (lost + 1)

/-- n packets of a queue are lost (R447, R450). -/
def State.agLost (s : State) (q n : Nat) : State := if n = 0 then s else (s.satAdd .agq q 0x110 31 0 n).count .agq q 3 n

/-- The length word (R448). -/
def lengthWord (r : Staged) (pseq : W32) : W64 :=
  BitVec.ofNat 64 (r.len % 2 ^ 16 + r.typ * 2 ^ 16 + (match r.shade with
    | some sh => sh.val * 2 ^ 24
    | none => 2 ^ 28) + pseq.toNat * 2 ^ 32)

/-- A record reaches its queue: its cells are found, it is written, and the commit count passes it (R447 to R452). -/
def State.writeRecord (s : State) (r : Staged) : State :=
  let x := s.agQ r.queue
  let n := cellsOf r.len
  if s.agMax r.queue = 0 then (s.setErr .agq r.queue r.queue 0x114 2).agLost r.queue 1
  else
    let z := findCells (s.agMin r.queue) (s.agMax r.queue) (s.agMissing r.queue) (n + x.packets.length + 1) n x.packets x.held s.agFree 0
    let s := s.agLost r.queue z.2.1
    if z.2.2 then
      let s := s.setAgQ r.queue ⟨z.1 ++ [⟨x.nextSeq, n, lengthWord r x.nextSeq :: r.words, true⟩], x.nextSeq + 1⟩
      (((s.count .agq r.queue 1 1).count .agq r.queue 2 n).raise (0x120 + r.queue))
    else (s.setAgQ r.queue ⟨z.1, x.nextSeq⟩).agLost r.queue 1

/-- RECORD_WRITE: the oldest staged record gets the write port (R451). -/
def State.recordWrite (s : State) : State :=
  match s.agq.staged with
  | [] => s
  | r :: rest => { s with agq := { s.agq with staged := rest } }.writeRecord r

/-- Every staged record is written. -/
def State.recordFlush (s : State) : State := (List.range s.agq.staged.length).foldl (fun s _ => s.recordWrite) s

/-- AGQ_POP (R455). -/
def State.agPop (s : State) (q : Nat) (pseq : W32) : State :=
  match (s.agQ q).packets with
  | p :: rest =>
    if p.pseq = pseq then (s.setAgQ q ⟨rest, (s.agQ q).nextSeq⟩).count .agq q 4 1 else s.setErr .agq q q 0x114 1
  | [] => s.setErr .agq q q 0x114 1

/-! ## Counters (R457 to R459) -/

/-- A page: its block type and instance. -/
structure PageId where
  kind : PageKind
  inst : Nat
  deriving DecidableEq, Repr

/-- Every page of the device, in the order of the page map by block type. -/
def allPages : List PageId := PageKind.all.flatMap fun k => (List.range k.count).map fun i => ⟨k, i⟩

/-- The pages of a shade: those of its prisms, and those instanced by its number (R458). -/
def State.shadePages (s : State) (sh : ShadeIx) : List PageId :=
  allPages.filter fun p =>
    if p.kind.perPrism then s.ownerP (p.kind.prismOf p.inst) == sh.val && (s.prismsOf sh).contains (p.kind.prismOf p.inst)
    else p.kind.perShade && p.inst == sh.val

/-- The pages in a scope: a shade's, or the device's. -/
def State.scopePages (s : State) : Option ShadeIx → List PageId
  | some sh => s.shadePages sh
  | none => allPages

/-- The key of a page's shade hold. -/
def PageId.key (p : PageId) : Nat := p.kind.ix * 1024 + p.inst

/-- Set or clear a hold. -/
def State.setHold (s : State) (scope : Option ShadeIx) (v : Bool) : State :=
  match scope with
  | none => { (s.setF .agqm 0 0x104 4 4 (b2n v)) with agq := { s.agq with devThaw := FMap.empty } }
  | some sh => (s.shadePages sh).foldl (fun s p =>
      { s with agq := { s.agq with shadeHold := s.agq.shadeHold.set (fun _ => false) p.key v } }) s

/-- The hold of a scope is set. -/
def State.held (s : State) (scope : Option ShadeIx) : Bool :=
  match scope with
  | none => s.bitR .agqm 0 0x104 4
  | some sh => s.agq.shadeHold.get (fun _ => false) (PageId.key ⟨.shcfg, sh.val⟩)

/-- Zero the counters of pages: an unlisted counter reads 0. -/
def State.clearCounters (s : State) (f : PageKind → Nat → Bool) : State :=
  { s with regs := s.regs.keep fun k =>
      !(decide (0x80 ≤ k % 4096) && decide (k % 4096 < 0xC0) && f (PageKind.ofIx (k / 4096 / 1024)) (k / 4096 % 1024)) }

/-- A page lies in a scope. -/
def State.inScope (s : State) (scope : Option ShadeIx) (k : PageKind) (i : Nat) : Bool :=
  match scope with
  | none => true
  | some sh => (s.shadePages sh).contains ⟨k, i⟩

/-- CLEAR: every counter in scope is zeroed, but that of a page that a snapshot under way has still to copy is zeroed after it (R458, R459). -/
def State.clearScope (s : State) (scope : Option ShadeIx) : State :=
  match s.agq.snaps with
  | [] => s.clearCounters fun k i => s.inScope scope k i
  | r :: _ =>
    let s := s.clearCounters fun k i => s.inScope scope k i && !s.inScope r.shade k i
    { s with agq := { s.agq with clears := s.agq.clears ++ [(scope, r.shade)] } }

/-- The clears that waited for the collector take effect. -/
def State.clearsDue (s : State) : State :=
  s.agq.clears.foldl (fun (s : State) c => s.clearCounters fun k i => s.inScope c.1 k i && s.inScope c.2 k i)
    { s with agq := { s.agq with clears := [] } }

/-- A snapshot is requested: the hold is set and the request waits for the collector; with four waiting it is dropped (R458, R459). -/
def State.snapRequest (s : State) (source : Nat) (scope : Option ShadeIx) (inconsistent : Bool) : State :=
  if 4 ≤ s.agq.snaps.length then (s.setErr .agqm 0 0 0x10C 1).count .agqm 0 6 1
  else
    let r : SnapReq := ⟨source, scope, inconsistent, s.held scope⟩
    { s.setHold scope true with agq := { (s.setHold scope true).agq with snaps := s.agq.snaps ++ [r] } }

/-- The counter action of CNT in slot 14, or of CNT_CTRL (R458). -/
def State.cntAct (s : State) (scope : Option ShadeIx) (a : CntAct) : State :=
  match a with
  | .freeze => s.setHold scope true
  | .thaw => s.setHold scope false
  | .clear => s.clearScope scope
  | .snapshot => s.snapRequest (if scope.isSome then 1 else 0) scope false

/-- BLK_ID of a page (R516, R522). -/
def PageId.blkId (p : PageId) : Nat := p.inst + p.kind.typeCode * 2 ^ 16

/-- The body of a SNAPSHOT record of a page (R453). -/
def State.snapBody (s : State) (r : SnapReq) (p : PageId) (last : Bool) : List Nat :=
  let sel (i : Nat) : Nat := s.getR p.kind p.inst (0x40 + 4 * i)
  [p.blkId + s.agq.snapCount % 2 ^ 32 * 2 ^ 32, r.source + b2n r.inconsistent * 4 + b2n last * 8]
  ++ ((List.range 8).map fun i => s.getR64 p.kind p.inst (0x80 + 8 * i))
  ++ (List.range 4).map fun k => sel (2 * k) + sel (2 * k + 1) * 2 ^ 32

/-- SNAPSHOT_COLLECT: the collector takes the next request and writes one packet for each page in scope; at one page per 4 fabric cycles the
write port keeps up, so each is written as it is made. Then the hold is cleared unless it was set before (R458, R459). -/
def State.snapCollect (s : State) : State :=
  match s.agq.snaps with
  | [] => s
  | r :: rest =>
    let ps := s.scopePages r.shade
    let s := ps.zipIdx.foldl (fun s p =>
      let body := s.snapBody r p.1 (p.2 + 1 == ps.length)
      (match r.shade with
        | some sh => s.shadeRecord sh 0x08 body
        | none => s.deviceRecord 0x08 body).recordFlush) s
    let s := if r.wasHeld then s else s.setHold r.shade false
    { s with agq := { s.agq with snaps := rest, snapCount := s.agq.snapCount + 1 } }.clearsDue

/-- A shade reset cancels the shade's requests and clears both holds on its pages (R459). -/
def State.snapCancel (s : State) (sh : ShadeIx) : State :=
  let mine (r : SnapReq) : Bool := r.shade == some sh
  let first := (s.agq.snaps.head?.map mine).getD false
  let s := { s with agq := { s.agq with snaps := s.agq.snaps.filter fun r => !mine r } }
  let s := if first then s.clearsDue else s
  let s := s.setHold (some sh) false
  if s.bitR .agqm 0 0x104 4 then (s.shadePages sh).foldl (fun (s : State) p =>
    { s with agq := { s.agq with devThaw := s.agq.devThaw.set (fun _ => false) p.key true } }) s else s

/-- SNAPSHOT_FREEZE_TIME: at T_f the counters freeze and are snapshot to the device queue, marked INCONSISTENT where messages are still
unacknowledged; injection resumes (R383). -/
def State.snapFreeze (s : State) : State :=
  match s.jorx.holdFrom with
  | none => s
  | some t =>
    if s.tb.toNat < t + 2000 then s
    else
      let open_ := (List.finRange 16).any fun sh => !(s.sh sh).open_.isEmpty
      let s := if open_ then s.jorxErr 5 else s
      (s.snapRequest 2 none open_).modJorx fun j => { j with holdFrom := none }

/-- A write of a counter select: its counter starts from 0 (R457). -/
def State.clearCounter (s : State) (k : PageKind) (inst i : Nat) : State := s.setR64 k inst (0x80 + 8 * i) 0

/-! ## Tagging (R460) -/

/-- The draw for the bundle being issued: the top p bits of w0[31:12] are all 0. -/
def State.tagDrawn (s : State) (sh : ShadeIx) : Bool :=
  let p := s.getF .agqm 0 (0x180 + 4 * sh.val) 4 0
  let seed := BitVec.ofNat 64 (s.getR64 .speckle (shInst sh) 0x100)
  let w := (speckle (s.gen sh) seed (BitVec.ofNat 64 (0x0B00000000000000 + sh.val)) (s.sh sh).lan.bundles).x0.toNat / 2 ^ 12
  p != 0 && w / 2 ^ (20 - p) == 0

/-- A bundle that is drawn is tagged, unless one is in flight (TAG_SKIP). `ops` are its unit operations with their slots. -/
def State.tagIssue (s : State) (sh : ShadeIx) (baddr : Nat) (ops : List (Nat × Nat)) : State :=
  if !s.tagDrawn sh then s
  else if (s.sh sh).tag.isSome then s.count .agqm 0 7 1
  else
    let l := (s.sh sh).lan
    (s.modSh sh fun x => { x with tag := some ⟨baddr, l.bundles, l.cycles, ops, [], []⟩ }).tagSettle sh

end Sys2Proof.Machine
end

