-- ==== Sys2Proof/Machine/Units.lean ====
section
/-! DEFINITION. How every unit takes an operation: its issue check (R220), its start check (R117, R118, R220, R228 to R230) and its run. A
unit that does all of an operation's work at once finishes it or reports its fault (R221, R242). -/

namespace Sys2Proof.Machine

/-! ## Issue checks -/

/-- The issue check of an operation of slot 8. -/
def State.maskCheck (s : State) (sh : ShadeIx) (q : QOp) (o : MaskOp) : Option Nat :=
  match o with
  | .scomp g _ td _ td2 => s.scompCheck sh q g td.toNat td2.toNat
  | .prune mo g _ => s.pruneCheck sh q mo.toNat g false
  | .grow mo g _ => s.pruneCheck sh q mo.toNat g true
  | .mcommit mo => s.mcommitCheck sh q mo.toNat
  | .mirrorBuild mo _ td => s.mirrorCheck sh q mo.toNat td.toNat
  | .silh mo g _ _ => s.silhCheck sh q mo.toNat g

/-- The issue check of an operation of slots 9 to 11. -/
def State.beamCheck (s : State) (sh : ShadeIx) (q : QOp) (o : BeamOp) : Option Nat :=
  match o with
  | .copy b tds tdd g _ => s.copyCheck sh q b.toNat tds.toNat tdd.toNat g
  | .scrub b tdd g _ => s.scrubCheck sh q b.toNat tdd.toNat g

/-- The issue check of an operation of slot 12. -/
def State.jorxCheck (s : State) (sh : ShadeIx) (q : QOp) (o : JorxOp) : Option Nat :=
  match o with
  | .put td g _ => s.remoteCheck sh q td.toNat g false
  | .get td g _ => s.remoteCheck sh q td.toNat g false
  | .bcast td g _ _ => s.remoteCheck sh q td.toNat g true
  | .barrier _ _ => none
  | .flagred _ _ _ => none
  | .smallred _ _ _ _ => none

/-- The issue check of an operation of slot 13. -/
def State.spkCheck (s : State) (sh : ShadeIx) (q : QOp) (o : SpkOp) : Option Nat :=
  match o with
  | .seedFresh _ _ _ => s.freshCheck sh
  | .draw g td _ => s.drawCheck sh q g td.toNat
  | .seed _ _ => none
  | .umbra _ => none

/-- The issue check of an operation: what its chapter states for its operands (R220); a GLINT needs a token (R397). -/
def State.opCheck (s : State) (sh : ShadeIx) (q : QOp) : Option Nat :=
  match q.op with
  | .hold => none
  | .ext _ _ => none
  | .ctl o => ctlCheck (s.sh sh).lan o
  | .scalar o => s.scalarCheck sh o
  | .array o a => s.arrayCheck sh q o a
  | .lens o a => s.lensCheck sh q (o == .update) a.cd.toNat a.g
  | .focus o a => s.focusCheck sh q o a
  | .mask o => s.maskCheck sh q o
  | .beam o => s.beamCheck sh q o
  | .jorx o => s.jorxCheck sh q o
  | .spk o => s.spkCheck sh q o
  | .tel (.glint _ _ _ t) => rsvdIf (t == none)
  | .tel _ => none

/-- The error registers that a failed issue check marks, on the lead prism's pages: LENS_ERR.DESC_BAD, FOCUS_ERR.CTRL_BAD and SPECKLE_ERR
(R193, R195, R203, R204). -/
def State.checkMarks (s : State) (sh : ShadeIx) (q : QOp) (code : Nat) : State :=
  let p := s.leadP sh
  let spk (s : State) (m : Nat) : State := s.setErr .speckle (shInst sh) p 0x10C m
  if code ≠ RSVD_FIELD then s
  else match q.op with
    | .lens o a =>
      let x := readCD q.desc a.cd.toNat
      let u := UpdWord.ofNat (q.greg a.g.toNat)
      let s := if x.streamBad q then spk s 2 else s
      if x.bad q.desc || (o == .update && u.bad q.desc x) || !x.streamBad q then s.lensErr p a.cd.toNat 0 else s
    | .focus _ _ => s.setErr .focus p p 0x10C 1
    | .spk (.seedFresh _ _ _) => spk s 1
    | .spk (.draw g _ _) => if spkReserved (q.greg (g.toNat + 1)) then spk s 2 else s
    | _ => s

/-! ## Start -/

/-- The operation leaves its unit queue and runs. -/
def State.take (s : State) (sh : ShadeIx) (q : QOp) : State :=
  s.modSh sh fun x => { x with queue := x.queue.filter fun o => o.id != q.id, running := x.running ++ [⟨q, false, []⟩] }

/-- The work of an operation that is done at once ends: complete, or with its fault (R221, R242). -/
def Res.opEnd (r : Res) (sh : ShadeIx) (q : QOp) : State :=
  match r.err with
  | none => r.s.finish sh q.id []
  | some f => r.s.opFault sh q f

/-- An array start check as a shared answer. -/
def Start.ready (s : State) : Start → Ready
  | .wait => .wait s
  | .fault f => .fault s f
  | .go => .go s

/-- Wait unless a condition holds. -/
def State.readyIf (s : State) (b : Bool) : Ready := if b then .go s else .wait s

/-- The start check of an operation's own unit, past its captures. Slot 13 operations take effect in issue order, behind a SEED.FRESH that
waits for the pool (R201). -/
def State.unitReady (s : State) (sh : ShadeIx) (q : QOp) : Ready :=
  match q.transfer with
  | some x => s.transferReady sh q x
  | none => match q.group with
    | some g => s.collReady sh q g
    | none => match q.op with
      | .array o a => (s.arrayStart sh q o a).ready s
      | .beam _ => s.readyIf (!s.isCommit sh q || !s.commitWaits sh q)
      | .spk (.umbra _) => s.readyIf ((s.sh sh).freshRunning.isNone && s.umbraReady sh)
      | .spk _ => s.readyIf (s.sh sh).freshRunning.isNone
      | .tel (.glint td _ _ _) => s.readyIf (!s.glintWaits sh q td.toNat)
      | _ => .go s

/-- An operation of slot 8 runs. -/
def State.maskRun (s : State) (sh : ShadeIx) (q : QOp) (o : MaskOp) : Res :=
  match o with
  | .scomp g _ td tiles td2 => s.scompRun sh q g td.toNat td2.toNat tiles
  | .prune mo g _ => s.pruneRun sh q mo.toNat g
  | .grow mo g _ => s.growRun sh q mo.toNat g
  | .mcommit mo => s.mcommitRun sh mo.toNat
  | .mirrorBuild mo _ td => s.mirrorRun sh q mo.toNat td.toNat
  | .silh mo g tiles p => s.silhRun sh q mo.toNat g tiles p.val

/-- A COPY on local memory runs; a commit write is over at once or waits for its line (R297, R324). -/
def State.copyGo (s : State) (sh : ShadeIx) (q : QOp) (b : BitVec 4) (tds tdd : BitVec 8) (g : GReg) : State :=
  if s.isCommit sh q then
    match s.commitStart sh q tds.toNat with
    | .over s => s.finish sh q.id []
    | .written r => match r.err with
      | none => r.s
      | some f => r.s.opFault sh q f
  else (s.copyRun sh q b.toNat tds.toNat tdd.toNat g).opEnd sh q

/-- An operation of slot 13 runs. -/
def State.spkGo (s : State) (sh : ShadeIx) (q : QOp) (o : SpkOp) : State :=
  match o with
  | .seed g gen => (s.seedRun sh q g gen).finish sh q.id []
  | .seedFresh _ _ _ => s.freshStart sh
  | .draw g td _ => (s.drawRun sh q g td.toNat).opEnd sh q
  | .umbra _ => (s.umbraRun sh q).opEnd sh q

/-- An operation of slot 14 runs. -/
def State.telGo (s : State) (sh : ShadeIx) (q : QOp) (o : TelOp) : State :=
  match o with
  | .glint td g clr _ => s.glintRun sh q td.toNat g clr
  | .mark code => (s.markRun sh q code).finish sh q.id []
  | .cnt a => (s.cntAct (some sh) a).finish sh q.id []

/-- An operation runs in its unit, past its start check. -/
def State.runOp (s : State) (sh : ShadeIx) (q : QOp) : State :=
  match q.transfer with
  | some x => s.transferGo sh q x
  | none => match q.group with
    | some g => s.collGo sh q g
    | none => match q.op with
      | .array o a => s.arrayBegin sh q o a
      | .lens o a => (s.lensRun sh q (o == .update) a.cd.toNat a.g).opEnd sh q
      | .focus o a => (s.focusRun sh q o a).opEnd sh q
      | .mask o => (s.maskRun sh q o).opEnd sh q
      | .beam (.copy b tds tdd g _) => s.copyGo sh q b tds tdd g
      | .beam (.scrub b tdd g _) => (s.scrubRun sh q b.toNat tdd.toNat g).opEnd sh q
      | .spk o => s.spkGo sh q o
      | .tel o => s.telGo sh q o
      | _ => s

/-- What a start check's answer does: the operation waits on in its queue, fails (R221), or `go` is done with it. -/
def Ready.act (r : Ready) (sh : ShadeIx) (q : QOp) (go : State → State) : State :=
  match r with
  | .wait s => s
  | .fault s f => (s.take sh q).opFault sh q f
  | .go s => go s

/-- A memory controller of a tier retrains: its accesses wait (R282, R475). -/
def State.retraining (s : State) (deep : Bool) : Bool :=
  (List.range 10).any fun i => decide (8 ≤ i) == deep && s.bitR .memctl i 0x100 1

/-- The operation accesses a memory tier: walks, layouts and mask objects lie in HBM. -/
def QOp.touches (q : QOp) (deep : Bool) : Bool :=
  (q.named.any fun n =>
    let t := readTD q.desc n
    if deep then t.space == 0xB else t.space == 0xA || t.space == 0xB || t.moen) || (!deep && q.maskObj.isSome)

/-- The operation waits for a retraining. -/
def State.retrainWaits (s : State) (q : QOp) : Bool := (s.retraining false && q.touches false) || (s.retraining true && q.touches true)

/-- The start of an operation at the head of its queue (R220, R228, R282). -/
def State.startOp (s : State) (sh : ShadeIx) (q : QOp) : State :=
  if s.retrainWaits q then s else (s.capture sh q).act sh q fun s => (s.unitReady sh q).act sh q fun s => ((s.take sh q).tagStart sh q.id).runOp sh q

/-- Units start nothing while the shade rolls back, or is not in service (R405, R441). -/
def ShadeSt.unitsRun (x : ShadeSt) : Bool := x.life == 1 && x.rep.rolling.isNone

/-- The oldest waiting operation of a kind that may leave its queue starts. -/
def State.startKind (s : State) (sh : ShadeIx) (f : QOp → Bool) : State :=
  if !(s.sh sh).unitsRun then s
  else match firstStart f [] (s.sh sh).queue with
    | none => s
    | some q => s.startOp sh q

end Sys2Proof.Machine
end

