-- ==== Sys2Proof/Machine/Issue.lean ====
section
/-! DEFINITION. The issue of a bundle (chapter 08): the conditions of R227, the decode and issue checks (R220), the effects of its slots
(R228 to R246), the release of tokens (R242) and the frames of the bundle store (R224 to R226). -/

namespace Sys2Proof.Machine

/-! ## What a bundle holds -/

/-- The slots that decode. -/
def decodedSlots (ds : List (Nat × SlotDec)) : List Slot :=
  ds.filterMap fun d => match d.2 with
    | .ok ps o => some ⟨d.1, ps, o⟩
    | _ => none

/-- The slots that act: PSEL 0, or its predicate is true, and no HOLD (R216, R217). -/
def actingSlots (l : Lantern) (ss : List Slot) : List Slot := ss.filter fun x => acts l x && x.op != .hold

/-- The operation of slot 0, when it acts. -/
def ctlOf (as : List Slot) : Option CtlOp :=
  as.findSome? fun x => match x.op with
    | .ctl o => some o
    | _ => none

/-- The upper half that an EXT gives the immediate of a slot (R246). -/
def extOf (as : List Slot) (ix : Nat) : Option (BitVec 32) :=
  as.findSome? fun x => match x.op with
    | .ext t hi => if t.toNat = ix then some hi else none
    | _ => none

/-- The operation a slot names, as issue captures it (R117, R200, R231, R240). -/
def State.mkQ (s : State) (sh : ShadeIx) (id : Nat) (x : Slot) : QOp :=
  let y := s.sh sh
  ⟨id, x.ix, y.lan.pc.toNat, x.op, y.lan.g, y.desc, y.masks, BitVec.ofNat 64 (s.getR64 .speckle (shInst sh) 0x100), s.gen sh,
   BitVec.ofNat 6 (s.getF .safe (shInst sh) 0x10C 5 0), s.bitR .safe (shInst sh) 0x128 0⟩

/-! ## The conditions of issue (R227) -/

/-- Every token a slot names is below 63, and takes every operation of the bundle that names it. -/
def tokensRoom (l : Lantern) (ss as : List Slot) : Bool :=
  tokensFree l ss && as.all fun x => match x.op.tok with
    | none => true
    | some t => decide (l.tok[t.toNat].toNat + (as.filter fun y => y.op.tok == some t).length ≤ 63)

/-- The WAIT of slot 0 is satisfied, or there is none. -/
def waitDone (l : Lantern) (as : List Slot) : Bool :=
  match ctlOf as with
  | some (.wait m) => waitOk l m
  | _ => true

/-- The first condition that fails, as the event that counts it (R250): WAIT_TOKEN, QUEUE_FULL, TOKEN_FULL, YIELD_HOLD. -/
def ShadeSt.issueWaits (x : ShadeSt) (ss as : List Slot) : Option Nat :=
  if !waitDone x.lan as then some 3
  else if !queuesHaveRoom x.queue as then some 4
  else if !tokensRoom x.lan ss as then some 5
  else if x.lan.yielding.isSome then some 6
  else none

/-! ## The checks (R220) -/

/-- The first failed check of a bundle, by slot: its class and code. -/
def State.bundleFirst (s : State) (sh : ShadeIx) (ss : List Slot) : List (Nat × SlotDec) → Option (FClass × SlotFault)
  | [] => none
  | (ix, .undef) :: _ => some (.decode, ⟨ix, UNDEF_OP⟩)
  | (ix, .rsvd) :: _ => some (.decode, ⟨ix, RSVD_FIELD⟩)
  | (ix, .ok ps o) :: ds =>
    let l := (s.sh sh).lan
    if bundleBad l.pendG l.rep.isSome ss ⟨ix, ps, o⟩ then some (.decode, ⟨ix, RSVD_FIELD⟩)
    else match s.opCheck sh (s.mkQ sh 0 ⟨ix, ps, o⟩) with
      | some code => some (.issue, ⟨ix, code⟩)
      | none => s.bundleFirst sh ss ds

/-- The marks of every slot whose issue check fails. -/
def State.bundleMarks (s : State) (sh : ShadeIx) (ss : List Slot) : State :=
  ss.foldl (fun (z : State) x => match s.opCheck sh (s.mkQ sh 0 x) with
    | some code => z.checkMarks sh (s.mkQ sh 0 x) code
    | none => z) s

/-! ## The effects of slots -/

/-- The scalar results of a slot, from the state `s` before the bundle (R238, R239). -/
def scalarResults (s : State) (sh : ShadeIx) (as : List Slot) (l : Lantern) (x : Slot) : Lantern :=
  match x.op with
  | .scalar o =>
    let l := match s.gResult sh (extOf as x.ix) o with
      | some (g, v) => l.setG g v
      | none => l
    match s.pResult sh (extOf as x.ix) o with
    | some (p, v) => l.setP p v
    | none => l
  | _ => l

/-- The descriptor write of a slot (R240). -/
def dwrResults (l : Lantern) (y : ShadeSt) (x : Slot) : ShadeSt :=
  match x.op with
  | .scalar (.dwr ga d) => y.dwr d (l.greg ga)
  | _ => y

/-- Does an acting slot place an operation in a unit queue? -/
def slotQueued (x : Slot) : Bool := (unitKeys x.ix x.op) != []

/-- Does a slot's operation outlast the issue: a queued one, a load, a store or a frame load? -/
def slotOutlasts (x : Slot) : Bool :=
  slotQueued x || (match x.op with
    | .scalar (.ldp _ _ _) => true
    | .scalar (.stp _ _ _) => true
    | .ctl (.bpl _ _ _) => true
    | _ => false)

/-- The captured operations of the slots that outlast the issue. -/
def State.captured (s : State) (sh : ShadeIx) (as : List Slot) : List QOp :=
  (as.filter slotOutlasts).zipIdx.map fun x => s.mkQ sh ((s.sh sh).nextId + x.2) x.1

/-- An operation that needs no unit queue is under way until its completion event. -/
def State.underWay (s : State) (sh : ShadeIx) (r : Running) : State := s.modSh sh fun x => { x with running := x.running ++ [r] }

/-- LDP (R239): the 8 B of the lead prism's pool reach g[GD] when the load completes. -/
def State.ldpGo (s : State) (sh : ShadeIx) (q : QOp) (gd ga : GReg) : State :=
  let c : Ctx := ⟨sh, s.leadP sh, 0, q.g⟩
  match s.rdSNat c 9 (q.greg ga.toNat) 8 with
  | .error f => (s.underWay sh ⟨q, false, []⟩).opFault sh q f
  | .ok v => s.underWay sh ⟨q, false, [(gd.toNat, BitVec.ofNat 64 v)]⟩

/-- STP (R239): 8 B of the lead prism's pool. -/
def State.stpGo (s : State) (sh : ShadeIx) (q : QOp) (ga gb : GReg) : State :=
  let c : Ctx := ⟨sh, s.leadP sh, 0, q.g⟩
  let r := (s.underWay sh ⟨q, false, []⟩).wrSN c 9 (q.greg ga.toNat) (leBytes 8 (q.greg gb.toNat))
  match r.err with
  | some f => r.s.opFault sh q f
  | none => r.s.finish sh q.id []

/-- Change a frame of the bundle store. -/
def Lantern.setFrame (l : Lantern) (f : BitVec 6) (x : Frame) : Lantern := { l with frames := l.frames.set f.toNat x }

/-- BPL (R225): its frame is invalid until all of it has arrived. -/
def State.bplGo (s : State) (sh : ShadeIx) (q : QOp) (frame : BitVec 6) (g : GReg) : State :=
  (s.underWay sh ⟨q, false, []⟩).modLan sh fun l => l.setFrame frame ⟨false, q.greg g.toNat, true⟩

/-- The part of slots 0 to 2 beyond control flow and register results. -/
def State.directGo (s : State) (sh : ShadeIx) (q : QOp) : State :=
  match q.op with
  | .scalar (.ldp gd ga _) => s.ldpGo sh q gd ga
  | .scalar (.stp ga gb _) => s.stpGo sh q ga gb
  | .ctl (.bpl frame g _) => s.bplGo sh q frame g
  | _ => s

/-- Core cycles lost to a taken branch, a LOOP of count 0 or an empty REPEAT (R233 to R235, R250). -/
def bubbles (l : Lantern) : Option CtlOp → Nat
  | some (.br _) => 2
  | some (.loop _ c _) => if l.countOf c = 0 then 2 else 0
  | some (.repeat c) => if l.countOf c = 0 then 1 else 0
  | _ => 0

/-- PHASE, YIELD and HALT, after the rest of their bundle (R236, R237, R332). -/
def State.ctlGo (s : State) (sh : ShadeIx) (pc : Nat) (o : Option CtlOp) : State :=
  match o with
  | some (.phase ph) => s.phaseSet sh ph
  | some (.yield e) => s.modLan sh fun l => { l with yielding := some e, yieldPc := pc }
  | some (.halt code) => (s.setR .lant (shInst sh) 0x114 code.toNat).halt sh
  | _ => s

/-- An operation is a SEED. -/
def QOp.isSeed (q : QOp) : Bool :=
  match q.op with
  | .spk (.seed _ _) => true
  | _ => false

/-- A SEED takes effect in its issue cycle, unless an earlier slot 13 operation waits (R201). -/
def State.seedNow (s : State) (sh : ShadeIx) : State := s.startKind sh QOp.isSeed

/-- BLK_ERR_INJECT.LOCKSTEP of the lead prism's LANT page: this bundle shows a differing compare (R231, R524). -/
def State.lockstep (s : State) (sh : ShadeIx) (pc : Nat) : State :=
  let p := s.leadP sh
  if !s.bitR .lant p 0x20 3 then s
  else (((s.clrR .lant p 0x20 8).orR .lant p 0x18 16).blkErr .lant p 3).machineFault p F_LOCKSTEP ⟨15, pc, p, 0⟩

/-- The registers, tokens, predicates and the bundle address after an issue. -/
def issuedLantern (s : State) (sh : ShadeIx) (as : List Slot) : Lantern :=
  let old := (s.sh sh).lan
  let l := as.foldl (scalarResults s sh as) old
  let l := as.foldl (fun (l : Lantern) x => (l.tokUp x.op.tok).mkPend x.op.gAsync) l
  let l := nextPc old l (ctlOf as)
  { l with bundles := old.bundles + 1, waitSince := none }

/-- A bundle that has passed its conditions and checks issues: every slot acts on the state before it. -/
def State.issueGo (s : State) (sh : ShadeIx) (as : List Slot) : State :=
  let old := (s.sh sh).lan
  let qs := s.captured sh as
  let l := issuedLantern s sh as
  let units := qs.filter fun q => (unitKeys q.slot q.op) != []
  let z := s.modSh sh fun x => { x with queue := x.queue ++ units, nextId := x.nextId + qs.length }
  let z := z.tagIssue sh old.pc.toNat (units.map fun q => (q.id, q.slot))
  let z := z.modSh sh fun x => { (as.foldl (dwrResults old) x) with lan := l }
  let z := (z.countLant sh 1 1).countSpan .lant (z.leadP sh) 8 (bubbles old (ctlOf as))
  let z := qs.foldl (fun (z : State) q => z.directGo sh q) z
  let z := z.ctlGo sh old.pc.toNat (ctlOf as)
  let z := z.seedNow sh
  let z := if old.stopReq then z.halt sh else z
  z.lockstep sh old.pc.toNat

/-- The Lantern issues nothing while halted, in a rollback, in an ordered hold, in a self-test window, held for a DVFS step or out of
service (R237, R393, R405, R441, R467, R482). -/
def ShadeSt.issues (x : ShadeSt) : Bool :=
  x.unitsRun && !x.rep.hold && x.rep.window.isEmpty && !x.rep.dvfs && !x.lan.halted

/-- A WAIT that holds its bundle is noted with the time from which LANT_TMO counts (R244). -/
def State.noteWait (s : State) (sh : ShadeIx) (waiting : Bool) : State :=
  s.modLan sh fun l => { l with waitSince := if waiting then some (l.waitSince.getD s.tb.toNat) else none }

/-- A core cycle in which a bundle is ready: the event of the first condition that fails, none where it issues, and so the conditions of
the other waits over (R227, R457). -/
def State.issueHeld (s : State) (sh : ShadeIx) (ev : Nat) : State :=
  [2, 3, 4, 5, 6].foldl (fun s e => s.cycleEv .lant (s.leadP sh) e (e == ev)) s

/-- One core cycle of issue with the bundle at LANT_PC, given by its decoded slots in ascending order. -/
def State.issue (s : State) (sh : ShadeIx) (ds : List (Nat × SlotDec)) : State :=
  let x := s.sh sh
  if !x.issues then s
  else
    let ss := decodedSlots ds
    let as := actingSlots x.lan ss
    match x.issueWaits ss as with
    | some ev => (s.noteWait sh (ev == 3)).issueHeld sh ev
    | none => match s.bundleFirst sh ss ds with
      | some (c, f) => (s.bundleMarks sh ss).bundleFault sh c f
      | none => (s.issueHeld sh 0).issueGo sh as

/-! ## The bundle store -/

/-- The bundle words at an address of the lead prism's store (R215, R224). -/
def State.bundleWords (s : State) (sh : ShadeIx) (pc : Nat) : List Nat :=
  (List.range 16).map fun i => s.rdNat (storeKey (s.leadP sh) (pc * 128 + 8 * i)) 8

/-- The decoded slots of a stored bundle. -/
def State.bundleAt (s : State) (sh : ShadeIx) (pc : Nat) : List (Nat × SlotDec) :=
  (s.bundleWords sh pc).zipIdx.map fun w => (w.2, decodeSlot w.2 w.1)

/-- A fetch from an invalid frame with no load in flight raises BOUND (R226). -/
def State.fetchFault (s : State) (sh : ShadeIx) : State := s.bundleFault sh .issue ⟨15, F_BOUND⟩

/-- A word of the bundle at an address that is in uncorrectable error, by key (R276). -/
def State.bundleEcc (s : State) (sh : ShadeIx) (pc : Nat) : Option Nat :=
  ((List.range 16).map fun i => storeKey (s.leadP sh) (pc * 128 + 8 * i)).find? fun k => s.eccAt k == 2

/-- The fetch of a bundle meets an uncorrectable error. -/
def State.fetchEcc (s : State) (sh : ShadeIx) (k : Nat) : State :=
  (s.eccRecord k).machineFault (s.leadP sh) F_ECC_UNCORR ⟨15, (s.sh sh).lan.pc.toNat, s.leadP sh, 0⟩

/-- One core cycle of fetch and issue (R224 to R227). -/
def State.fetchIssue (s : State) (sh : ShadeIx) : State :=
  let x := s.sh sh
  if !x.issues then s
  else
    let pc := x.lan.pc.toNat
    let f := x.lan.frames[(x.lan.pc.extractLsb' 8 6).toNat]
    if f.valid then match s.bundleEcc sh pc with
      | none => s.issue sh (s.bundleAt sh pc)
      | some k => s.fetchEcc sh k
    else if f.loading then s.issueHeld sh 2
    else s.fetchFault sh

/-- The frame a load is on its way to, with the operation of a BPL; the oldest BPL first, else the one LANT_BPL_CTRL.GO began. -/
def State.loadNext (s : State) (sh : ShadeIx) : Option (BitVec 6 × Option QOp) :=
  let bpl : Option (BitVec 6 × Option QOp) := (s.sh sh).running.findSome? fun r => match r.done, r.q.op with
    | false, .ctl (.bpl f _ _) => some (f, some r.q)
    | _, _ => none
  match bpl with
  | some x => some x
  | none => if s.bitR .lant (shInst sh) 0x134 6 then some (BitVec.ofNat 6 (s.getF .lant (shInst sh) 0x134 5 0), none) else none

/-- The end of a frame load by the host. -/
def State.goClear (s : State) (sh : ShadeIx) : State := s.clrR .lant (shInst sh) 0x134 64

/-- Read the 32 KiB of a frame from shade-virtual HBM. -/
def State.frameBytes (s : State) (sh : ShadeIx) (src : Nat) : Except OpFault (List Byte) :=
  s.rdSN ⟨sh, s.leadP sh, 0, (s.sh sh).lan.g⟩ 0xA src 32768

/-- A frame's contents arrive: the store holds them and the frame is valid (R225). -/
def State.frameFill (s : State) (sh : ShadeIx) (f : BitVec 6) (src : Nat) (bs : List Byte) : State :=
  ((s.wrN (storeKey (s.leadP sh) (f.toNat * 32768)) bs).modLan sh fun l => l.setFrame f ⟨true, src, false⟩).countLant sh 9 1

/-- The fault of a frame load: as a BPL's, or the host's; the frame stays invalid (R225). -/
def State.frameFault (s : State) (sh : ShadeIx) (f : BitVec 6) (q : Option QOp) (e : OpFault) : State :=
  let s := s.modLan sh fun l => l.setFrame f { l.frames[f.toNat] with valid := false, loading := false }
  match q with
  | some q => s.opFault sh q e
  | none =>
    let s := match e.xl with
      | some x => s.recordXlate sh 2 x
      | none => s
    (s.goClear sh).stopFault sh e.code e.cls ⟨15, (s.sh sh).lan.pc.toNat, e.prism, e.tile⟩

/-- All of a frame has arrived, or its load has faulted (R225, R226). -/
def State.frameLoaded (s : State) (sh : ShadeIx) : State :=
  match s.loadNext sh with
  | none => s
  | some (f, q) =>
    if s.retraining false then s else
    let src := (s.sh sh).lan.frames[f.toNat].src
    match s.frameBytes sh src with
    | .error e => s.frameFault sh f q e
    | .ok bs =>
      let s := s.frameFill sh f src bs
      match q with
      | some q => s.finishNow sh q
      | none => s.goClear sh

/-! ## Tokens (R242 to R244) -/

/-- The oldest operation that is complete and not yet released. -/
def ShadeSt.releasable (x : ShadeSt) : Option Running := x.running.find? fun r => r.done

/-- The release of an operation reaches the lead Lantern: results are written, registers are no longer pending, the token counts down. -/
def State.release (s : State) (sh : ShadeIx) (r : Running) : State :=
  s.modSh sh fun x => { x with
    running := x.running.filter fun y => y.q.id != r.q.id
    lan := ((r.results.foldl (fun (l : Lantern) v => l.setG (BitVec.ofNat 6 v.1) v.2) x.lan).tokDown r.q.op.tok).unpend r.q.op.gAsync }

/-- LDP_COMPLETE: the oldest load completes, its register is written and its token released (R239). -/
def State.ldpComplete (s : State) (sh : ShadeIx) : State :=
  match (s.sh sh).running.find? fun r => !r.done && (match r.q.op with
    | .scalar (.ldp _ _ _) => true
    | _ => false) with
  | none => s
  | some r => s.release sh r

/-- LANT_TMO.US has passed since the WAIT began to hold its bundle (R244). -/
def State.waitExpired (s : State) (sh : ShadeIx) : Bool :=
  let us := s.getF .lant (shInst sh) 0x118 23 0
  match (s.sh sh).lan.waitSince with
  | none => false
  | some t => us != 0 && decide (t + us * 1000 < s.tb.toNat)

/-- TOKEN_TIMEOUT: a start fault of the WAIT in slot 0. -/
def State.tokenTimeout (s : State) (sh : ShadeIx) : State :=
  if !(s.sh sh).issues || !s.waitExpired sh then s
  else s.stopFault sh F_TOKEN_TIMEOUT .start ⟨0, (s.sh sh).lan.pc.toNat, s.leadP sh, 0⟩

/-! ## Start and stop (R249) -/

/-- LANT_CTRL.STOP. -/
def State.lantStop (s : State) (sh : ShadeIx) : State :=
  if (s.sh sh).lan.halted then s else s.modLan sh fun l => { l with stopReq := true }

/-- LANT_BPL_CTRL.GO: a frame loads from LANT_BPL_ADDR while the Lantern is halted; the address must be a multiple of 128 B. -/
def State.bplByHost (s : State) (sh : ShadeIx) : State :=
  let i := shInst sh
  let a := s.getR64 .lant i 0x12C
  let f := BitVec.ofNat 6 (s.getF .lant i 0x134 5 0)
  if (s.sh sh).life ≠ 1 ∨ !(s.sh sh).lan.halted then s.rsvdWr .lant (s.leadP sh)
  else if s.bitR .lant i 0x134 6 then s
  else if a % 128 ≠ 0 then s.recordFault sh F_ALIGN .issue ⟨15, (s.sh sh).lan.pc.toNat, s.leadP sh, 0⟩
  else (s.orR .lant i 0x134 64).modLan sh fun l => l.setFrame f ⟨false, a, true⟩

end Sys2Proof.Machine
end

