-- ==== Sys2Proof/Machine/LanternRows.lean ====
section
/-! DEFINITION. The commands of the Lantern (chapter 08): BUNDLE_ISSUE, and the operations of slots 0 to 2 and 15, each as the bundle at
LANT_PC that holds in every other slot; then the releases, loads, starts and stops. -/

namespace Sys2Proof.Machine

/-- A slot as it decodes when it holds an operation: a value the decode check refuses is RSVD_FIELD. -/
def oneSlot (ix : Nat) (psel : BitVec 4) (o : SlotOp) : Nat × SlotDec := (ix, if o.rsvd then .rsvd else .ok psel o)

/-- One core cycle of issue with a bundle of one slot, the others holding. -/
def State.issueOne (s : State) (sh : ShadeIx) (ix : Nat) (psel : BitVec 4) (o : SlotOp) : State := s.issue sh [oneSlot ix psel o]

/-- The bundle of an EXT: its target slot, when that is a scalar slot, and slot 15. -/
def extBundle (psel : BitVec 4) (target : BitVec 4) (hi : BitVec 32) (o : ScalarOp) : List (Nat × SlotDec) :=
  (if target = 1 ∨ target = 2 then [oneSlot target.toNat psel (.scalar o)] else []) ++ [oneSlot 15 0 (.ext target hi)]

/-- BUNDLE_ISSUE (R224 to R227): one core cycle of fetch and issue. -/
def execBundleIssue (sh : ShadeIx) (s : State) : Host.Outcome State Fault Refusal :=
  .next (s.fetchIssue sh)

/-- BR (R233). -/
def execBr (sh : ShadeIx) (psel : BitVec 4) (t : BrTarget) (s : State) : Host.Outcome State Fault Refusal :=
  .next (s.issueOne sh 0 psel (.ctl (.br t)))

/-- LOOP (R234). -/
def execLoop (sh : ShadeIx) (psel : BitVec 4) (lc : BitVec 2) (c : CountSrc) (endAddr : BitVec 14) (s : State) : Host.Outcome State Fault Refusal :=
  .next (s.issueOne sh 0 psel (.ctl (.loop lc c endAddr)))

/-- WAIT (R243). -/
def execWait (sh : ShadeIx) (psel : BitVec 4) (m : WaitMode) (s : State) : Host.Outcome State Fault Refusal :=
  .next (s.issueOne sh 0 psel (.ctl (.wait m)))

/-- YIELD (R236). -/
def execYield (sh : ShadeIx) (psel : BitVec 4) (stepEnd : Bool) (s : State) : Host.Outcome State Fault Refusal :=
  .next (s.issueOne sh 0 psel (.ctl (.yield stepEnd)))

/-- HALT (R237). -/
def execHalt (sh : ShadeIx) (psel : BitVec 4) (code : BitVec 16) (s : State) : Host.Outcome State Fault Refusal :=
  .next (s.issueOne sh 0 psel (.ctl (.halt code)))

/-- BPL (R225). -/
def execBpl (sh : ShadeIx) (psel : BitVec 4) (frame : BitVec 6) (g : GReg) (tok : Tok) (s : State) : Host.Outcome State Fault Refusal :=
  .next (s.issueOne sh 0 psel (.ctl (.bpl frame g tok)))

/-- REPEAT (R235). -/
def execRepeat (sh : ShadeIx) (psel : BitVec 4) (c : CountSrc) (s : State) : Host.Outcome State Fault Refusal :=
  .next (s.issueOne sh 0 psel (.ctl (.repeat c)))

/-- PHASE (R332). -/
def execPhase (sh : ShadeIx) (psel : BitVec 4) (ph : BitVec 3) (s : State) : Host.Outcome State Fault Refusal :=
  .next (s.issueOne sh 0 psel (.ctl (.phase ph)))

/-- MOVI (R239). -/
def execMovi (sh : ShadeIx) (psel : BitVec 4) (gd : GReg) (imm : BitVec 32) (s : State) : Host.Outcome State Fault Refusal :=
  .next (s.issueOne sh 1 psel (.scalar (.movi gd imm)))

/-- MOV (R239). -/
def execMov (sh : ShadeIx) (psel : BitVec 4) (gd : GReg) (ga : GReg) (s : State) : Host.Outcome State Fault Refusal :=
  .next (s.issueOne sh 1 psel (.scalar (.mov gd ga)))

/-- ADD (R239). -/
def execAdd (sh : ShadeIx) (psel : BitVec 4) (gd : GReg) (ga : GReg) (gb : GReg) (s : State) : Host.Outcome State Fault Refusal :=
  .next (s.issueOne sh 1 psel (.scalar (.alu .add gd ga gb)))

/-- SUB (R239). -/
def execSub (sh : ShadeIx) (psel : BitVec 4) (gd : GReg) (ga : GReg) (gb : GReg) (s : State) : Host.Outcome State Fault Refusal :=
  .next (s.issueOne sh 1 psel (.scalar (.alu .sub gd ga gb)))

/-- MUL (R239). -/
def execMul (sh : ShadeIx) (psel : BitVec 4) (gd : GReg) (ga : GReg) (gb : GReg) (s : State) : Host.Outcome State Fault Refusal :=
  .next (s.issueOne sh 1 psel (.scalar (.alu .mul gd ga gb)))

/-- AND (R239). -/
def execAnd (sh : ShadeIx) (psel : BitVec 4) (gd : GReg) (ga : GReg) (gb : GReg) (s : State) : Host.Outcome State Fault Refusal :=
  .next (s.issueOne sh 1 psel (.scalar (.alu .and gd ga gb)))

/-- OR (R239). -/
def execOr (sh : ShadeIx) (psel : BitVec 4) (gd : GReg) (ga : GReg) (gb : GReg) (s : State) : Host.Outcome State Fault Refusal :=
  .next (s.issueOne sh 1 psel (.scalar (.alu .or gd ga gb)))

/-- XOR (R239). -/
def execXor (sh : ShadeIx) (psel : BitVec 4) (gd : GReg) (ga : GReg) (gb : GReg) (s : State) : Host.Outcome State Fault Refusal :=
  .next (s.issueOne sh 1 psel (.scalar (.alu .xor gd ga gb)))

/-- SHL (R239). -/
def execShl (sh : ShadeIx) (psel : BitVec 4) (gd : GReg) (ga : GReg) (gb : GReg) (s : State) : Host.Outcome State Fault Refusal :=
  .next (s.issueOne sh 1 psel (.scalar (.alu .shl gd ga gb)))

/-- SHR (R239). -/
def execShr (sh : ShadeIx) (psel : BitVec 4) (gd : GReg) (ga : GReg) (gb : GReg) (s : State) : Host.Outcome State Fault Refusal :=
  .next (s.issueOne sh 1 psel (.scalar (.alu .shr gd ga gb)))

/-- SAR (R239). -/
def execSar (sh : ShadeIx) (psel : BitVec 4) (gd : GReg) (ga : GReg) (gb : GReg) (s : State) : Host.Outcome State Fault Refusal :=
  .next (s.issueOne sh 1 psel (.scalar (.alu .sar gd ga gb)))

/-- MINU (R239). -/
def execMinu (sh : ShadeIx) (psel : BitVec 4) (gd : GReg) (ga : GReg) (gb : GReg) (s : State) : Host.Outcome State Fault Refusal :=
  .next (s.issueOne sh 1 psel (.scalar (.alu .minu gd ga gb)))

/-- MAXU (R239). -/
def execMaxu (sh : ShadeIx) (psel : BitVec 4) (gd : GReg) (ga : GReg) (gb : GReg) (s : State) : Host.Outcome State Fault Refusal :=
  .next (s.issueOne sh 1 psel (.scalar (.alu .maxu gd ga gb)))

/-- ADDI (R239). -/
def execAddi (sh : ShadeIx) (psel : BitVec 4) (gd : GReg) (ga : GReg) (imm : BitVec 32) (s : State) : Host.Outcome State Fault Refusal :=
  .next (s.issueOne sh 1 psel (.scalar (.addi gd ga imm)))

/-- CMP (R239). -/
def execCmp (sh : ShadeIx) (psel : BitVec 4) (pd : BitVec 4) (cond : Cond) (ga : GReg) (gb : GReg) (s : State) : Host.Outcome State Fault Refusal :=
  .next (s.issueOne sh 1 psel (.scalar (.cmp pd cond ga gb)))

/-- CMPI (R239). -/
def execCmpi (sh : ShadeIx) (psel : BitVec 4) (pd : BitVec 4) (cond : Cond) (ga : GReg) (imm : BitVec 32) (s : State) : Host.Outcome State Fault Refusal :=
  .next (s.issueOne sh 1 psel (.scalar (.cmpi pd cond ga imm)))

/-- PLOG (R239). -/
def execPlog (sh : ShadeIx) (psel : BitVec 4) (pd : BitVec 4) (fn : PFn) (pa : BitVec 4) (pb : BitVec 4) (s : State) : Host.Outcome State Fault Refusal :=
  .next (s.issueOne sh 1 psel (.scalar (.plog pd fn pa pb)))

/-- LDP (R239). -/
def execLdp (sh : ShadeIx) (psel : BitVec 4) (gd : GReg) (ga : GReg) (tok : Tok) (s : State) : Host.Outcome State Fault Refusal :=
  .next (s.issueOne sh 1 psel (.scalar (.ldp gd ga tok)))

/-- STP (R239). -/
def execStp (sh : ShadeIx) (psel : BitVec 4) (ga : GReg) (gb : GReg) (tok : Tok) (s : State) : Host.Outcome State Fault Refusal :=
  .next (s.issueOne sh 1 psel (.scalar (.stp ga gb tok)))

/-- RDD (R240). -/
def execRdd (sh : ShadeIx) (psel : BitVec 4) (gd : GReg) (d : DescRef) (s : State) : Host.Outcome State Fault Refusal :=
  .next (s.issueOne sh 1 psel (.scalar (.rdd gd d)))

/-- DWR (R240). -/
def execDwr (sh : ShadeIx) (psel : BitVec 4) (ga : GReg) (d : DescRef) (s : State) : Host.Outcome State Fault Refusal :=
  .next (s.issueOne sh 1 psel (.scalar (.dwr ga d)))

/-- RDS (R241). -/
def execRds (sh : ShadeIx) (psel : BitVec 4) (gd : GReg) (sel : Fin 10) (s : State) : Host.Outcome State Fault Refusal :=
  .next (s.issueOne sh 1 psel (.scalar (.rds gd sel)))

/-- EXT (R246): with the operation in its target slot. -/
def execExt (sh : ShadeIx) (psel : BitVec 4) (target : BitVec 4) (hi : BitVec 32) (o : ScalarOp) (s : State) : Host.Outcome State Fault Refusal :=
  .next (s.issue sh (extBundle psel target hi o))

/-- LDP_COMPLETE (R239). -/
def execLdpComplete (sh : ShadeIx) (s : State) : Host.Outcome State Fault Refusal :=
  .next (s.ldpComplete sh)

/-- TOKEN_RELEASE (R242): the oldest complete operation's release reaches the lead Lantern; the tag record follows (R460). -/
def execTokenRelease (sh : ShadeIx) (s : State) : Host.Outcome State Fault Refusal :=
  match (s.sh sh).releasable with
  | none => .next s
  | some r => .next (s.release sh r)

/-- TOKEN_TIMEOUT (R244). -/
def execTokenTimeout (sh : ShadeIx) (s : State) : Host.Outcome State Fault Refusal :=
  .next (s.tokenTimeout sh)

/-- BPL_COMPLETE (R225, R226). -/
def execBplComplete (sh : ShadeIx) (s : State) : Host.Outcome State Fault Refusal :=
  .next (s.frameLoaded sh)

/-- LANT_STOP (R249). -/
def execLantStop (sh : ShadeIx) (s : State) : Host.Outcome State Fault Refusal :=
  .next (s.lantStop sh)

/-- BPL_GO (R226). -/
def execBplGo (sh : ShadeIx) (s : State) : Host.Outcome State Fault Refusal :=
  .next (s.bplByHost sh)

end Sys2Proof.Machine
end

