-- ==== Sys2Proof/Machine/Replay.lean ====
section
/-! DEFINITION. Replay (chapter 14): yield points and their records (R236, R398 to R403), rollbacks (R404 to R409), the ways a shade is
stopped (R413 to R415), START (R249), and what ordered mode shows (R390 to R393). -/

namespace Sys2Proof.Machine

/-! ## Quiescence (R398) -/

/-- Nothing of the shade waits, runs, or awaits a release, an answer or a collective. -/
def ShadeSt.drained (x : ShadeSt) : Bool :=
  x.queue.isEmpty && x.running.isEmpty && x.open_.isEmpty && x.colls.members.isEmpty && x.lan.tok.toList.all fun t => t == 0

/-- A problem that a yield point may not meet: an open or closed pass, an arming, or passes of an MMS (R80, R137). -/
def ProbSt.held (x : ProbSt) : Bool := x.opened.isSome || !x.closed.isEmpty || x.arm.isSome || x.mms.isSome

/-- The shade's arrays hold a pass, an arming or a combine slot (R80, R137, R271). -/
def State.arrayHeld (s : State) (sh : ShadeIx) : Bool :=
  !(s.sh sh).combines.isEmpty ||
  (s.prismsOf sh).any fun p => (List.range 8).any fun t => (s.tile p t).probs.toList.any ProbSt.held

/-- All that still runs stands in an open combine slot, and nothing is on its way to one (R271): its STOREs cannot complete. -/
def State.combineStuck (s : State) (sh : ShadeIx) : Bool :=
  let x := s.sh sh
  !x.combines.isEmpty && x.queue.isEmpty && x.open_.isEmpty && x.colls.members.isEmpty && x.partials.isEmpty && x.prismPartials.isEmpty
  && (x.running.all fun r => x.combines.any fun c => c.ids.contains r.q.id)
  && ((s.prismsOf sh).all fun p => (List.range 8).all fun t => (s.tile p t).probs.toList.all fun z => z.closed.isEmpty && z.mms.isNone)

/-! ## Records (R401, R402) -/

/-- The registers of the shade that a record holds (R165, R199, R328, R334). -/
def recordKeys (sh : ShadeIx) : List Nat :=
  ([0x104, 0x108, 0x10C, 0x110, 0x11C, 0x120, 0x124, 0x128].map (rkey .safe (shInst sh)))
  ++ ([0x100, 0x104, 0x108].map (rkey .speckle (shInst sh)))
  ++ ([0x108, 0x10C, 0x110, 0x114, 0x120].map (rkey .tstate sh.val))
  ++ (List.range 16).flatMap fun n =>
    [rkey .tstate sh.val (0x218 + 0x20 * n), rkey .tstate sh.val (0x21C + 0x20 * n), rkey .tstate sh.val (tsWritten n)]

/-- A word of the layer table that the device maintains (R165): 0 (RUNG, CLEAN), 2 to 4. -/
def maintainedWord (k : Nat) : Bool :=
  decide (layerWord 0 0 ≤ k) && decide (k < layerWord 256 0) && (let w := (k - layerWord 0 0) % 8; w == 0 || (decide (2 ≤ w) && decide (w ≤ 4)))

/-- The glint sums of the shade, by prism and descriptor (R396, R402). -/
def State.glintSums (s : State) (sh : ShadeIx) : List (Nat × W64) :=
  let ps := s.prismsOf sh
  (s.glints.cells.foldl (fun (m : FMap W64) c =>
    let p := c.1 / 2048
    let k := 256 * p + c.1 % 256
    if ps.contains p then m.set (fun _ => 0) k (m.get (fun _ => 0) k + c.2) else m) FMap.empty).cells

/-- What a record of this moment holds. -/
def State.makeRecord (s : State) (sh : ShadeIx) : Record :=
  let x := s.sh sh
  { epoch := x.rep.epoch, lan := x.lan, cursors := x.cursors, masks := x.masks, saf := x.saf
    regs := (recordKeys sh).map fun k => (k, s.regs.get regDefault k)
    layers := x.desc.cells.filter fun c => maintainedWord c.1
    collNext := x.colls.next, kept := x.colls.kept, glints := s.glintSums sh }

/-- Write a record into the slot that does not hold the newest valid one (R401). -/
def ReplaySt.put (r : ReplaySt) (rec : Record) : ReplaySt :=
  if r.record.isNone then { r with slot0 := some rec, newest := false }
  else if r.newest then { r with slot0 := some rec, newest := false }
  else { r with slot1 := some rec, newest := true }

/-- Every prism writes its part of the record. -/
def State.writeReplay (s : State) (sh : ShadeIx) : State :=
  let rec' := s.makeRecord sh
  s.modSh sh fun x => { x with rep := x.rep.put rec' }

/-! ## Self-test windows and DVFS at a yield point (R467, R482) -/

/-- The rolling self-test is paused while SPARE_SUB or HBM_RETRAIN holds the token (R477). -/
def State.stPaused (s : State) : Bool :=
  let m := s.getR .maint 0 0x104
  bitOf m 0 && (bitsOf m 4 1 == 2 || bitsOf m 4 1 == 3)

/-- A prism was last tested more than ST_CTRL.PERIOD_MS ago (R467). -/
def State.testDue (s : State) (p : Nat) : Bool :=
  decide (s.health.tested.get (fun _ => 0) p + s.getF .health 0 0x210 4 0 * 1000000 < s.tb.toNat)

/-- A window starts on every prism of the shade when one of them is due (R467). -/
def State.windowGo (s : State) (sh : ShadeIx) : State :=
  if !s.stPaused && (s.prismsOf sh).any s.testDue then
    let ps := s.prismsOf sh
    s.modSh sh fun x => { x with rep := { x.rep with window := ps } }
  else s

/-- A running shade holds after its record while a DVFS step waits (R482). -/
def State.dvfsHoldGo (s : State) (sh : ShadeIx) : State :=
  if s.dim.target.isSome then s.modSh sh fun x => { x with rep := { x.rep with dvfs := true } } else s

/-! ## Yield points (R236) -/

/-- The logs empty, the guard ranges are clean and the epoch is the next (R403, R405, R409). -/
def State.epochEnds (s : State) (sh : ShadeIx) : State :=
  let s := (List.range 8).foldl (fun s n => s.clrR .replay sh.val (0x200 + 16 * n) 0x60) s
  s.modSh sh fun x => { x with
    dwrLog := []
    saf := { x.saf with fresh := [], freshUsed := 0 }
    colls := { x.colls with issued := FMap.empty }
    lan := { x.lan with yielding := none, yieldAt := s.tb.toNat }
    rep := { x.rep with epoch := x.rep.epoch + 1, rbCount := 0, forced := 0, replaying := false, streamLog := [] } }

/-- PREEMPT takes effect after the record (R413). -/
def State.preemptGo (s : State) (sh : ShadeIx) : State :=
  if (s.sh sh).rep.preemptReq then
    ((s.halt sh).modSh sh fun x => { x with rep := { x.rep with preempted := true } }).count .replay sh.val 9 1
  else s.dvfsHoldGo sh

/-- The yield-point actions in their order (R236): mask commits, the step boundary, the record. -/
def State.yieldActions (s : State) (sh : ShadeIx) (stepEnd : Bool) : State :=
  let pc := (s.sh sh).lan.yieldPc
  let s := s.maskCommits sh pc
  let step := s.safeStep sh
  let s := if stepEnd then (s.stepBoundary sh pc).phaseBoundary sh step else s
  let s := (s.epochEnds sh).writeReplay sh
  ((s.count .replay sh.val 1 1).windowGo sh).preemptGo sh

/-- YIELD_POINT: the shade is quiescent after a YIELD and the yield point completes; one that only an open pass, an arming or a combine
slot holds up is refused (R80, R137, R271). -/
def State.yieldPoint (s : State) (sh : ShadeIx) : State :=
  let x := s.sh sh
  match x.lan.yielding with
  | none => s
  | some stepEnd =>
    if !x.issues || !(x.drained || s.combineStuck sh) then s
    else if s.arrayHeld sh then
      (s.modLan sh fun l => { l with yielding := none }).stopFault sh RSVD_FIELD .start ⟨0, x.lan.yieldPc, s.leadP sh, 0⟩
    else s.yieldActions sh stepEnd

/-- A pending DVFS step is cancelled and the held shades resume (R482). -/
def State.dvfsCancel (s : State) : State :=
  if s.dim.target.isNone then s
  else
    let s := { s with dim := { s.dim with target := none } }
    let s := (List.finRange 16).foldl (fun (s : State) sh => s.modSh sh fun x => { x with rep := { x.rep with dvfs := false } }) s
    (s.setErr .dimmer 0 0 0x118 4).raise 4

/-- The yield spacing of a shade in ns (R400). -/
def State.yieldSpace (s : State) (sh : ShadeIx) : Nat := s.getF .replay sh.val 0x108 13 0 * 1000

/-- YIELD_LATE: an interval passes without a YIELD (R400); it is reported, and the next begins. -/
def State.yieldLate (s : State) (sh : ShadeIx) : State :=
  let x := s.sh sh
  if x.life ≠ 1 ∨ x.lan.halted ∨ x.lan.yielding.isSome ∨ s.tb.toNat < x.lan.yieldAt + s.yieldSpace sh then s
  else
    let n := s.yieldSpace sh
    let s := s.modLan sh fun l => { l with yieldAt := l.yieldAt + n }
    let s := s.reportFault sh F_YIELD_LATE ⟨15, x.lan.pc.toNat, s.leadP sh, 0⟩
    ((s.replayErr sh 0).count .replay sh.val 8 1).dvfsCancel

/-! ## START (R249, R401, R467, R473) -/

/-- The shade owns a prism that is fenced, or whose logical number is vacant (R471, R473). -/
def State.ownsFenced (s : State) (sh : ShadeIx) : Bool :=
  (List.range 52).any fun p => s.ownerP p == sh.val && s.prismState p == 2

/-- LANT_CTRL.START is taken: in service, halted, no fault recorded, no rollback and no prism lost. -/
def State.startOk (s : State) (sh : ShadeIx) : Bool :=
  let x := s.sh sh
  x.unitsRun && x.lan.halted && !s.bitR .lant (shInst sh) 0x10C 15 && !s.ownsFenced sh

/-- The first START after shade reset writes a record of epoch 0 (R401). -/
def State.firstRecord (s : State) (sh : ShadeIx) : State :=
  let x := s.sh sh
  if x.rep.record.isNone && x.rep.epoch == 0 && x.lan.bundles == 0 then s.writeReplay sh else s

/-- LANT_START: HALTED clears, and fetch begins at LANT_PC once the record and a due window are over. An ignored START sets RSVD_WR
(R249, R473, R521). -/
def State.lantStart (s : State) (sh : ShadeIx) : State :=
  if !s.startOk sh then s.rsvdWr .lant (s.leadP sh)
  else
    let s := (s.firstRecord sh).modSh sh fun x => { x with
      lan := { x.lan with halted := false, stopReq := false, yieldAt := s.tb.toNat }
      saf := { x.saf with phaseAt := s.tb.toNat }
      rep := { x.rep with preempted := false } }
    s.windowGo sh

/-! ## Stopping a shade (R413 to R415) -/

/-- PREEMPT: it takes effect at the next yield point; of a halted shade it has no effect. -/
def State.preempt (s : State) (sh : ShadeIx) : State :=
  if (s.sh sh).life ≠ 1 ∨ (s.sh sh).lan.halted then s
  else s.modSh sh fun x => { x with rep := { x.rep with preemptReq := true } }

/-- A rollback that the host asks for, or REPLAY_ERR.RECORD when no record is valid (R406). -/
def State.askRollback (s : State) (sh : ShadeIx) (trigger : Nat) : State :=
  if (s.sh sh).rep.record.isNone then (s.haltStop sh).replayErr sh 3 else s.startRolling sh ⟨trigger, 0⟩

/-- FORCE: the shade stops at once and rolls back; behind a rollback in progress it waits for its end (R414, R415). -/
def State.force (s : State) (sh : ShadeIx) : State :=
  if (s.sh sh).life ≠ 1 then s
  else
    let s := s.modSh sh fun x => { x with rep := { x.rep with forceReq := true } }
    if (s.sh sh).rep.rolling.isSome then s else s.askRollback sh 1

/-- ROLLBACK of a halted shade (R404); otherwise the write is ignored (R416, R521). -/
def State.rollback (s : State) (sh : ShadeIx) : State :=
  if !(s.sh sh).unitsRun ∨ !(s.sh sh).lan.halted then s.rsvdWr .replay sh.val
  else if (s.sh sh).rep.record.isNone then s.replayErr sh 3
  else s.startRolling sh ⟨2, 0⟩

/-! ## Restoring a record (R405 to R409) -/

/-- Undo the descriptor log, the newest entry first (R252). -/
def undoLog (d : FMap W64) (log : List DwrLog) : FMap W64 :=
  log.reverse.foldl (fun (d : FMap W64) e => e.words.foldl (fun (d : FMap W64) w => d.set descDefault w.1 w.2) d) d

/-- A maintained word with its recorded fields (R165): of word 0 RUNG and CLEAN, of word 4 its low half, words 2 and 3 whole. -/
def restoreWord (k : Nat) (now rec : Nat) : Nat :=
  match (k - layerWord 0 0) % 8 with
  | 0 => putBits (putBits now 2 0 rec) 39 32 (bitsOf rec 39 32)
  | 4 => putBits now 31 0 rec
  | _ => rec

/-- The layer table's maintained fields as recorded. -/
def restoreLayers (d : FMap W64) (rec : List (Nat × W64)) : FMap W64 :=
  let keys := (d.cells.map Prod.fst).filter maintainedWord ++ rec.map Prod.fst
  let old (k : Nat) : Nat := (cellsGet descDefault rec k).toNat
  keys.foldl (fun (d : FMap W64) k => d.set descDefault k (BitVec.ofNat 64 (restoreWord k (dget d k) (old k)))) d

/-- Glint sums return to tile 0, and the other tiles' accumulators to 0 (R405). -/
def State.restoreGlints (s : State) (sh : ShadeIx) (sums : List (Nat × W64)) : State :=
  let ps := s.prismsOf sh
  let clean : FMap W64 := ⟨s.glints.cells.filter fun c => !ps.contains (c.1 / 2048)⟩
  { s with glints := sums.foldl (fun (m : FMap W64) c => m.set (fun _ => 0) (c.1 / 256 * 2048 + c.1 % 256) c.2) clean }

/-- The frames a rollback reloads (R248): those the record holds that are now invalid or hold another source. -/
def framesToLoad (now rec : Lantern) : List (BitVec 6) :=
  ((List.range 64).map (BitVec.ofNat 6)).filter fun f =>
    rec.frames[f.toNat].valid && !(now.frames[f.toNat].valid && now.frames[f.toNat].src == rec.frames[f.toNat].src)

/-- The recorded Lantern, with the frames as they stand where they agree, and nothing in progress. BUNDLES is in no record. -/
def restoredLantern (now rec : Lantern) (tb : Nat) : Lantern :=
  { rec with
    frames := Vector.ofFn fun i => if rec.frames[i].valid then { rec.frames[i] with loading := false } else ⟨false, rec.frames[i].src, false⟩
    bundles := now.bundles, halted := false, stopReq := false, waitSince := none, yielding := none, rep := none, pendG := 0, yieldAt := tb }

/-- The recorded safeguards and Speckle state; the fresh seeds are taken again from the log (R203); Umbra entries are dropped without
counting (R165); the phase's time goes on and rollbacks are counted (R333, R334). -/
def restoredSaf (now rec : SafeSt) : SafeSt :=
  { rec with
    fresh := now.fresh.map fun f => { f with used := false }
    freshUsed := 0
    umbra := []
    phaseAt := now.phaseAt, phaseSpent := now.phaseSpent, spanFrom := now.spanFrom, rollbacks := now.rollbacks + 1 }

/-- Guard ranges on a rollback: WRITTEN becomes TAINTED (R409). -/
def State.taintGuards (s : State) (sh : ShadeIx) : State :=
  (List.range 8).foldl (fun s n => if s.bitR .replay sh.val (0x200 + 16 * n) 6 then s.orR .replay sh.val (0x200 + 16 * n) 32 else s) s

/-- Everything a record holds returns, and the logs are undone. -/
def State.restoreRecord (s : State) (sh : ShadeIx) (r : Record) : State :=
  let x := s.sh sh
  let s := s.phaseSettle sh
  let s := { s with
    regs := r.regs.foldl (fun (m : FMap W32) (c : Nat × W32) => m.set regDefault c.1 c.2) s.regs
    jorx := { s.jorx with outSeq := x.rep.streamLog.foldl (fun (m : FMap Nat) (e : Nat × Nat) => m.set (fun _ => 0) e.1 e.2) s.jorx.outSeq } }
  let s := s.restoreGlints sh r.glints
  let s := s.modSh sh fun x => { x with
    lan := restoredLantern x.lan r.lan s.tb.toNat
    desc := restoreLayers (undoLog x.desc x.dwrLog) r.layers
    cursors := r.cursors
    dwrLog := []
    saf := restoredSaf x.saf r.saf
    colls := { x.colls with next := r.collNext, issued := FMap.empty }
    genTab := FMap.empty
    rep := { x.rep with streamLog := [], window := [], dvfs := false } }
  ((s.maskRollback sh r.masks).taintGuards sh).goClear sh

/-- Reload frames in rising order (R248); a failing reload is an access fault. -/
def State.reloadFrames (s : State) (sh : ShadeIx) (fs : List (BitVec 6)) : Res :=
  resFold (fun (s : State) f =>
    let src := (s.sh sh).lan.frames[f.toNat].src
    match s.frameBytes sh src with
    | .error e => ⟨s.modLan sh fun l => l.setFrame f ⟨false, src, false⟩, some e⟩
    | .ok bs => .ok (s.frameFill sh f src bs)) s fs

/-- The ROLLBACK record, with T_rb left free (R405, R453). -/
def State.rollbackRecord (s : State) (sh : ShadeIx) (r : Rolling) (rec : Record) : State :=
  let x := s.sh sh
  let w3 := r.trigger + (if r.trigger = 0 then r.code else 0) % 256 * 4 + min 15 x.rep.rbCount * 2 ^ 10 + rec.lan.pc.toNat * 2 ^ 14
    + b2n x.rep.newest * 2 ^ 28
  (s.shadeRecord sh 0x06 [rec.epoch.toNat, w3, (Config.freeWord s.fresh).toNat]).tick

/-- The end of a rollback: fetch resumes after a fault; the Lantern halts after FORCE and for the host (R405, R414). -/
def State.rollbackEnd (s : State) (sh : ShadeIx) (r : Rolling) : State :=
  match r.trigger with
  | 1 => ((s.halt sh).modSh sh fun x => { x with rep := { x.rep with preempted := true } }).count .replay sh.val 9 1
  | 2 => s.halt sh
  | _ => if (s.sh sh).rep.forceReq then s.askRollback sh 1 else s

/-- ROLLBACK_RESTORE: the drain is over, the record is restored and the rollback completes (R405). -/
def State.rollbackRestore (s : State) (sh : ShadeIx) : State :=
  let x := s.sh sh
  match x.rep.rolling, x.rep.record with
  | some r, some rec =>
    let load := framesToLoad x.lan rec.lan
    let z := (s.restoreRecord sh rec).reloadFrames sh load
    let s := z.s.modSh sh fun x => { x with rep := { x.rep with
      rolling := none, replaying := true, rbCount := x.rep.rbCount + 1, forced := x.rep.forced + (if r.trigger = 1 then 1 else 0) } }
    let s := ((s.rollbackRecord sh r rec).count .replay sh.val 3 1).raise (shadeSrc sh 4)
    match z.err with
    | none => s.rollbackEnd sh r
    | some e =>
      let s := match e.xl with
        | some xl => s.recordXlate sh 2 xl
        | none => s
      (s.markFault sh e).stopFault sh e.code e.cls ⟨15, rec.lan.pc.toNat, e.prism, e.tile⟩
  | some _, none => (s.haltStop sh).replayErr sh 3
  | none, _ => s

/-! ## Ordered mode (R387 to R394) -/

/-- BACKGROUND_DEFER_EXPIRY (R390): a background access is granted ahead of all others and the shade holds
for the core cycles of that grant, whose number is free. -/
def State.deferExpiry (s : State) (sh : ShadeIx) : State :=
  if !s.ordered sh then s
  else ((s.count .replay sh.val 6 1).countSpan .replay sh.val 5 (1 + (Config.freeCount s.fresh sh.val 5).toNat)).tick

/-- PADDED_DELIVERY (R391, R393): an answer that is late begins an ordered hold; one that arrives, in time or in a hold, is delivered
and ends it. -/
def State.padded (s : State) (sh : ShadeIx) (late : Bool) : State :=
  if !s.ordered sh then s
  else if late then
    s.modSh sh fun x => { x with rep := { x.rep with hold := true } }
  else s.modSh sh fun x => { x with rep := { x.rep with hold := false } }

/-! ## The rows -/

/-- YIELD_POINT (R236). -/
def execYieldPoint (sh : ShadeIx) (s : State) : Host.Outcome State Fault Refusal := .next (s.yieldPoint sh)

/-- YIELD_LATE (R400). -/
def execYieldLate (sh : ShadeIx) (s : State) : Host.Outcome State Fault Refusal := .next (s.yieldLate sh)

/-- LANT_START (R249). -/
def execLantStart (sh : ShadeIx) (s : State) : Host.Outcome State Fault Refusal := .next (s.lantStart sh)

/-- PREEMPT (R413). -/
def execPreempt (sh : ShadeIx) (s : State) : Host.Outcome State Fault Refusal := .next (s.preempt sh)

/-- FORCE (R414). -/
def execForce (sh : ShadeIx) (s : State) : Host.Outcome State Fault Refusal := .next (s.force sh)

/-- ROLLBACK (R404). -/
def execRollback (sh : ShadeIx) (s : State) : Host.Outcome State Fault Refusal := .next (s.rollback sh)

/-- ROLLBACK_RESTORE (R405). -/
def execRollbackRestore (sh : ShadeIx) (s : State) : Host.Outcome State Fault Refusal := .next (s.rollbackRestore sh)

/-- BACKGROUND_DEFER_EXPIRY (R390). -/
def execBackgroundDeferExpiry (sh : ShadeIx) (s : State) : Host.Outcome State Fault Refusal := .next (s.deferExpiry sh)

/-- PADDED_DELIVERY (R391). -/
def execPaddedDelivery (sh : ShadeIx) (late : Bool) (s : State) : Host.Outcome State Fault Refusal := .next (s.padded sh late)

end Sys2Proof.Machine
end

