-- ==== Sys2Proof/Machine/Access.lean ====
section
/-! DEFINITION. The register space and its access paths (R514 to R519), which path may write what (R515 and the rule of each page), and
what answers before READY (R500), in reset (R506) and during a shade reset (R441). -/

namespace Sys2Proof.Machine

/-! ## Pages (R516, R518, R519) -/

/-- The page map of PF BAR0 (R516); none is an unpopulated page (R517). -/
def pageAt (n : Nat) : Option PageId :=
  if n ≤ 12 then some ⟨PageKind.ofIx n, 0⟩
  else if 0x10 ≤ n ∧ n < 0x14 then some ⟨.jorxRt, n - 0x10⟩
  else if 0x20 ≤ n ∧ n < 0x34 then some ⟨.jport, n - 0x20⟩
  else if 0x40 ≤ n ∧ n < 0x4A then some ⟨.memctl, n - 0x40⟩
  else if 0x60 ≤ n ∧ n < 0x73 then some ⟨.bcnTgt, n - 0x60⟩
  else if 0x100 ≤ n ∧ n < 0x200 then some ⟨.agq, n - 0x100⟩
  else if 0x200 ≤ n ∧ n < 0x300 ∧ n % 16 < 5 then some ⟨PageKind.ofIx (18 + n % 16), (n - 0x200) / 16⟩
  else if 0x1000 ≤ n ∧ n < 0x1000 + 0x40 * 52 then
    let p := (n - 0x1000) / 0x40
    let j := n % 0x40
    if j < 8 then some ⟨.tile, 8 * p + j⟩
    else if j < 16 then some ⟨.stencil, 8 * p + (j - 8)⟩
    else if j < 24 then some ⟨PageKind.ofIx (25 + (j - 16)), p⟩
    else none
  else none

/-- VF_PWIN.K of a VF (R519). -/
def State.pwin (s : State) (v : ShadeIx) : Nat := s.host.pwin.get (fun _ => 0) v.val

/-- The window prism of a VF (R519). -/
def State.windowPrism (s : State) (v : ShadeIx) : Option Nat := (s.logicalOf v)[s.pwin v]?.bind s.l2p

/-- Afterglow queues of a shade, rising (R518). -/
def State.queuesOf (s : State) (v : ShadeIx) : List Nat := (List.range 256).filter fun q => s.ownerQ q == v.val

/-- The pages of VF BAR0 (R518). -/
def State.vfPage (s : State) (v : ShadeIx) (n : Nat) : Option PageId :=
  if n = 0 then some ⟨.device, 0⟩
  else if n ≤ 5 then some ⟨PageKind.ofIx (17 + n), v.val⟩
  else if n = 6 then some ⟨.bcnTgt, 3 + v.val⟩
  else if 8 ≤ n ∧ n < 16 then
    if (s.logicalOf v).contains (s.leadL v) then (s.l2p (s.leadL v)).map fun p => ⟨PageKind.ofIx (25 + (n - 8)), p⟩ else none
  else if 0x10 ≤ n ∧ n < 0x20 then (s.queuesOf v)[n - 0x10]?.map fun q => ⟨.agq, q⟩
  else if 0x20 ≤ n ∧ n < 0x38 then (s.windowPrism v).bind fun p => pageAt (0x1000 + 0x40 * p + (n - 0x20))
  else none

/-- The pages of an I3C transfer (R506). -/
def i3cPage (n : Nat) : Option PageId :=
  match n with
  | 0 => some ⟨.boot, 0⟩
  | 1 => some ⟨.jorx, 0⟩
  | 2 => some ⟨.dimmer, 0⟩
  | 3 => some ⟨.health, 0⟩
  | 4 => some ⟨.maint, 0⟩
  | _ => none

/-- The page that number n names on a path. -/
def State.pathPage (s : State) (path : Path) (n : Nat) : Option PageId :=
  match path with
  | .firmware => pageAt n
  | .pf => pageAt n
  | .vf v => if n < 256 then s.vfPage v n else none
  | .i3c => i3cPage n

/-- A path reaches a page. -/
def State.reaches (s : State) (path : Path) (pg : PageId) : Bool :=
  match path with
  | .firmware => true
  | .pf => true
  | .vf v => (List.range 0x38).any fun n => s.vfPage v n == some pg
  | .i3c => (List.range 5).any fun n => i3cPage n == some pg

/-! ## Who answers -/

/-- BOOT_STATUS.STAGE (R499, R512). -/
def State.stage (s : State) : Nat := s.getF .boot 0 0x100 4 1
/-- BOOT_STATUS.READY. -/
def State.ready (s : State) : Bool := s.bitR .boot 0 0x100 0

/-- Clocks other than AON's run: the device is not in reset, THERMTRIP_N is not asserted and REFCLK runs (R488, R489, R484). -/
def State.clocked (s : State) : Bool := !s.power.inReset && !s.power.tripped && !s.power.noRef

/-- Warden runs: boot has reached CONFIG, or the ROM firmware serves RECOVERY (R499, R501). -/
def State.warden (s : State) : Bool := s.clocked && decide (3 ≤ s.stage) && decide (s.stage ≤ 7)

/-- A path carries accesses now: PCIe paths in L0, a VF that exists (R421, R505), firmware while Warden runs, I3C while THERMTRIP_N is
not asserted, in device reset on the BOOT page only (R506). -/
def State.pathUp (s : State) (path : Path) (k : PageKind) : Bool :=
  match path with
  | .firmware => s.warden
  | .pf => s.clocked && s.pcie.l0
  | .vf v => s.clocked && s.pcie.l0 && bitOf s.host.vfs v.val
  | .i3c => !s.power.tripped && !s.power.noRef && (!s.power.inReset || k == .boot)

/-- The pages that answer before READY (R500). -/
def PageKind.early : PageKind → Bool
  | .boot | .maint | .mailbox | .jorx | .dimmer | .health | .agqm => true
  | _ => false

/-- A page answers: always once READY is set; before, the early pages, and every page to firmware (R500). -/
def State.answers (s : State) (path : Path) (k : PageKind) : Bool := s.ready || k.early || path == .firmware

/-- The shade whose page a page is, SHCFG apart, for the rules of a shade reset (R441). -/
def State.pageShade (s : State) (pg : PageId) : Option ShadeIx :=
  if pg.kind.perPrism then s.shadeOfPrism (pg.kind.prismOf pg.inst)
  else if pg.kind.perShade ∧ pg.kind ≠ .shcfg then some (shadeOf pg.inst)
  else if pg.kind = .bcnTgt ∧ 3 ≤ pg.inst then some (shadeOf (pg.inst - 3))
  else if pg.kind = .agq ∧ s.ownerQ pg.inst < 16 then some (shadeOf (s.ownerQ pg.inst))
  else none

/-- The page belongs to a shade that is resetting or being killed: writes are ignored and reads return reset values (R441). -/
def State.pageResets (s : State) (pg : PageId) : Bool :=
  match s.pageShade pg with
  | some sh => decide (2 ≤ (s.sh sh).life)
  | none => false

/-! ## Write permission (R515 and the rules of the pages) -/

/-- Pages whose registers take writes through PF BAR0 only, or also through I3C where `i3cWrites` says so (R306, R385, R425, R444,
R461, R485, R486, R512, R529). -/
def PageKind.pfOnly : PageKind → Bool
  | .boot | .mailbox | .health | .dimmer | .mem | .scrub | .agqm | .jorx | .jorxRt | .jport | .shcfg => true
  | _ => false

/-- Registers of other pages that only PF BAR0 writes: the windows (R277) and AGQ_CFG (R461). -/
def pfOnlyReg (k : PageKind) (off : Nat) : Bool :=
  (k == .scratch && decide (0x100 ≤ off) && decide (off < 0x10C)) || (k == .agq && off == 0x100)

/-- TILE_SLIT_CTRL: writes through PF or VF BAR0 have no effect (R82). -/
def slitReg (k : PageKind) (off : Nat) : Bool := k == .tile && off == 0x108

/-- Writes that take effect over I3C (R506). -/
def i3cWrites (k : PageKind) (off : Nat) : Bool :=
  (k == .jorx && off == 0x104) || (k == .boot && off == 0x104) || (k == .maint && off == 0x100)

/-- A path may write the register at an offset of a page. -/
def mayWrite (path : Path) (k : PageKind) (off : Nat) : Bool :=
  match path with
  | .pf => !slitReg k off
  | .firmware => off != 0x00C && (decide (off < 0x100) || (!k.pfOnly && !pfOnlyReg k off))
  | .vf _ =>
    off != 0x00C && off != 0x020 &&
    (if k = .device then decide (off < 0x040) || off == 0x120
     else decide (off < 0x100) || (!k.pfOnly && !pfOnlyReg k off && !slitReg k off))
  | .i3c => i3cWrites k off

/-- A register write on a path. One that does not reach the page does nothing; one that is served counts in REG_WRITES (R532); one
that may not be taken leaves the register as it is and sets RSVD_WR (R515, R521, R441, R500). -/
def State.write (s : State) (path : Path) (k : PageKind) (inst off : Nat) (f : State → State) : State :=
  if !s.pathUp path k || !s.reaches path ⟨k, inst⟩ then s
  else
    let s := s.count .device 0 2 1
    if !s.answers path k || s.pageResets ⟨k, inst⟩ || !mayWrite path k off then s.rsvdWr k inst else f s

/-- A register read on a path, counted in REG_READS (R532). -/
def State.serveRead (s : State) (path : Path) (k : PageKind) (inst : Nat) (f : State → State) : State :=
  if !s.pathUp path k || !s.reaches path ⟨k, inst⟩ then s else f (s.count .device 0 1 1)

end Sys2Proof.Machine
end

