-- ==== Sys2Proof/Machine/LinkRows.lean ====
section
/-! DEFINITION. The commands of the Jorx links (chapter 13): ports, control flits, messages, collectives, enumeration, the management
tree and SYNC_N. -/

namespace Sys2Proof.Machine

/-- A message of a given body on a port. -/
def State.arrives (s : State) (port : PortIx) (head : Head) (b : Body) (f : Msg → State → State) : State :=
  s.receive port ⟨head, b⟩ (f ⟨head, b⟩)

/-! ## Ports and control flits -/

/-- HEARTBEAT (R380): an UP port sends one every 10 µs, unless the device is fatal (R466). -/
def execHeartbeat (port : PortIx) (s : State) : Host.Outcome State Fault Refusal :=
  .next (if s.bitR .health 0 0x204 0 then s else s.heartbeat port)

/-- HEARTBEAT_RECEIVE (R379, R380): the one-way times are in 1/64 ns. -/
def execHeartbeatReceive (port : PortIx) (down up : BitVec 32) (s : State) : Host.Outcome State Fault Refusal :=
  .next (s.heartbeatIn port down.toNat up.toNat)

/-- HEARTBEAT_MISS (R380). -/
def execHeartbeatMiss (port : PortIx) (s : State) : Host.Outcome State Fault Refusal := .next (s.heartbeatMiss port)

/-- PORT_TRAINING (R355). -/
def execPortTraining (port : PortIx) (ok : Bool) (s : State) : Host.Outcome State Fault Refusal := .next (s.portTraining port ok)

/-- PORT_RETRY_TIMER (R355). -/
def execPortRetryTimer (port : PortIx) (s : State) : Host.Outcome State Fault Refusal := .next (s.portRetry port)

/-- PORT_LOCK_LOSS (R355). -/
def execPortLockLoss (port : PortIx) (s : State) : Host.Outcome State Fault Refusal := .next (s.portLockLoss port)

/-- HELLO (R355, R362). -/
def execHello (port : PortIx) (h : HelloFlit) (s : State) : Host.Outcome State Fault Refusal := .next (s.helloArrives port h)

/-- NAK (R357). -/
def execNak (port : PortIx) (lseq : BitVec 12) (s : State) : Host.Outcome State Fault Refusal := .next (s.nakArrives port lseq.toNat)

/-- FLIT_CRC_FAILURE (R357). -/
def execFlitCrcFailure (port : PortIx) (why : FlitBad) (s : State) : Host.Outcome State Fault Refusal := .next (s.flitBad port why)

/-! ## Messages -/

/-- MESSAGE_ROUTE (R365, R366): a message for another device is relayed. -/
def execMessageRoute (port : PortIx) (m : Msg) (s : State) : Host.Outcome State Fault Refusal :=
  .next (s.receive port m fun s => s)

/-- BAD_MSG (R359): a message of reserved type is dropped. -/
def execBadMsg (port : PortIx) (head : Head) (typ : BitVec 8) (s : State) : Host.Outcome State Fault Refusal :=
  .next (s.arrives port head (.reserved typ) fun _ s => s.portCount port 0xA 1)

/-- PUT_MSG (R369, R370). -/
def execPutMsg (port : PortIx) (head : Head) (t : MsgTD) (items : List Item) (s : State) : Host.Outcome State Fault Refusal :=
  .next (s.arrives port head (.put t items) fun m s => s.putArrives port m)

/-- ACK_MSG (R370). -/
def execAckMsg (port : PortIx) (head : Head) (seq : W32) (s : State) : Host.Outcome State Fault Refusal :=
  .next (s.arrives port head (.ack seq) fun m s => s.ackArrives m)

/-- NACK_MSG (R370). -/
def execNackMsg (port : PortIx) (head : Head) (get : Bool) (arg : W64) (s : State) : Host.Outcome State Fault Refusal :=
  .next (s.arrives port head (.nack get arg) fun m s => s.nackArrives m)

/-- GET_REQ_MSG (R370). -/
def execGetReqMsg (port : PortIx) (head : Head) (t : MsgTD) (first count tag : Nat) (s : State) : Host.Outcome State Fault Refusal :=
  .next (s.arrives port head (.getReq t first count tag) fun m s => s.getReqArrives port m)

/-- GET_DATA_MSG (R370). -/
def execGetDataMsg (port : PortIx) (head : Head) (tag : Nat) (items : List Item) (s : State) : Host.Outcome State Fault Refusal :=
  .next (s.arrives port head (.getData tag items) fun m s => s.getDataArrives port m)

/-- ARRIVE_MSG (R374). -/
def execArriveMsg (port : PortIx) (head : Head) (c : CollId) (lowest : DevId) (words : List W64) (dead : Bool) (s : State) :
    Host.Outcome State Fault Refusal :=
  .next (s.arrives port head (.arrive c lowest words dead) fun m s => s.arriveArrives port m)

/-- RELEASE_MSG (R374). -/
def execReleaseMsg (port : PortIx) (head : Head) (c : CollId) (time : W64) (words : List W64) (dead : Bool) (s : State) :
    Host.Outcome State Fault Refusal :=
  .next (s.arrives port head (.release c time words dead) fun m s => s.releaseArrives port m)

/-- RELEASE_TIME (R374, R376): a collective's release, or the management tree's, takes effect at its time. -/
def execReleaseTime (t : RelTarget) (s : State) : Host.Outcome State Fault Refusal :=
  match t with
  | .group sh g => .next (s.releaseTimeGroup sh g)
  | .mgmt => .next s.mgmtApply

/-- BCAST_DATA_MSG (R375). -/
def execBcastDataMsg (port : PortIx) (head : Head) (c : CollId) (t : MsgTD) (items : List Item) (s : State) :
    Host.Outcome State Fault Refusal :=
  .next (s.arrives port head (.bcastData c t items) fun m s => s.bcastArrives port m)

/-- DEAD_MSG (R380). -/
def execDeadMsg (port : PortIx) (head : Head) (x : DevId) (epoch : BitVec 16) (s : State) : Host.Outcome State Fault Refusal :=
  .next (s.arrives port head (.dead x epoch) fun _ s => s.deadArrives port x.toNat epoch)

/-- ALIVE_MSG (R381). -/
def execAliveMsg (port : PortIx) (head : Head) (x : DevId) (epoch : BitVec 16) (s : State) : Host.Outcome State Fault Refusal :=
  .next (s.arrives port head (.alive x epoch) fun _ s => s.aliveArrives port x.toNat epoch)

/-- JOIN_MSG (R381). -/
def execJoinMsg (port : PortIx) (head : Head) (epoch : BitVec 16) (s : State) : Host.Outcome State Fault Refusal :=
  .next (s.arrives port head (.join epoch) fun m s => s.joinArrives m.head.src.toNat epoch)

/-- PROBE_MSG (R380). -/
def execProbeMsg (port : PortIx) (head : Head) (reply : Bool) (s : State) : Host.Outcome State Fault Refusal :=
  .next (s.arrives port head (.probe reply) fun m s => s.probeArrives m.head.src.toNat reply)

/-- MARRIVE_MSG (R374, R367). -/
def execMarriveMsg (port : PortIx) (head : Head) (k : MgmtKind) (armed : Bool) (s : State) : Host.Outcome State Fault Refusal :=
  .next (s.arrives port head (.marrive k armed) fun _ s => s.marriveArrives port k armed)

/-- MRELEASE_MSG (R367, R374, R383, R384). -/
def execMreleaseMsg (port : PortIx) (head : Head) (k : MgmtKind) (time : W64) (ok : Bool) (s : State) : Host.Outcome State Fault Refusal :=
  .next (s.arrives port head (.mrelease k time ok) fun _ s => s.mreleaseArrives port k time.toNat ok)

/-- ACK_TIMEOUT (R371). -/
def execAckTimeout (sh : ShadeIx) (s : State) : Host.Outcome State Fault Refusal := .next (s.ackTimeout sh)

/-! ## SYNC_N and enumeration -/

/-- SYNC_N_HIGH (R378). -/
def execSyncNHigh (s : State) : Host.Outcome State Fault Refusal := .next s.syncHigh

/-- SYNC_N_RELEASE (R378). -/
def execSyncNRelease (s : State) : Host.Outcome State Fault Refusal := .next s.syncRelease

/-- ENUM_FRAME (R364): sampling begins with boot. -/
def execEnumFrame (frame : BitVec 5) (s : State) : Host.Outcome State Fault Refusal :=
  .next (if s.clocked then s.enumFrame frame.toNat else s)

/-- ENUM_SEND (R364). -/
def execEnumSend (s : State) : Host.Outcome State Fault Refusal := .next (if s.clocked then s.enumSend else s)

/-- ENUM_HEAD (R364). -/
def execEnumHead (s : State) : Host.Outcome State Fault Refusal := .next (if s.clocked then s.enumHead else s)

/-- ENUM_TIMEOUT (R364). -/
def execEnumTimeout (s : State) : Host.Outcome State Fault Refusal := .next (if s.clocked then s.enumTimeout else s)

/-! ## JORX_CTRL (R367, R381, R383, R384, R385) -/

/-- JOIN: a write of JORX_CTRL.JOIN (R381). -/
def execJoin (path : Path) (s : State) : Host.Outcome State Fault Refusal :=
  .next (s.write path .jorx 0 0x110 fun s => s.joinStart)

/-- SWAP: a write of JORX_CTRL.SWAP (R367). -/
def execSwap (path : Path) (s : State) : Host.Outcome State Fault Refusal :=
  .next (s.write path .jorx 0 0x110 fun s => s.mgmtStart .swap)

/-- SNAP: a write of JORX_CTRL.SNAP (R383). -/
def execSnap (path : Path) (s : State) : Host.Outcome State Fault Refusal :=
  .next (s.write path .jorx 0 0x110 fun s => s.mgmtStart .snap)

/-- SNAPSHOT_FREEZE_TIME (R383). -/
def execSnapshotFreezeTime (s : State) : Host.Outcome State Fault Refusal := .next s.snapFreeze

/-- ARESET: a write of JORX_CTRL.ARESET (R384). -/
def execAreset (path : Path) (s : State) : Host.Outcome State Fault Refusal :=
  .next (s.write path .jorx 0 0x110 fun s => s.aresetStart)

/-- NOISE_SAMPLE (R210 to R212): the oscillators run while the device is not in reset. -/
def execNoiseSample (bits : BitVec 4) (s : State) : Host.Outcome State Fault Refusal :=
  .next (if s.clocked then s.noiseSample bits else s)

end Sys2Proof.Machine
end

