-- ==== Sys2Proof/Machine/Shades.lean ====
section
/-! DEFINITION. Shades (chapter 15): ownership and enabling (R418 to R421), memory units and the scrubber (R422, R423), reset and kill
(R440 to R443), and the writes of Beacon (R432 to R437). -/

namespace Sys2Proof.Machine

/-! ## What a reset of a scope clears (R440) -/

/-- Registers that satisfy a test return to their reset values. -/
def State.resetRegs (s : State) (f : PageKind → Nat → Nat → Bool) : State :=
  { s with regs := s.regs.keep fun k => !f (PageKind.ofIx (k / 4096 / 1024)) (k / 4096 % 1024) (k % 4096) }

/-- What is left over of counters in units of 256, and the shade holds, of pages that satisfy a test are cleared. -/
def State.resetCounts (s : State) (f : PageKind → Nat → Bool) : State :=
  { s with
    units := s.units.keep fun k => !f (PageKind.ofIx (k / 256 / 1024)) (k / 256 % 1024)
    agq := { s.agq with shadeHold := s.agq.shadeHold.keep fun k => !f (PageKind.ofIx (k / 1024)) (k % 1024) } }

/-- The windows of a prism, which a shade reset and a prism maintenance reset keep (R440). -/
def windowReg (k : PageKind) (off : Nat) : Bool := k == .scratch && decide (0x100 ≤ off) && decide (off < 0x10C)

/-- Offsets of the counter selects and values of a page (R520). -/
def counterReg (off : Nat) : Bool := (decide (0x40 ≤ off) && decide (off < 0x60)) || (decide (0x80 ≤ off) && decide (off < 0xC0))

/-- The storage of a physical prism is scrubbed and its units return to reset: tile scratch, pool with the descriptor file and the record
area, bundle store, tiles and glints. -/
def State.scrubPrism (s : State) (p : Nat) : State :=
  let s := ((s.zeroRange (tsKey p 0 0) (tsKey (p + 1) 0 0)).zeroRange (poolKey p 0) (poolKey (p + 1) 0)).zeroRange (storeKey p 0) (storeKey (p + 1) 0)
  { s with tiles := s.tiles.clearRange (tileKey p 0) (tileKey (p + 1) 0)
           glints := s.glints.clearRange (256 * tileKey p 0) (256 * tileKey (p + 1) 0) }

/-- The pages of some physical prisms return to their reset values, but for their windows. -/
def State.resetPrismPages (s : State) (f : Nat → Bool) : State :=
  (s.resetRegs fun k i off => k.perPrism && decide (i < 512) && f (k.prismOf i) && !windowReg k off).resetCounts
    fun k i => k.perPrism && f (k.prismOf i)

/-- Prism maintenance reset (R439, R440). -/
def State.prismReset (s : State) (p : Nat) : State := (s.scrubPrism p).resetPrismPages fun q => q == p

/-! ## Owners of memory units (R306, R422) -/

/-- The register and lowest bit of a unit's owner field on the MEM page. -/
def ownerPlace (deep : Bool) (u : Nat) : Nat × Nat := ((if deep then 0x600 else 0x400) + 4 * (u / 4), 8 * (u % 4))

/-- The owner of a unit. -/
def State.unitOwner (s : State) (deep : Bool) (u : Nat) : Nat := if deep then s.deepOwner u else s.hbmOwner u

def State.setUnitOwner (s : State) (deep : Bool) (u v : Nat) : State :=
  let x := ownerPlace deep u
  s.setF .mem 0 x.1 (x.2 + 7) x.2 v

/-- Units of a tier that have an owner field: 288 of HBM, 960 of the deep tier, whatever MEM_DEEP_CAP says (R306, R422). -/
def unitCount (deep : Bool) : Nat := if deep then 960 else 288

/-- The DIRTY bit of a unit (R444): its register and its bit. -/
def dirtyPlace (deep : Bool) (u : Nat) : Nat × Nat := ((if deep then 0x180 else 0x140) + 4 * (u / 32), u % 32)

def State.dirty (s : State) (deep : Bool) (u : Nat) : Bool := s.bitR .scrub 0 (dirtyPlace deep u).1 (dirtyPlace deep u).2
def State.setDirty (s : State) (deep : Bool) (u : Nat) (v : Bool) : State :=
  let x := dirtyPlace deep u
  s.setF .scrub 0 x.1 x.2 x.2 (b2n v)

/-- The RETAIN bit of a deep unit. -/
def State.retained (s : State) (u : Nat) : Bool := s.bitR .scrub 0 (0x200 + 4 * (u / 32)) (u % 32)
def State.clearRetained (s : State) (u : Nat) : State := s.clrR .scrub 0 (0x200 + 4 * (u / 32)) (2 ^ (u % 32))

/-- DIRTY units of a tier, ascending. -/
def State.dirtyUnits (s : State) (deep : Bool) : List Nat := (List.range (unitCount deep)).filter fun u => s.dirty deep u

/-- Units of a tier that an owner holds (SH_USED, R425). -/
def State.unitsOf (s : State) (deep : Bool) (o : Nat) : List Nat := (List.range (unitCount deep)).filter fun u => s.unitOwner deep u == o

/-- SH_QUOTA of a shade. -/
def State.quota (s : State) (sh : ShadeIx) (deep : Bool) : Nat := if deep then s.getF .shcfg sh.val 0x110 25 16 else s.getF .shcfg sh.val 0x110 8 0

/-- A unit becomes UNASSIGNED and DIRTY, one RELEASES event. -/
def State.releaseUnit (s : State) (deep : Bool) (u : Nat) : State :=
  ((s.setUnitOwner deep u 0xFF).setDirty deep u true).count .scrub 0 4 1

/-- The Lantern of a shade is halted and idle: every queue is empty and every token count is 0 (LANT_STATUS, R249). -/
def ShadeSt.idle (x : ShadeSt) : Bool := x.queue.isEmpty && x.lan.tok.toList.all fun t => t == 0
def ShadeSt.haltedIdle (x : ShadeSt) : Bool := x.lan.halted && x.idle

/-- A shade is OFF, or halted and idle; in a reset or a kill it is neither (R443). -/
def State.quiet (s : State) (sh : ShadeIx) : Bool := (s.sh sh).life == 0 || ((s.sh sh).life == 1 && (s.sh sh).haltedIdle)

/-- One owner field of MEM_HBM_OWNER or MEM_DEEP_OWNER is written (R422). The present owner is no write; what the table does not list is
ignored and sets RSVD_WR. -/
def State.unitWrite (s : State) (deep : Bool) (u v : Nat) : State :=
  let o := s.unitOwner deep u
  if v = o then s
  else if unitCount deep ≤ u then s.rsvdWr .mem 0
  else if o = 0xFF then
    if s.dirty deep u then s.rsvdWr .mem 0
    else if h : v < 16 then
      if (s.unitsOf deep v).length < s.quota ⟨v, h⟩ deep then (if deep then s.clearRetained u else s).setUnitOwner deep u v else s.rsvdWr .mem 0
    else if v = 0xFE then (if deep then s.clearRetained u else s).setUnitOwner deep u v
    else s.rsvdWr .mem 0
  else if v ≠ 0xFF then s.rsvdWr .mem 0
  else if h : o < 16 then (if s.quiet ⟨o, h⟩ then s.releaseUnit deep u else s.rsvdWr .mem 0)
  else s.releaseUnit deep u

/-- The four owner fields of one register, each on its own (R422). -/
def State.ownerWord (s : State) (deep : Bool) (n v : Nat) : State :=
  if (if deep then 240 else 72) ≤ n then s.rsvdWr .mem 0
  else (List.range 4).foldl (fun s k => s.unitWrite deep (4 * n + k) (bitsOf v (8 * k + 7) (8 * k))) s

/-- A write of SCRUB_DEEP_RETAIN: unassigned retained units become DIRTY (R422, R444). -/
def State.retainClear (s : State) (n v : Nat) : State :=
  if 30 ≤ n then s.rsvdWr .scrub 0
  else (List.range 32).foldl (fun s j =>
    let u := 32 * n + j
    if bitOf v j && s.retained u then
      ((s.clearRetained u).setDirty true u true).count .scrub 0 4 1
    else s) s

/-! ## The scrubber (R423) -/

/-- The address of a unit of a tier. -/
def unitBase (deep : Bool) (u : Nat) : Nat := (if deep then deepBase else 0) + u * 2 ^ 30

/-- A bulk Beam runs an operation: a scrub, or a copy of its shade. -/
def State.bulkBusy (s : State) (b : Nat) : Bool :=
  (s.scrubs.any fun x => x.1 == b) ||
  (List.finRange 16).any fun sh => (s.sh sh).running.any fun r => !r.done && (match r.q.op with
    | .beam (.copy k _ _ _ _) => k.toNat == 8 + b
    | .beam (.scrub k _ _ _) => k.toNat == 8 + b
    | _ => false)

/-- UNIT_SCRUB_START: an idle DEVICE Beam takes the lowest DIRTY HBM unit, or else the lowest DIRTY deep unit, that no Beam has. -/
def State.scrubStart (s : State) (b : Nat) : State :=
  if s.bulkOwner b ≠ 0xFE ∨ s.bulkBusy b then s
  else
    let free (deep : Bool) : Option Nat := (s.dirtyUnits deep).find? fun u => !(s.scrubs.any fun x => x.2 == (deep, u))
    match free false, free true with
    | some u, _ => { s with scrubs := s.scrubs ++ [(b, false, u)] }
    | none, some u => { s with scrubs := s.scrubs ++ [(b, true, u)] }
    | none, none => s

/-- UNIT_SCRUB_COMPLETE: the unit is zero and CLEAN; with the last DIRTY unit the SCRUB source is raised. -/
def State.scrubDone (s : State) (b : Nat) : State :=
  match s.scrubs.find? fun x => x.1 == b with
  | none => s
  | some (_, deep, u) =>
    let s := { s with scrubs := s.scrubs.filter fun x => x.1 != b }
    let s := ((s.zeroRange (unitBase deep u) (unitBase deep (u + 1))).setDirty deep u false).count .scrub 0 (if deep then 2 else 1) 1
    if (s.dirtyUnits false).isEmpty && (s.dirtyUnits true).isEmpty then s.raise 0x006 else s

/-! ## Beacon (R432 to R437) -/

/-- BCN_ACTIVATE at a target. -/
def State.bcnActivate (s : State) (t n : Nat) : State :=
  if s.bcn.pend.contains n && s.bcnTarget n == t then
    let d0 := s.bcnD t
    let act := (s.bcn.act.filter fun a => decide (a.1 < n)) ++ (n, s.bcnPrio n) :: s.bcn.act.filter fun a => decide (n < a.1)
    ({ s with bcn := { s.bcn with pend := s.bcn.pend.filter fun m => m != n, act := act } }.bcnAfter t d0).count .bcnTgt t 2 1
  else s.count .bcnTgt t 5 1

/-- BCN_COMPLETE at a target. -/
def State.bcnComplete (s : State) (t n : Nat) : State :=
  if (s.bcn.act.any fun a => a.1 == n) && s.bcnTarget n == t then
    let d0 := s.bcnD t
    ({ s with bcn := { s.bcn with act := s.bcn.act.filter fun a => a.1 != n } }.bcnAfter t d0).count .bcnTgt t 3 1
  else (s.satAdd .bcnTgt t 0x118 15 0 1).count .bcnTgt t 4 1

/-- A write of a source's PRIO and TARGET (R432, R436); `alias` is the register seen through its target's page, where TARGET writes are
ignored (R437). -/
def State.bcnSrcSet (s : State) (k : PageKind) (inst n v : Nat) (alias_ : Bool) : State :=
  if !bcnValid n then s.rsvdWr k inst
  else
    let t0 := s.bcnTarget n
    let t := bitsOf v 8 4
    let active := s.bcn.act.any fun a => a.1 == n
    let refused := t != t0 && (decide (19 ≤ t) || active || alias_)
    let t1 := if refused then t0 else t
    let a := s.bcnD t0
    let b := s.bcnD t1
    let prio := bitsOf v 3 0
    let s := s.setR .beacon 0 (0x100 + 4 * n) (prio + t1 * 16)
    let s := if prio = 0 then { s with bcn := { s.bcn with pend := s.bcn.pend.filter fun m => m != n } } else s
    let s := s.bcnAfter t0 a
    let s := if t1 = t0 then s else s.bcnAfter t1 b
    if refused || decide (2 ^ 15 ≤ v) then s.rsvdWr k inst else s

/-- A write of BCN_THRESH (R434). -/
def State.bcnThresh (s : State) (t v : Nat) : State :=
  let d0 := s.bcnD t
  let s := (s.setR .bcnTgt t 0x100 (v % 16)).bcnAfter t d0
  if 16 ≤ v then s.rsvdWr .bcnTgt t else s

/-- A write of BCN_IDLE: a rise that moderation holds is sent when the target becomes idle (R435). Read-only on Warden targets. -/
def State.bcnIdle (s : State) (t v : Nat) : State :=
  let s := if 2 ≤ v then s.rsvdWr .bcnTgt t else s
  if t < 2 then s
  else
    let s := s.setR .bcnTgt t 0x114 (v % 2)
    if v % 2 = 1 ∧ (s.bcn.held.get (fun _ => none) t).isSome then (s.bcnSend t).count .bcnTgt t 7 1 else s

/-- MODERATION_TIMER: TIMER × 100 ns have passed since the rise (R435). -/
def State.moderationTimer (s : State) (t : Nat) : State :=
  match s.bcn.held.get (fun _ => none) t with
  | none => s
  | some m => if m.since + s.getF .bcnTgt t 0x110 15 0 * 100 ≤ s.tb.toNat then s.bcnSend t else s

/-- A shade reset at Beacon (R436): the shade's sources, and whatever stands at target VF s, are neither pending nor active; that target's
page returns to its reset values. -/
def State.bcnReset (s : State) (sh : ShadeIx) : State :=
  let t0 := 3 + sh.val
  let gone (n : Nat) : Bool := (decide (0x020 + 16 * sh.val ≤ n) && decide (n < 0x030 + 16 * sh.val)) || s.bcnTarget n == t0
  let others := (List.range 19).filter fun t => t != t0
  let ds := others.map fun t => (t, s.bcnD t)
  let s := { s with bcn :=
    { s.bcn with
      pend := s.bcn.pend.filter fun n => !gone n
      act := s.bcn.act.filter fun a => !gone a.1
      held := s.bcn.held.set (fun _ => none) t0 none } }
  let s := (s.resetRegs fun k i _ => k == .bcnTgt && i == t0).resetCounts fun k i => k == .bcnTgt && i == t0
  ds.foldl (fun s d => s.bcnAfter d.1 d.2) s

/-! ## Shade reset and kill (R441 to R443) -/

/-- The device, as a holder of the maintenance token sees it: SPARE_SUB holds a prism of the shade (R443, R477). -/
def State.subHolds (s : State) (sh : ShadeIx) : Bool :=
  s.bitR .maint 0 0x104 0 && s.getF .maint 0 0x104 4 1 == 2 &&
  (match s.maint.subject with
   | some p => s.ownerP p == sh.val
   | none => false)

/-- Events 1 to 3 of a reset, or of a kill: STATE changes, Beacon acts, the Lantern halts and every unit stops. -/
def State.resetBegin (s : State) (sh : ShadeIx) (life : Nat) : State :=
  let s := ((s.modSh sh fun x => { x with life := life }).bcnReset sh).haltStop sh
  { s with noise := { s.noise with waiting := s.noise.waiting.filter fun w => w != sh } }

/-- A shade reset is requested; it merges with one that runs (R443). -/
def State.shadeReset (s : State) (sh : ShadeIx) : State := if 2 ≤ (s.sh sh).life then s else s.resetBegin sh 2

/-- A shade kill is requested (R442, R443): of a shade that is OFF it does nothing. -/
def State.shadeKill (s : State) (sh : ShadeIx) : State :=
  match (s.sh sh).life with
  | 0 => s
  | 1 => (s.setF .shcfg sh.val 0x100 2 2 1).resetBegin sh 3
  | _ => (s.setF .shcfg sh.val 0x100 2 2 1).modSh sh fun x => { x with life := 3 }

/-- Afterglow queues of the shade are emptied, PSEQ restarts and AGQ_LOST clears (R456). -/
def State.emptyQueues (s : State) (sh : ShadeIx) : State :=
  (s.queuesOf sh).foldl (fun s q => (s.setAgQ q ⟨[], 0⟩).setR .agq q 0x110 0) s

/-- Events 4 and 5: the shade's prisms are scrubbed and its state is reset. -/
def State.resetState (s : State) (sh : ShadeIx) : State :=
  let s := s.snapCancel sh
  let ps := s.prismsOf sh
  let s := ps.foldl (fun s p => s.scrubPrism p) s
  let s := s.resetPrismPages fun p => s.ownerP p == sh.val
  let mine (k : PageKind) (i : Nat) : Bool := (k.perPrism && i == shInst sh) || (k.perShade && i == sh.val)
  let s := (s.resetRegs fun k i off => mine k i && (k != .shcfg || counterReg off)).resetCounts mine
  let s := { s with host := { s.host with pwin := s.host.pwin.set (fun _ => 0) sh.val 0 } }
  (s.modSh sh fun x => { ShadeSt.reset with life := x.life }).emptyQueues sh

/-- Event 6: the reset is complete. An OFF shade stays OFF. -/
def State.resetEnd (s : State) (sh : ShadeIx) : State :=
  let s := s.modSh sh fun x => { x with life := if s.enabled sh then 1 else 0 }
  let s := (s.clrR .shcfg sh.val 0x100 2).setF .shcfg sh.val 0x104 31 16 (s.getF .shcfg sh.val 0x104 31 16 + 1)
  (s.count .shcfg sh.val 7 1).raise 0x007

/-- Steps 2 to 5 of a kill (R442). -/
def State.killEnd (s : State) (sh : ShadeIx) : State :=
  let s := (s.clrR .shcfg sh.val 0x100 7).clrR .shcfg sh.val 0x118 0x4000
  let s := ((List.range 52).filter fun p => s.ownerP p == sh.val).foldl (fun s p => s.setOwnerP p 0xFF) s
  let s := (s.unitsOf false sh.val).foldl (fun s u => s.releaseUnit false u) s
  let s := (s.unitsOf true sh.val).foldl (fun s u => s.releaseUnit true u) s
  let s := (List.range 8).foldl (fun s b =>
    if s.bulkOwner b = sh.val then s.setF .bulk 0 (0x100 + 4 * (b / 4)) (8 * (b % 4) + 7) (8 * (b % 4)) 0xFF else s) s
  let s := (s.queuesOf sh).foldl (fun s q => s.setOwnerQ q 0xFF) s
  (s.modSh sh fun x => { x with life := 0 }).raise 0x007

/-- SHADE_RESET_SCRUB: events 4 to 6, or the rest of a kill; it waits for a spare substitution of the shade (R443). -/
def State.resetScrub (s : State) (sh : ShadeIx) : State :=
  if (s.sh sh).life < 2 ∨ s.subHolds sh then s
  else
    let s := s.resetState sh
    if (s.sh sh).life = 3 then s.killEnd sh else s.resetEnd sh

/-! ## Enabling (R420, R421) -/

/-- The conditions of a taken enable. -/
def State.mayEnable (s : State) (sh : ShadeIx) : Bool :=
  (s.sh sh).life == 0 && (s.logicalOf sh).contains (s.leadL sh) && (s.bitR .shcfg sh.val 0x100 3 || bitOf s.host.vfs sh.val)

/-- A write of SH_CTRL.EN = 1: an enabled shade's EN repeats. -/
def State.shadeEnable (s : State) (sh : ShadeIx) : State :=
  if s.enabled sh then s
  else if s.mayEnable sh then (s.setF .shcfg sh.val 0x100 0 0 1).shadeReset sh
  else (s.setErr .shcfg sh.val sh.val 0x124 1).rsvdWr .shcfg sh.val

/-- A write of SH_CTRL.RESET. -/
def State.shadeResetWrite (s : State) (sh : ShadeIx) : State := (s.setF .shcfg sh.val 0x100 1 1 1).shadeReset sh

/-- A function's MSI-X table returns to its state after reset. -/
def State.msixReset (s : State) (f : Nat) : State :=
  { s with host := { s.host with msixMask := s.host.msixMask.clearRange (64 * f) (64 * f + 64), msixPba := s.host.msixPba.clearRange (64 * f) (64 * f + 64) } }

/-- A VF function-level reset is a shade reset (R421, R440, R519). -/
def State.vfFlr (s : State) (sh : ShadeIx) : State :=
  if !s.pathUp (.vf sh) .device then s
  else
    let s := s.msixReset (1 + sh.val)
    { s with host := { s.host with pwin := s.host.pwin.set (fun _ => 0) sh.val 0 } }.shadeReset sh

/-- A VF ceases to exist while its shade is enabled with FUNC = 0 (R421). -/
def State.vfGoneOne (s : State) (sh : ShadeIx) : State :=
  if s.enabled sh && !s.bitR .shcfg sh.val 0x100 3 then (s.shadeKill sh).setErr .shcfg sh.val sh.val 0x124 8 else s

/-- The number of VFs changes: the VFs are those below it (R421). -/
def State.setVfs (s : State) (n : Nat) : State :=
  let old := s.host.vfs
  let s := { s with host := { s.host with vfs := 2 ^ n - 1 } }
  (List.finRange 16).foldl (fun s sh =>
    if bitOf old sh.val && !bitOf s.host.vfs sh.val then (s.msixReset (1 + sh.val)).vfGoneOne sh else s) s

/-! ## BLK_OWNER (R419, R456, R473, R523) -/

/-- A write of a prism's owner. -/
def State.prismOwnerWrite (s : State) (k : PageKind) (inst v : Nat) : State :=
  let p := k.prismOf inst
  let o := s.ownerP p
  if h : v < 16 then
    if s.getF .health 0 (hlPrism p) 7 2 < 48 ∧ s.l2p (s.getF .health 0 (hlPrism p) 7 2) = some p ∧ o = 0xFF ∧ !s.enabled ⟨v, h⟩
    then s.setOwnerP p v else s.rsvdWr k inst
  else if v = 0xFF then
    if h : o < 16 then (if s.enabled ⟨o, h⟩ then s.rsvdWr k inst else (s.setOwnerP p 0xFF).scrubPrism p)
    else s.rsvdWr k inst
  else s.rsvdWr k inst

/-- A write of a queue's owner: to or from UNASSIGNED; the present owner is no change. -/
def State.queueOwnerWrite (s : State) (q v : Nat) : State :=
  let o := s.ownerQ q
  let named := decide (v < 16) || v == 0xFE
  if v = o then s
  else if (o = 0xFF ∧ named) ∨ (v = 0xFF) then s.setOwnerQ q v else s.rsvdWr .agq q

/-- A write of BLK_OWNER on a page: elsewhere it is ignored. -/
def State.ownerWrite (s : State) (k : PageKind) (inst v : Nat) : State :=
  let s := if 256 ≤ v then s.rsvdWr k inst else s
  if k.perPrism then s.prismOwnerWrite k inst (v % 256)
  else if k = .agq then s.queueOwnerWrite inst (v % 256)
  else s.rsvdWr k inst

end Sys2Proof.Machine
end

