-- ==== Sys2Proof/Machine/Flash.lean ====
section
/-! DEFINITION. The config flash (chapter 18, R502 to R504): areas and banks with their headers, the choice of the newer one, and the
config records. -/

namespace Sys2Proof.Machine

/-! ## Areas and banks (R502, R503) -/

/-- The flash offset of an image area, or of a record bank. -/
def areaBase (bank : Bool) (i : Nat) : Nat := if bank then 0x1000000 + i * 0x40000 else i * 0x800000

/-- The largest LEN of a header: 2 MiB for an image, 256 KiB less the header for a bank. -/
def areaLimit (bank : Bool) : Nat := if bank then 0x40000 - 16 else 0x200000

/-- The 16 B header. -/
structure AreaHdr where
  seq : Nat
  len : Nat
  crc : Nat
  deriving DecidableEq, Repr

def State.areaHdr (s : State) (bank : Bool) (i : Nat) : AreaHdr :=
  let k := flashKey (areaBase bank i)
  ⟨s.rdNat k 4, s.rdNat (k + 4) 4, s.rdNat (k + 8) 4⟩

/-- The bytes that follow a header. -/
def State.areaBody (s : State) (bank : Bool) (i : Nat) : List Byte :=
  s.rdN (flashKey (areaBase bank i + 16)) (s.areaHdr bank i).len

/-- A header is valid: LEN within its limit and the CRC over its first 8 bytes and the body. An erased or never written area is not. -/
def State.areaValid (s : State) (bank : Bool) (i : Nat) : Bool :=
  let h := s.areaHdr bank i
  if areaLimit bank < h.len then false
  else (crc32c (leBytes 4 h.seq ++ leBytes 4 h.len ++ s.areaBody bank i)).toNat == h.crc

/-- a is newer than b. -/
def seqNewer (a b : Nat) : Bool :=
  let d := (a + 2 ^ 32 - b) % 2 ^ 32
  decide (1 ≤ d) && decide (d ≤ 2 ^ 31 - 1)

/-- The area or bank that boot takes; none when neither is valid. -/
def State.areaPick (s : State) (bank : Bool) : Option Nat :=
  match s.areaValid bank 0, s.areaValid bank 1 with
  | true, true => if seqNewer (s.areaHdr bank 1).seq (s.areaHdr bank 0).seq then some 1 else some 0
  | true, false => some 0
  | false, true => some 1
  | false, false => none

/-- A header and a body as they are written, with the CRC of R503. -/
def areaBytes (seq : Nat) (body : List Byte) : List Byte :=
  let h := leBytes 4 seq ++ leBytes 4 body.length
  h ++ leBytes 4 (crc32c (h ++ body)).toNat ++ leBytes 4 0 ++ body

/-! ## Config records (R504) -/

/-- A record: its type and its body. -/
structure CfgRec where
  typ : Nat
  body : List Byte
  deriving DecidableEq, Repr

/-- A length rounded up to a multiple of 8. -/
def pad8 (n : Nat) : Nat := ceilDiv n 8 * 8

/-- A record as it is written. -/
def CfgRec.bytes (r : CfgRec) : List Byte :=
  leBytes 2 r.typ ++ leBytes 2 r.body.length ++ leBytes 4 0 ++ r.body ++ List.replicate (pad8 r.body.length - r.body.length) 0

/-- Read the record at the head of some bytes, with the bytes after it; none where it does not fit or its reserved bits are not 0. -/
def takeRec (bs : List Byte) : Option (CfgRec × List Byte) :=
  let n := leNat ((bs.drop 2).take 2)
  if bs.length < 8 + pad8 n || leNat ((bs.drop 4).take 4) != 0 then none
  else some (⟨leNat (bs.take 2), (bs.drop 8).take n⟩, bs.drop (8 + pad8 n))

/-- The records of a bank: the first number bounds how many are read. The flag says that all of it was records. -/
def takeRecs : Nat → List Byte → List CfgRec × Bool
  | 0, bs => ([], bs.isEmpty)
  | n + 1, bs =>
    if bs.isEmpty then ([], true)
    else match takeRec bs with
      | none => ([], false)
      | some (r, rest) => (r :: (takeRecs n rest).1, (takeRecs n rest).2)

def bankRecs (bs : List Byte) : List CfgRec × Bool := takeRecs (bs.length / 8) bs

/-- The 16-bit numbers of a body. -/
def halves (bs : List Byte) : List Nat := (List.range (bs.length / 2)).map fun i => leNat ((bs.drop (2 * i)).take 2)
/-- The 32-bit words of a body. -/
def words32 (bs : List Byte) : List Nat := (List.range (bs.length / 4)).map fun i => leNat ((bs.drop (4 * i)).take 4)

/-- A list of numbers never falls. -/
def rises : List Nat → Bool
  | a :: b :: l => decide (a ≤ b) && rises (b :: l)
  | _ => true

/-- A record keeps the rule of its type. -/
def CfgRec.ok (r : CfgRec) : Bool :=
  match r.typ with
  | 1 => r.body.length == 8 && decide (leNat r.body < 2 ^ 52)
  | 2 => r.body.length == 46 && rises (halves r.body) && (halves r.body).all fun v => decide (550 ≤ v) && decide (v ≤ 800)
  | 3 => decide (4 ≤ r.body.length) && decide (r.body.length ≤ 32) && r.body.length % 4 == 0 &&
      (words32 r.body).all fun w => decide (bitsOf w 11 8 < 8) && decide (w < 65536)
  | 4 => r.body.length == 1 && decide (8 ≤ leNat r.body) && decide (leNat r.body ≤ 0x77)
  | 5 => r.body.length == 4
  | _ => false

/-- A record applied to the configuration. -/
def ConfigSt.apply (c : ConfigSt) (r : CfgRec) : ConfigSt :=
  if !r.ok then c
  else match r.typ with
    | 1 => { c with repair := BitVec.ofNat 64 (leNat r.body) }
    | 2 => { c with vf := halves r.body, vfDefault := false }
    | 3 => { c with vrm := (words32 r.body).map (BitVec.ofNat 32) }
    | 4 => { c with i3cAddr := BitVec.ofNat 7 (leNat r.body) }
    | 5 => { c with pcieId := BitVec.ofNat 32 (leNat r.body) }
    | _ => c

/-- The configuration that a bank's records give over the defaults, and whether all of them are in order. -/
def configOf (bs : List Byte) : ConfigSt × Bool :=
  let rs := bankRecs bs
  (rs.1.foldl ConfigSt.apply ConfigSt.default, rs.2 && rs.1.all CfgRec.ok)

/-- The body of a record type as it is in effect (R530). -/
def ConfigSt.bodyOf (c : ConfigSt) (typ : Nat) : Option (List Byte) :=
  match typ with
  | 1 => some (leBytes 8 c.repair.toNat)
  | 2 => some (c.vf.flatMap (leBytes 2))
  | 3 => some (c.vrm.flatMap fun w => leBytes 4 w.toNat)
  | 4 => some (leBytes 1 c.i3cAddr.toNat)
  | 5 => some (leBytes 4 c.pcieId.toNat)
  | _ => none

/-! ## What FLASH_WRITE and FW_UPDATE write (R475, R503, R528) -/

/-- A record replaces that of its type, or joins the others. -/
def replaceRec (rs : List CfgRec) (r : CfgRec) : List CfgRec :=
  if rs.any fun x => x.typ == r.typ then rs.map fun x => if x.typ = r.typ then r else x else rs ++ [r]

/-- FLASH_WRITE of a buffer: the offset and bytes to write, none where a check fails. The newest valid bank is copied into the other. -/
def State.flashPlan (s : State) (buf : List Byte) : Option (Nat × List Byte) :=
  match takeRec buf with
  | some (r, []) =>
    if !r.ok then none
    else
      let src := s.areaPick true
      let old := match src with
        | some i => (bankRecs (s.areaBody true i)).1
        | none => []
      let seq := match src with
        | some i => (s.areaHdr true i).seq + 1
        | none => 1
      let body := (replaceRec old r).flatMap CfgRec.bytes
      let target := match src with
        | some i => 1 - i
        | none => 0
      if areaLimit true < body.length then none else some (areaBase true target, areaBytes (seq % 2 ^ 32) body)
  | _ => none

/-- FW_UPDATE of a buffer: a header with SEQ = 0 and the image, into the area not booted. -/
def State.imagePlan (s : State) (buf : List Byte) : Option (Nat × List Byte) :=
  let seq := leNat (buf.take 4)
  let len := leNat ((buf.drop 4).take 4)
  let crc := leNat ((buf.drop 8).take 4)
  let body := buf.drop 16
  if buf.length < 16 || seq != 0 || len != body.length || areaLimit false < len
    || leNat ((buf.drop 12).take 4) != 0 || (crc32c (buf.take 8 ++ body)).toNat != crc then none
  else
    let target := if s.bitR .boot 0 0x100 11 then 0 else 1
    some (areaBase false target, areaBytes ((s.getR .boot 0 0x10C + 1) % 2 ^ 32) body)

end Sys2Proof.Machine
end

