-- ==== Sys2Proof/Machine/Health.lean ====
section
/-! DEFINITION. Fault detection, spares, the maintenance token and the Dimmer (chapter 17), with patrol reads (R276) and the alerts of
the BOOT page (R506, R512). -/

namespace Sys2Proof.Machine

/-! ## Alerts (R506, R509, R512) -/

/-- A bit of BOOT_ALERT sets: the I3C target raises an in-band interrupt whose data byte is its number + 1. -/
def State.alert (s : State) (bit : Nat) : State :=
  if s.bitR .boot 0 0x104 bit then s
  else
    let s := s.orR .boot 0 0x104 (2 ^ bit)
    { s with i3c := { s.i3c with ibis := s.i3c.ibis.set (fun _ => 0) (bit + 1) (s.i3c.ibis.get (fun _ => 0) (bit + 1) + 1) } }

/-! ## Patrol reads (R276) -/

/-- The key of a word, none outside its storage. -/
def sramKey : SramWord → Option Nat
  | .ts p t w => if w < 131072 then some (tsKey p.val t.val (8 * w)) else none
  | .pool p w => if w < 0xFC000 then some (poolKey p.val (8 * w)) else none
  | .store p w => if w < 262144 then some (storeKey p.val (8 * w)) else none
  | .desc p w => if w < 16384 then some (poolKey p.val (0x7E0000 + 8 * w)) else none

/-- A corrected error of an SRAM word is counted (R276, R305, R309). -/
def State.eccCorrected (s : State) (k : Nat) : State :=
  match injectPage k with
  | some (.memctl, i) => ((s.satAdd .memctl i 0x104 15 0 1).blkErr .memctl i 1).count .memctl i 5 1
  | some (kind, i) =>
    let p := (keyPlace k).1
    ((s.satAdd .scratch p 0x10C 15 0 1).blkErr kind i 1).count .scratch p 6 1
  | none => s

/-- Where a fault outside any operation arose: the shade's next bundle, and no slot. -/
def State.idleSrc (s : State) (p t : Nat) : FSrc :=
  ⟨15, match s.shadeOfPrism p with
    | some sh => (s.sh sh).lan.pc.toNat
    | none => 0, p, t⟩

/-- PATROL_READ: the word is read, with so many bits flipped since it was written; errors are handled as any read's. -/
def State.patrol (s : State) (k flips : Nat) : State :=
  let x := keyPlace k
  let s := s.count .scratch x.1 8 1
  let e := max (s.eccAt k) flips
  if e = 0 then s
  else if e = 1 then (s.setEcc k 1).eccCorrected k
  else ((s.setEcc k 2).eccRecord k).machineFault x.1 F_ECC_UNCORR (s.idleSrc x.1 x.2)

/-! ## Isolation state (R466) -/

/-- The device becomes fatal: every enabled shade halts with ECC_UNCORR and is not rolled back. -/
def State.goFatal (s : State) : State :=
  if s.bitR .health 0 0x204 0 then s
  else
    let s := ((s.orR .health 0 0x204 1).alert 2).raise memSrc
    (List.finRange 16).foldl (fun s sh =>
      if (s.sh sh).life = 1 then
        (s.recordFault sh F_ECC_UNCORR .machine ⟨15, (s.sh sh).lan.pc.toNat, noPrism, 0⟩).haltStop sh
      else s) s

/-! ## Self-test (R467 to R469) -/

/-- UNIT of a failure as R530 codes it. -/
def testUnitCode : TestUnit → Nat
  | .tile => 1 | .stencil => 2 | .lens => 3 | .focus => 4 | .router => 5 | .sensor => 6

/-- PASS, TILE and UNIT of a window (R530). -/
def testWord : TestResult → Nat
  | .pass => 1
  | .fail t u => t.val * 2 + testUnitCode u * 16

/-- An in-service prism has gone untested for more than 25 ms (R468). -/
def State.staleAny (s : State) : Bool :=
  (List.range 52).any fun p => s.prismState p == 0 && decide (s.health.tested.get (fun _ => 0) p + 25000000 < s.tb.toNat)

/-- A self-test of a prism failed: its SELFTEST source; in service the fault is permanent, a spare becomes fenced (R465, R469). A
fenced prism's sources are ignored (R471). -/
def State.testFailed (s : State) (p : Nat) : State :=
  match s.prismState p with
  | 0 => ((s.raise (prismSrc p 2)).count .health 0 5 1).fence p
  | 1 => (s.raise (prismSrc p 2)).fence p
  | _ => s

/-- A self-test of a prism ends: its result and time are kept. -/
def State.tested (s : State) (p : Nat) (r : TestResult) : State :=
  let s := { s with health := { s.health with
    tested := s.health.tested.set (fun _ => 0) p s.tb.toNat, result := s.health.result.set (fun _ => 0) p (testWord r) } }
  let s := s.setF .health 0 (hlPrism p) 20 20 (b2n (decide (r = .pass)))
  if s.staleAny then s else s.clrR .health 0 0x214 2

/-- A window of 3,072 core cycles is complete. -/
def State.windowEnd (s : State) (p : Nat) (r : TestResult) : State :=
  let s := (((s.tested p r).count .health 0 1 1).count .health 0 2 3072)
  if r = .pass then s else (s.count .health 0 3 1).testFailed p

/-- SELFTEST_WINDOW: the window of a prism whose shade is in its windows is over, or firmware ran one on a prism that no shade owns. -/
def State.selftestWindow (s : State) (p : Nat) (r : TestResult) : State :=
  if !s.clocked then s
  else match s.shadeOfPrism p with
    | some sh =>
      if (s.sh sh).rep.window.contains p then
        (s.modSh sh fun x => { x with rep := { x.rep with window := x.rep.window.filter fun q => q != p } }).windowEnd p r
      else s
    | none => if s.stPaused || !s.warden then s else s.windowEnd p r

/-- SELFTEST_STALE (R468). -/
def State.selftestStale (s : State) (p : Nat) : State :=
  if s.clocked && s.prismState p == 0 && decide (s.health.tested.get (fun _ => 0) p + 25000000 < s.tb.toNat) then s.orR .health 0 0x214 2 else s

/-! ## The maintenance token (R475 to R478, R527, R528) -/

/-- The source MAINT. -/
def maintSrc : Nat := 0x005
/-- The source FLASH. -/
def flashSrc : Nat := 0x00B

/-- MAINT_STATUS.BUSY and ACTIVITY. -/
def State.maintBusy (s : State) : Bool := s.bitR .maint 0 0x104 0
def State.activity (s : State) : Nat := s.getF .maint 0 0x104 4 1

/-- HOLDER as MAINT_STATUS codes it. -/
def whoCode : MaintWho → Nat
  | .firmware => 0 | .pf => 1 | .i3c => 2

/-- The answer to a request is recorded; firmware has no RESP field. -/
def State.maintAnswer (s : State) (who : MaintWho) (v : Nat) : State :=
  match who with
  | .firmware => s
  | .pf => s.setF .maint 0 0x104 19 12 v
  | .i3c => s.setF .maint 0 0x104 27 20 v

/-- The token is granted. -/
def State.maintGrant (s : State) (who : MaintWho) (act arg : Nat) : State :=
  let r := s.getR .maint 0 0x104
  let s := s.setR .maint 0 0x104 (putBits (putBits (putBits (putBits r 0 0 1) 4 1 act) 6 5 (whoCode who)) 11 9 arg)
  let s := { (s.maintAnswer who 0) with maint := { MaintSt.reset with since := s.tb.toNat } }
  (s.count .maint 0 5 1).raise maintSrc

/-- A request: MAINT_BUSY, or granted with `go` as its work. -/
def State.maintAsk (s : State) (who : MaintWho) (act arg : Nat) (go : State → State) : State :=
  if s.maintBusy then (s.maintAnswer who 0x40).count .maint 0 6 1
  else go (s.maintGrant who act arg)

/-- Requests that MAINT_REQ refuses: NONE, SPARE_SUB, a reserved activity or ARG, and flash activities over I3C (R528). -/
def maintRefused (who : MaintWho) (act arg : Nat) : Bool :=
  act == 0 || act == 2 || decide (7 ≤ act) || (act == 4 && decide (2 ≤ arg)) || (act != 3 && act != 4 && arg != 0)
  || (who == .i3c && (act == 1 || act == 6))

/-- A controller begins to retrain (R282). -/
def State.retrainGo (s : State) (i : Nat) : State := s.orR .memctl i 0x100 2

/-- What begins when an activity is granted: a retraining, or the reading of the flash buffer. -/
def State.maintStart (s : State) (act arg : Nat) : State :=
  match act with
  | 1 => { s with maint := { s.maint with reading := true } }
  | 6 => { s with maint := { s.maint with reading := true } }
  | 3 => s.retrainGo arg
  | 4 => s.retrainGo (8 + arg)
  | _ => s

/-- The copy of MAINT_REQ of a party (R527). -/
def reqInst : MaintWho → Nat
  | .i3c => 1
  | _ => 0

/-- A write of MAINT_REQ (R528). Before Warden runs nobody answers a GO. -/
def State.maintReqWrite (s : State) (who : MaintWho) (v : Nat) : State :=
  let s := if decide (512 ≤ v) || bitOf v 7 then s.rsvdWr .maint 0 else s
  let s := s.setR .maint (reqInst who) 0x100 (v % 128)
  let act := bitsOf v 3 0
  let arg := bitsOf v 6 4
  if !bitOf v 8 then s
  else if maintRefused who act arg || !s.warden then s.rsvdWr .maint 0
  else s.maintAsk who act arg fun s => s.maintStart act arg

/-- A request of a party: firmware's own, or a write of MAINT_REQ. -/
def State.maintRequest (s : State) (who : MaintWho) (act arg : Nat) : State :=
  let v := act + arg * 16 + 256
  match who with
  | .firmware => if s.warden then s.maintAsk .firmware act arg fun s => s.maintStart act arg else s
  | .pf => s.write .pf .maint 0 0x100 fun s => s.maintReqWrite .pf v
  | .i3c => s.write .i3c .maint 0 0x100 fun s => s.maintReqWrite .i3c v

/-- The buffer of FLASH_WRITE or FW_UPDATE has been read: a buffer that passes its checks is held and its target erased. `data` is what
the PCIe reads return, none for a read error; with ADDR bits [2:0] not 0 the buffer fails. -/
def State.flashGo (s : State) (image : Bool) (data : Option (List Byte)) : State :=
  let s := { s with maint := { s.maint with reading := false } }
  let plan := match data with
    | none => none
    | some bs =>
      if bs.length ≠ s.getF .maint 0 0x110 21 0 ∨ bs.length < 16 ∨ 2097168 < bs.length ∨ s.getF .maint 0 0x108 2 0 ≠ 0 then none
      else if image then s.imagePlan bs else s.flashPlan bs
  match plan with
  | none => { s with maint := { s.maint with refused := true } }
  | some (o, bs) => { (s.wrN (flashKey o) (List.replicate 16 0xFF)) with maint := { s.maint with flash := [(o, bs)] } }

/-- FLASH_WRITE or FW_UPDATE of a party: its request, unless it holds the token with the buffer still to read; then the buffer. -/
def State.flashRow (s : State) (who : MaintWho) (act : Nat) (data : Option (List Byte)) : State :=
  let mine (s : State) : Bool := s.maintBusy && s.activity == act && s.getF .maint 0 0x104 6 5 == whoCode who && s.maint.reading && s.warden
  let s := if mine s then s else s.maintRequest who act 0
  if mine s then s.flashGo (act == 6) data else s

/-! ## Spare substitution (R472, R473) -/

/-- Spares whose last window passed less than 25 ms ago, lowest first. -/
def State.goodSpares (s : State) : List Nat :=
  (List.range 52).filter fun q => s.prismState q == 1 && s.bitR .health 0 (hlPrism q) 20 &&
    decide (s.tb.toNat < s.health.tested.get (fun _ => 0) q + 25000000)

/-- DEV_L2P of a logical number: a prism, or vacant. -/
def State.setL2p (s : State) (n : Nat) (p : Option Nat) : State :=
  s.setR .device 0 (0x200 + 4 * n) (match p with
    | some p => p + 64
    | none => 0)

/-- A prism takes a logical number: HL_PRISM shows it in service (R485). -/
def State.takeLogical (s : State) (p n : Nat) : State := ((s.setL2p n (some p)).setF .health 0 (hlPrism p) 7 2 n).setF .health 0 (hlPrism p) 1 0 0

/-- The records of a shade lack the part of a prism that is gone (R401, R472). -/
def State.dropRecords (s : State) (p : Nat) : State :=
  match s.shadeOfPrism p with
  | none => s
  | some sh => s.modSh sh fun x => { x with rep := { x.rep with slot0 := none, slot1 := none } }

/-- One substitution: the spare's maintenance reset, and the move of number and owner; a spare that fails is fenced; with no spare the
number becomes vacant. -/
def State.substitute (s : State) (p : Nat) (r : TestResult) : State :=
  let n := s.getF .health 0 (hlPrism p) 7 2
  let settled (s : State) : State := { s with health := { s.health with subs := s.health.subs.filter fun x => x != p } }
  match s.goodSpares with
  | [] => settled (((s.dropRecords p).setL2p n none).setF .health 0 (hlPrism p) 7 2 0x3F)
  | q :: _ =>
    let s := { (s.prismReset q) with maint := { s.maint with spare := some q } }
    if r ≠ .pass then (s.setF .health 0 (hlPrism q) 20 20 0).testFailed q
    else
      let o := s.ownerP p
      let s := ((s.dropRecords p).setF .health 0 (hlPrism p) 7 2 0x3F).takeLogical q n
      let s := ((s.setOwnerP q o).setOwnerP p 0xFF).count .health 0 6 1
      settled (s.raise (prismSrc q 1))

/-- SPARE_SUB holds the token for a prism whose number has not yet moved. -/
def State.subFor (s : State) (p : Nat) : Bool :=
  s.maintBusy && s.activity == 2 && s.maint.subject == some p && !s.maint.unfencing && s.health.subs.contains p

/-- SPARE_SUB: firmware asks for the first fenced prism of the queue, or goes on with the one it holds the token for. -/
def State.spareSub (s : State) (p : Nat) (r : TestResult) : State :=
  if !s.warden then s
  else if s.subFor p then s.substitute p r
  else if s.health.subs.head? = some p then
    s.maintAsk .firmware 2 0 fun s => { s with maint := { s.maint with subject := some p } }.substitute p r
  else s

/-- A result of UNFENCE is written: GO clears. -/
def State.unfenceResult (s : State) (v : Nat) : State := (s.setF .health 0 0x20C 9 8 v).clrR .health 0 0x20C 64

/-- The number that UNFENCE would give a prism back: it was fenced in service, and no other prism holds it (R474). -/
def State.unfenceNumber (s : State) (p : Nat) : Option Nat :=
  if s.prismState p ≠ 2 then none
  else match s.health.former.get (fun _ => none) p with
    | none => none
    | some (n, _) => match s.l2p n with
      | none => some n
      | some q => if q = p then some n else none

/-- A write of HL_UNFENCE with GO (R474): refused at once, or it holds the token. -/
def State.unfenceAsk (s : State) (p : Nat) : State :=
  let s := s.setR .health 0 0x20C (p + 64)
  if s.maintBusy then (s.unfenceResult 2).count .maint 0 6 1
  else if (s.unfenceNumber p).isNone then s.unfenceResult 2
  else
    let s := s.maintGrant .firmware 2 0
    { s with maint := { s.maint with subject := some p, unfencing := true } }

/-- An UNFENCE of a prism holds the token and its self-test is due. -/
def State.unfencing (s : State) (p : Nat) : Bool :=
  s.maintBusy && s.activity == 2 && s.maint.subject == some p && s.maint.unfencing && s.bitR .health 0 0x20C 6

/-- The maintenance reset and the self-test of UNFENCE are over (R474). -/
def State.unfenceTest (s : State) (p : Nat) (r : TestResult) : State :=
  if !s.unfencing p then s
  else match s.unfenceNumber p with
    | none => s.unfenceResult 2
    | some n =>
      let s := (s.prismReset p).tested p r
      if r ≠ .pass then s.unfenceResult 3
      else
        let s := (s.takeLogical p n).unfenceResult 1
        { s with health := { s.health with subs := s.health.subs.filter fun x => x != p, former := s.health.former.set (fun _ => none) p none } }

/-! ## Release of the token -/

/-- A retraining failed: the operations that wait for the tier end as uncorrectable errors, and MEM is raised (R478). -/
def State.retrainFailed (s : State) (deep : Bool) : State :=
  let s := s.raise memSrc
  (List.finRange 16).foldl (fun s sh =>
    match (s.sh sh).queue.find? fun q => q.touches deep with
    | none => s
    | some q => s.machineFaultUnattributed (some sh) F_ECC_UNCORR ⟨q.slot, q.baddr, noPrism, 0⟩) s

/-- One line that FULL_SCRUB meets: a corrected one is rewritten, an uncorrectable one is raised against its owner (R281, R478). -/
def State.scrubLine (s : State) (k e : Nat) : State :=
  if e = 1 then (s.setEcc k 0).eccCorrected k
  else
    let s := s.eccRecord k
    let o := if k < hbmTop then s.hbmOwner (k / 2 ^ 30) else s.deepOwner ((k - deepBase) / 2 ^ 30)
    if h : o < 16 then s.machineFaultUnattributed (some ⟨o, h⟩) F_ECC_UNCORR ⟨15, (s.sh ⟨o, h⟩).lan.pc.toNat, noPrism, 0⟩ else s

/-- Every line of HBM and the deep tier. -/
def State.fullScrub (s : State) : State :=
  (s.ecc.cells.filter fun c => decide (c.1 * 8 < 2 ^ 50)).foldl (fun (s : State) (c : Nat × Nat) => s.scrubLine (8 * c.1) c.2) s

/-- The end of the holder's work: what it writes when it is complete. -/
def State.activityEnd (s : State) (ok : Bool) : State :=
  match s.activity with
  | 1 => (if ok then s.maint.flash.foldl (fun (s : State) (f : Nat × List Byte) => s.wrN (flashKey f.1) f.2) s else s).raise flashSrc
  | 6 => (if ok then s.maint.flash.foldl (fun (s : State) (f : Nat × List Byte) => s.wrN (flashKey f.1) f.2) s else s).raise flashSrc
  | 3 =>
    let s := (List.range 8).foldl (fun s i => s.clrR .memctl i 0x100 2) s
    if ok then s else s.retrainFailed false
  | 4 =>
    let s := (s.clrR .memctl 8 0x100 2).clrR .memctl 9 0x100 2
    if ok then s else s.retrainFailed true
  | 5 => if ok then s.fullScrub else s
  | _ => s

/-- FULL_SCRUB can be complete only with a DEVICE-owned bulk Beam; SPARE_SUB only once its prism's number has moved or is vacant. -/
def State.activityOver (s : State) : Bool :=
  match s.activity with
  | 1 => !s.maint.reading
  | 6 => !s.maint.reading
  | 5 => (List.range 8).any fun b => s.bulkOwner b == 0xFE
  | 2 => match s.maint.subject with
    | some p => s.maint.unfencing || !s.health.subs.contains p
    | none => true
  | _ => true

/-- RESULT of a release: a failing buffer is FAILED whatever else (R528). -/
def State.resultCode (s : State) (r : MaintEnd) : Nat :=
  match r with
  | .aborted => 3
  | .failed => 2
  | .ok => if s.maint.refused then 2 else 1

/-- MAINT_RELEASE (R475, R476): the token is free; the substitution first in the queue takes it at once. -/
def State.maintRelease (s : State) (r : MaintEnd) : State :=
  if !s.maintBusy || !s.warden || (r == .ok && !s.activityOver) then s
  else
    let v := s.resultCode r
    let s := (s.activityEnd (v == 1)).count .maint 0 7 ((s.tb.toNat - s.maint.since) / 1000)
    let m := s.getR .maint 0 0x104
    let s := { (s.setR .maint 0 0x104 (putBits (putBits (putBits (putBits (putBits m 0 0 0) 4 1 0) 6 5 0) 8 7 v) 11 9 0)) with maint := MaintSt.reset }
    let s := s.raise maintSrc
    match s.health.subs with
    | [] => s
    | p :: _ => { (s.maintGrant .firmware 2 0) with maint := { MaintSt.reset with subject := some p, since := s.tb.toNat } }

/-! ## Sensors and the Dimmer (R479 to R484) -/

/-- The reading of a sensor as DIM_SENS shows it: 11 signed bits in units of 0.25 °C, and EXCLUDED. -/
def sensWord (t : Int) (excl : Bool) : Nat := (t % 2048).toNat + b2n excl * 2048

/-- A reading that excludes its sensor (R479). -/
def sampleExcl (x : DimmerSample) (i : Nat) (t : Int) : Bool := t < -160 || 600 < t || x.far.contains i

/-- The valid readings, with their sensors. -/
def sampleValid (x : DimmerSample) : List (Nat × Int) :=
  (((x.temps.take 240).zipIdx.filter fun a => !sampleExcl x a.2 a.1)).map fun a => (a.2, a.1)

/-- The highest of some readings, the lowest sensor first. -/
def hottest : List (Nat × Int) → Option (Nat × Int)
  | [] => none
  | a :: l => match hottest l with
    | none => some a
    | some b => if a.2 < b.2 then some b else some a

/-- A prism's sensors that a map of readings does not exclude. -/
def goodSensors (m : FMap Nat) (p : Nat) : Nat := ((List.range 4).filter fun k => !bitOf (m.get (fun _ => 0) (4 * p + k)) 11).length

/-- The sensors are sampled: exclusions and their sources; a prism left with fewer than 2 valid sensors fails its self-test. -/
def State.sampleSensors (s : State) (x : DimmerSample) : State :=
  let old := s.health.sensors
  let now := (x.temps.take 240).zipIdx.foldl (fun (m : FMap Nat) (a : Int × Nat) => m.set (fun _ => 0) a.2 (sensWord a.1 (sampleExcl x a.2 a.1))) old
  let fresh := (List.range 240).filter fun i => bitOf (now.get (fun _ => 0) i) 11 && !bitOf (old.get (fun _ => 0) i) 11
  let s := { s with health := { s.health with sensors := now } }
  let s := if fresh.isEmpty then s else if s.bitR .dimmer 0 0x118 0 then s else (s.setErr .dimmer 0 0 0x118 1).raise 0x004
  let s := (fresh.filter fun i => decide (i < 208) && s.prismState (i / 4) != 2).foldl (fun s i => s.raise (prismSrc (i / 4) 3)) s
  ((List.range 52).filter fun p => decide (goodSensors now p < 2) && decide (2 ≤ goodSensors old p)).foldl
    (fun s p => (s.tested p (.fail 0 .sensor)).testFailed p) s

/-- A gating demand moves by its rule and stays in 0 to 15. -/
def demand (d up : Nat) (above under : Bool) : Nat := if above then min 15 (d + up) else if under then d - 1 else d

/-- 5% below a limit. -/
def below5 (v lim : Nat) : Bool := decide (100 * v ≤ 95 * lim)

/-- T_max reached 103 °C: TWARN, its alert and the THERM source. -/
def State.twarn (s : State) : State :=
  if s.bitR .dimmer 0 0x118 3 then s else ((s.setErr .dimmer 0 0 0x118 8).alert 1).raise 0x003

/-- DIM_STATUS.GATE (R480). -/
def DimmerSt.gate (d : DimmerSt) : Nat := max d.thermal (max d.power d.current)

/-- The three demands after a sample. -/
def State.demands (s : State) (x : DimmerSample) : State :=
  let c := s.getR .dimmer 0 0x100
  let lim := s.getR .dimmer 0 0x104
  let pl1 := bitsOf lim 10 0
  let pl2 := bitsOf lim 21 11
  let throt := bitsOf c 6 0
  let hyst := bitsOf c 10 7
  let top := hottest (sampleValid x)
  let hotStack := (List.range 8).any fun i => decide (95 < s.dim.stackTemp.get (fun _ => 0) i)
  let atLeast (v : Int) : Bool := match top with
    | some a => decide (4 * v ≤ a.2)
    | none => false
  let hot := hotStack || atLeast throt
  let th := demand s.dim.thermal 1 hot (!hot && !atLeast ((throt : Int) - hyst))
  let po := demand s.dim.power 2 (decide (pl2 < x.watts) || decide (pl1 < x.wattsAvg)) (below5 x.watts pl2 && below5 x.wattsAvg pl1)
  let cu := demand s.dim.current 2 (decide (2300 < x.amps) || decide (2000 < x.ampsAvg)) (below5 x.amps 2300 && below5 x.ampsAvg 2000)
  let left := s.dim.thermal = 0 ∧ 0 < th
  let s := { s with dim := { s.dim with thermal := th, power := po, current := cu } }
  let s := if left then s.raise 0x003 else s
  let s := match top with
    | some a => s.setF .dimmer 0 0x10C 15 0 ((a.2 / 4 % 256).toNat + a.1 * 256)
    | none => s
  let s := (s.setR .dimmer 0 0x110 (x.watts % 2048 + x.wattsAvg % 2048 * 2048)).setR .dimmer 0 0x114 (x.amps % 4096)
  if atLeast 103 then s.twarn else s

/-- A VRM has failed three transactions in a row and has not answered since (R483). -/
def State.vrmCap (s : State) : Bool := (List.range 8).any fun i => decide (3 ≤ s.dim.vrmFails.get (fun _ => 0) i)

/-- The highest FSTEP allowed now (R482, R483, R504). -/
def State.fcap (s : State) : Nat :=
  let c := min 22 (s.getF .dimmer 0 0x100 15 11)
  if s.vrmCap || s.config.vfDefault then min 8 c else c

/-- Since when a condition holds. -/
def since (old : Option Nat) (now : Nat) (b : Bool) : Option Nat :=
  if b then some (old.getD now) else none

/-- A condition has held for 100 ms. -/
def held100 (t : Option Nat) (now : Nat) : Bool := match t with
  | some t => decide (t + 100000000 ≤ now)
  | none => false

/-- A DVFS step is requested (R482): none without VRM records, none within 100 ms of the last. -/
def State.dvfsAsk (s : State) : State :=
  let now := s.tb.toNat
  let d := s.dim
  let d := { d with highSince := since d.highSince now (decide (8 ≤ d.gate)), lowSince := since d.lowSince now (d.gate == 0) }
  let s := { s with dim := d }
  let soon := match d.asked with
    | some t => decide (now < t + 100000000)
    | none => false
  let f := s.fstep
  if d.target.isSome || soon || s.config.vrm.isEmpty then s
  else if (held100 d.highSince now && decide (0 < f)) || decide (s.fcap < f) then
    { s with dim := { d with target := some (f - 1), asked := some now } }
  else if held100 d.lowSince now && decide (f < s.fcap) then
    { s with dim := { d with target := some (f + 1), asked := some now } }
  else s

/-- DIMMER_TICK: the sample of every 20 µs. -/
def State.dimmerTick (s : State) (x : DimmerSample) : State :=
  if !s.warden then s else ((s.sampleSensors x).demands x).dvfsAsk

/-- VRM entries of a rail. -/
def ConfigSt.rail (c : ConfigSt) (r : Nat) : List W32 := c.vrm.filter fun w => bitsOf w.toNat 11 8 == r

/-- DVFS_SWITCH: every enabled shade holds or is halted, the clock switches and the shades resume (R482, R490). -/
def State.dvfsSwitch (s : State) : State :=
  match s.dim.target with
  | none => s
  | some k =>
    if !s.clocked || !((List.finRange 16).all fun sh => !s.enabled sh || (s.sh sh).lan.halted || (s.sh sh).rep.dvfs) then s
    else
      let s := { s with dim := { s.dim with target := none } }
      let s := (List.finRange 16).foldl (fun (s : State) sh => s.modSh sh fun x => { x with rep := { x.rep with dvfs := false } }) s
      let s := (s.setF .dimmer 0 0x108 4 0 k).count .boot 0 5 (s.config.rail 0).length
      (s.count .dimmer 0 0xA 1).raise 0x004

/-- HBM_TEMP_POLL: the temperatures of the stacks in °C; above 85 a stack doubles its refresh (R282, R479). -/
def State.hbmTempPoll (s : State) (ts : List Nat) : State :=
  if !s.warden then s
  else
    let s := (ts.take 8).zipIdx.foldl (fun (s : State) (a : Nat × Nat) =>
      { (s.setF .memctl a.2 0x100 2 2 (b2n (decide (85 < a.1)))) with dim := { s.dim with stackTemp := s.dim.stackTemp.set (fun _ => 0) a.2 a.1 } }) s
    s.setF .dimmer 0 0x10C 23 16 (maxOf ((List.range 8).map fun i => s.dim.stackTemp.get (fun _ => 0) i))

/-- One PMBus transaction with VRM entry i (R483, R487, R513). -/
def State.pmbus (s : State) (i : Nat) (ok : Bool) : State :=
  let s := s.count .boot 0 5 1
  let fails := if ok then 0 else s.dim.vrmFails.get (fun _ => 0) i + 1
  let s := { s with dim := { s.dim with vrmFails := s.dim.vrmFails.set (fun _ => 0) i fails } }
  if ok then s
  else
    let s := (s.count .boot 0 6 1).count .dimmer 0 0xC 1
    if fails = 3 then (s.setErr .dimmer 0 0 0x118 2).raise 0x00A else s

/-- PMBus transactions, n with each VRM in turn; what `ok` does not list is answered. VRM_CAP that sets or clears raises DIMMER. -/
def State.pmbusAll (s : State) (n : Nat) (ok : List Bool) : State :=
  let cap := s.vrmCap
  let s := (List.range s.config.vrm.length).foldl (fun s i =>
    (List.range n).foldl (fun s j => s.pmbus i ((ok[n * i + j]?).getD true)) s) s
  if s.vrmCap != cap then s.raise 0x004 else s

/-- VRM_POLL: READ_VOUT, READ_IOUT and READ_TEMPERATURE_1 of each VRM. -/
def State.vrmPoll (s : State) (ok : List Bool) : State := if !s.warden then s else s.pmbusAll 3 ok

/-- PMBUS_ALERT: PMBUS_ALERT_N falls and STATUS_WORD of each VRM is read (R431, R507). -/
def State.pmbusAlert (s : State) (ok : List Bool) : State := if !s.warden then s else (s.raise 0x00A).pmbusAll 1 ok

/-- DROOP and DROOP_END: the clock stretch (R481). -/
def State.droop (s : State) (on : Bool) : State := if s.clocked then { s with dim := { s.dim with stretch := on } } else s

/-- DROOP_PERSIST: 10 µs of droop. -/
def State.droopPersist (s : State) : State :=
  if s.clocked && s.dim.stretch then { s with dim := { s.dim with current := min 15 (s.dim.current + 4) } }.raise 0x00A else s

/-- A packet of a fenced prism is dropped and counted (R471). -/
def State.fencedPacket (s : State) (p : Nat) : State :=
  if s.clocked && s.prismState p == 2 then (s.satAdd .health 0 0x208 31 0 1).count .health 0 7 1 else s

end Sys2Proof.Machine
end

