-- ==== Sys2Proof/Machine/Power.lean ====
section
/-! DEFINITION. Power, reset and boot (chapter 18, R484 to R504), the device reset of R440, the array reset (R384), and the sideband
interfaces: PCIe link events, I3C addressing and the test access port (R505 to R509). -/

namespace Sys2Proof.Machine

/-! ## Device reset (R440, R496) -/

/-- Registers that a device reset keeps: the reset log, RSTHELD and BROWNOUT and the counters of the BOOT page in the AON domain, and the
device epoch (R440, R512). -/
def keptReg (k : PageKind) (off : Nat) : Bool :=
  (k == .boot && (counterReg off || off == 0x104 || (decide (0x120 ≤ off) && decide (off < 0x160)))) || (k == .jorx && off == 0x10C)

/-- The state of the device in reset: everything of R440 is at its reset value but what a device reset keeps. SRAM is scrubbed, HBM units
are DIRTY and deep units RETAINED. -/
def State.resetDevice (s : State) (keepLink : Bool) : State :=
  let s := s.resetRegs fun k _ off => !keptReg k off
  let s := ((s.setR .boot 0 0x104 (s.getR .boot 0 0x104 &&& 9)).clrR .jorx 0 0x10C 65536).zeroRange (tsKey 0 0 0) (storeKey 64 0)
  let s := (List.range 30).foldl (fun s n => s.setR .scrub 0 (0x200 + 4 * n) 0xFFFFFFFF) s
  { State.reset with
    pending := s.pending, fresh := s.fresh, tb := s.tb, regs := s.regs, mem := s.mem, ecc := s.ecc
    host := { State.reset.host with msixSent := s.host.msixSent }
    jorx := { JorxSt.reset with outSeq := s.jorx.outSeq, inSeq := s.jorx.inSeq }
    power := { s.power with inReset := true, booting := false, railLow := false }
    config := s.config, i3c := s.i3c, tap := s.tap
    pcie := if keepLink then s.pcie else ⟨false, 0, 0⟩ }

/-- The reset log takes a new entry 0 (R512). -/
def State.logReset (s : State) (cause : Nat) : State :=
  let s := [3, 2, 1].foldl (fun (s : State) n =>
    (s.setR .boot 0 (0x120 + 4 * n) (s.getR .boot 0 (0x120 + 4 * (n - 1)))).setR64 .boot 0 (0x140 + 8 * n)
      (s.getR64 .boot 0 (0x140 + 8 * (n - 1)))) s
  (s.setR .boot 0 0x120 (cause + 16)).setR64 .boot 0 0x140 s.tb.toNat

/-- A device-reset trigger is accepted: it is logged and counted, and the device is in reset (R496, R498, R513). -/
def State.enterReset (s : State) (cause : Nat) (keepLink : Bool) : State :=
  ((s.logReset cause).count .boot 0 1 1).resetDevice keepLink

/-- Both reset pins are high, and clocks can run. -/
def State.mayBoot (s : State) : Bool := !s.power.rstLow && !s.power.perstLow && !s.power.tripped && !s.power.noRef

/-- Boot begins: stage RESET, and ENUM sampling starts (R364, R499). -/
def State.bootBegin (s : State) : State :=
  if s.power.inReset && s.mayBoot then
    { s with power := { s.power with inReset := false, booting := true, railLow := false }, jorx := { s.jorx with enumFrom := s.tb.toNat } }
  else s

/-- A reset pin is low. -/
def State.pinLow (s : State) (p : ResetPin) : Bool :=
  match p with
  | .rst => s.power.rstLow
  | .perst => s.power.perstLow

def State.setPin (s : State) (p : ResetPin) (v : Bool) : State :=
  match p with
  | .rst => { s with power := { s.power with rstLow := v } }
  | .perst => { s with power := { s.power with perstLow := v } }

/-- RESET_ASSERT (R495): a pin has been low for 1 µs. -/
def State.resetAssert (s : State) (p : ResetPin) : State :=
  if s.power.noRef || s.pinLow p then s
  else ({ (s.setPin p true) with power := { (s.setPin p true).power with heldSaid := false } }).enterReset (match p with
    | .rst => 1
    | .perst => 2) false

/-- RESET_RELEASE (R495): both pins have been high for 1 µs. EXTEST, CLAMP and HIGHZ end with RST_N low (R508). -/
def State.resetRelease (s : State) : State :=
  if s.power.noRef then s
  else
    let t := match s.tap.instr with
      | .extest => { s.tap with instr := .bypass }
      | .clamp => { s.tap with instr := .bypass }
      | .highz => { s.tap with instr := .bypass }
      | _ => s.tap
    { s with power := { s.power with rstLow := false, perstLow := false, heldSaid := false }, tap := t }.bootBegin

/-- RESET_PIN_PULSE (R495, R513). -/
def State.resetPulse (s : State) (p : ResetPin) : State := if s.power.noRef || s.pinLow p then s else s.count .boot 0 2 1

/-- RSTHELD (R497): a pin has been low for more than 1 s. -/
def State.rstHeld (s : State) (p : ResetPin) : State :=
  if s.power.noRef || !s.pinLow p || s.power.heldSaid then s
  else { (s.alert 0) with power := { (s.alert 0).power with heldSaid := true } }

/-- PF_FLR (R496): the link stays in L0 and boot begins at once. -/
def State.pfFlr (s : State) : State := if s.pathUp .pf .device then (s.enterReset 3 true).bootBegin else s

/-- BROWNOUT (R493): boot begins when every rail is back. -/
def State.brownout (s : State) : State :=
  if s.power.noRef || s.power.rstLow then s
  else
    let s := (s.enterReset 5 false).alert 3
    { s with power := { s.power with railLow := true } }

/-- ARRAY_RESET_TIME (R384): the time of RESET(T) has come; the device's epoch goes up with it (R361, R381). -/
def State.arrayReset (s : State) : State :=
  match s.jorx.mgmt.release with
  | some (.areset, t, _) => if s.tb.toNat < t then s else (s.epochUp.enterReset 4 false).bootBegin
  | _ => s

/-- Every clock but AON's, or every clock, stops until power-on: what the device held is as in reset (R484, R488, R498). -/
def State.clocksStop (s : State) (f : PowerSt → PowerSt) : State :=
  let s := s.resetDevice false
  { s with power := f s.power }

/-- THERMTRIP (R484). -/
def State.thermtrip (s : State) : State := if s.power.noRef then s else s.clocksStop fun p => { p with tripped := true }

/-- REFCLK_STOP (R488). -/
def State.refclkStop (s : State) : State := s.clocksStop fun p => { p with noRef := true }

/-- POWER_ON (R440): everything is at its power-on value but the config flash; memory of the host is not the device's. -/
def State.powerOn (s : State) : State :=
  { State.reset with
    pending := s.pending, fresh := s.fresh, host := { State.reset.host with msixSent := s.host.msixSent }
    mem := s.mem.clearRange 0 (flashKey 0) }

/-! ## Boot (R499, R501) -/

/-- BOOT_STATUS.STAGE and FAIL. -/
def State.setStage (s : State) (n : Nat) : State := s.setF .boot 0 0x100 4 1 n
def State.bootFails (s : State) (stage fail : Nat) : State :=
  let s := (s.setStage stage).setF .boot 0 0x100 8 5 fail
  { s with power := { s.power with booting := false } }

/-- The link as trained; PCIE_SLOW follows (R501, R505). -/
def State.linkTrained (s : State) (rate width : Nat) : State :=
  let slow := decide (rate < 16) || decide (width < 4)
  let was := s.bitR .boot 0 0x100 9
  let s := { s with pcie := ⟨true, rate, width⟩ }.setF .boot 0 0x100 9 9 (b2n slow)
  if slow && !was then s.raise 0x008 else s

/-- The deep tier trains (R283, R501): MEM_DEEP_CAP is 15/16 of what is installed. -/
def State.bootDeep (s : State) (d : DeepFit) : State :=
  let ok (g r : Nat) : Bool := [32, 64, 128, 256].contains g && [85, 75, 64].contains r
  match d with
  | .empty => [8, 9].foldl (fun (s : State) i => s.setR .memctl i 0x100 8) (s.setR .mem 0 0x280 0)
  | .fitted g r =>
    if ok g r then [8, 9].foldl (fun (s : State) i => s.setR .memctl i 0x100 (1 + r * 256)) (s.setR .mem 0 0x280 (4 * g * 15 / 16))
    else (s.setR .mem 0 0x280 0).orR .boot 0 0x100 1024
  | .failed => (s.setR .mem 0 0x280 0).orR .boot 0 0x100 1024

/-- The self-test result of a prism at boot. -/
def bootTest (ts : List (PPrism × TestResult)) (p : Nat) : TestResult :=
  match ts.find? fun t => t.1.val == p with
  | some t => t.2
  | none => .pass

/-- The full self-test and the logical map (R470): usable prisms in ascending order take logical numbers, the rest are spares. -/
def State.bootPrisms (s : State) (ts : List (PPrism × TestResult)) : State :=
  let retired (p : Nat) : Bool := bitOf s.config.repair.toNat p
  let usable := (List.range 52).filter fun p => decide (bootTest ts p = .pass) && !retired p
  let s := (List.range 52).foldl (fun s p =>
    (s.tested p (bootTest ts p)).setR .health 0 (hlPrism p)
      (2 + 0x3F * 4 + b2n (decide (bootTest ts p = .pass)) * 2 ^ 20 + b2n (retired p) * 2 ^ 21)) s
  usable.zipIdx.foldl (fun (s : State) (a : Nat × Nat) => if a.2 < 48 then s.takeLogical a.1 a.2 else s.setF .health 0 (hlPrism a.1) 1 0 1) s

/-- The record bank is chosen and applied (R501, R503, R504). -/
def State.bootConfig (s : State) : State :=
  let flag (s : State) : State := (s.alert 4).raise flashSrc
  match s.areaPick true with
  | none => flag { s with config := ConfigSt.default }
  | some i =>
    let c := configOf (s.areaBody true i)
    let s := ({ s with config := c.1 }.setF .boot 0 0x100 12 12 i).setR .boot 0 0x110 (s.areaHdr true i).seq
    if c.2 then s else flag s

/-- FSTEP once the records are applied (R499, R504): the highest allowed, or 8 without VRM records. -/
def State.bootStep (s : State) : State :=
  if s.config.vrm.isEmpty then s.setF .dimmer 0 0x108 4 0 8
  else (s.setF .dimmer 0 0x108 4 0 s.fcap).count .boot 0 5 (s.config.rail 0).length

/-- Memories train and prisms are tested; then all bulk Beams are DEVICE-owned for the boot scrub. -/
def State.bootTrain (s : State) (b : BootIn) : State :=
  if b.hbmFails then s.bootFails 8 2
  else
    let s := (List.range 8).foldl (fun s i => s.setR .memctl i 0x100 (1 + 96 * 256)) s
    let s := (s.bootDeep b.deep).bootPrisms b.tests
    ((s.setR .bulk 0 0x100 0xFEFEFEFE).setR .bulk 0 0x104 0xFEFEFEFE).setStage 5

/-- BOOT: stages CLOCKS to SCRUB (R499), or the failure that ends them (R501). -/
def State.boot (s : State) (b : BootIn) : State :=
  let s := if s.power.railLow then s.bootBegin else s
  if !s.power.booting || s.stage ≠ 0 then s
  else
    let s := (s.setR .boot 0 0x108 0x7FF).setF .dimmer 0 0x108 4 0 8
    let s := if s.pcie.l0 then s else s.linkTrained b.pcieRate b.pcieWidth
    match s.areaPick false with
    | none => s.bootFails 7 1
    | some i =>
      let s := ((s.setF .boot 0 0x100 11 11 i).setR .boot 0 0x10C (s.areaHdr false i).seq).bootConfig
      if b.vrmSilent && !s.config.vrm.isEmpty then s.bootFails 8 4
      else s.bootStep.bootTrain b

/-- PLL_FAIL (R501): the PLLs of BOOT_CLK bits 0 to 10. -/
def State.pllFail (s : State) (i : Nat) : State :=
  if !s.power.booting || s.stage ≠ 0 || 11 ≤ i then s
  else (s.setR .boot 0 0x108 (0x7FF - 2 ^ i)).bootFails 8 3

/-- BOOT_READY (R499): the boot scrub is over; Beams 6 and 7 stay DEVICE-owned. -/
def State.bootReady (s : State) : State :=
  if !s.power.booting || s.stage ≠ 5 then s
  else
    let s := s.zeroRange 0 hbmTop
    let s := (List.range 9).foldl (fun s n => s.setR .scrub 0 (0x140 + 4 * n) 0) s
    let s := (s.setR .bulk 0 0x100 0xFFFFFFFF).setR .bulk 0 0x104 0xFEFEFFFF
    let s := (s.setStage 6).orR .boot 0 0x100 1
    { s with power := { s.power with booting := false } }

/-! ## Sideband interfaces -/

/-- HOST_LINK_EVENT (R431, R505). -/
def State.linkEvent (s : State) (e : LinkEvent) : State :=
  if !s.clocked then s
  else match e with
    | .leftL0 => if s.pcie.l0 then { s with pcie := { s.pcie with l0 := false } }.raise 0x008 else s
    | .retrained rate width =>
      let changed := rate != s.pcie.rate || width != s.pcie.width
      let s := s.linkTrained rate width
      if changed then s.raise 0x008 else s
    | .aerUncorrectable => s.raise 0x008

/-- I3C_CCC (R506): assignment of the dynamic address. -/
def State.i3cCcc (s : State) (c : I3cCcc) : State :=
  if s.power.tripped || s.power.noRef then s
  else
    let put (a : Option (BitVec 7)) : State := { s with i3c := { s.i3c with addr := a } }
    match c with
    | .entdaa a => if s.i3c.addr.isNone then put (some a) else s
    | .setdasa st a => if s.i3c.addr.isNone && st == s.config.i3cAddr then put (some a) else s
    | .setnewda a => if s.i3c.addr.isSome then put (some a) else s
    | .rstdaa => put none
    | .other => s

/-- A TAP instruction (R508): EXTEST, CLAMP and HIGHZ act only while RST_N is low, and otherwise as BYPASS. -/
def State.tapLoad (s : State) (i : TapInstr) : State :=
  let i := match i with
    | .extest => if s.power.rstLow then i else .bypass
    | .clamp => if s.power.rstLow then i else .bypass
    | .highz => if s.power.rstLow then i else .bypass
    | _ => i
  { s with tap := { s.tap with instr := i } }

/-- IDCODE: 0x0960_00B7 with the revision in bits [31:28]. -/
def State.tapIdcode (s : State) : State :=
  let s := s.tapLoad .idcode
  { s with tap := { s.tap with out := BitVec.ofNat 32 (0x096000B7 + Config.dieRev.toNat * 2 ^ 28) } }

/-- SAMPLE/PRELOAD: the pins of the chain are sampled and its cells loaded. -/
def State.tapSample (s : State) (pins cells : BitVec 24) : State :=
  let s := s.tapLoad .samplePreload
  { s with tap := { s.tap with sampled := pins, cells := cells } }

end Sys2Proof.Machine
end

