-- ==== Sys2Proof/Machine/Registers.lean ====
section
/-! DEFINITION. What a register reads as (R514 to R526): the common registers, and the fields of every page that show a unit's state; then
the effects of reads (R15, R526). -/

namespace Sys2Proof.Machine

/-! ## Where a page's registers are (R140, R166, R213, R249) -/

/-- The registers of a per-prism page that show the state of the shade its prism leads. -/
def shadeReg (k : PageKind) (off : Nat) : Bool :=
  match k with
  | .lant => decide (0x100 ≤ off) && decide (off < 0x138)
  | .safe => decide (0x104 ≤ off) && decide (off < 0x130)
  | .speckle => decide (0x100 ≤ off) && decide (off < 0x110)
  | .mask => decide (0x100 ≤ off) && decide (off < 0x114)
  | _ => false

/-- What stands behind a register: the page's own storage, the state of the shade that its prism leads, or nothing. -/
inductive View where
  | own
  | shade (sh : ShadeIx)
  | none
  deriving DecidableEq, Repr

/-- The shade that a physical prism leads. -/
def State.leads (s : State) (p : Nat) : Option ShadeIx :=
  match s.shadeOfPrism p with
  | some sh => if s.l2p (s.leadL sh) = some p then some sh else none
  | none => none

def State.view (s : State) (pg : PageId) (off : Nat) : View :=
  if shadeReg pg.kind off then match s.leads pg.inst with
    | some sh => .shade sh
    | none => .none
  else .own

/-- The instance under which a register is kept. -/
def View.home (v : View) (inst : Nat) : Nat :=
  match v with
  | .shade sh => shInst sh
  | _ => inst

/-! ## Common registers (R522 to R524) -/

/-- The owner a page shows (R523). -/
def State.blkOwner (s : State) (pg : PageId) : Nat :=
  if pg.kind.perPrism then s.ownerP (pg.kind.prismOf pg.inst)
  else if pg.kind = .agq then s.ownerQ pg.inst
  else if pg.kind.perShade then pg.inst
  else 0xFE

/-- The highest event of a page's counter table. -/
def PageKind.maxEvent : PageKind → Nat
  | .tile => 0xD | .stencil => 0xC | .mask => 0xB | .safe => 9 | .lens => 0xA | .focus => 0xA | .speckle => 6 | .lant => 0xB
  | .scratch => 8 | .beam => 8 | .bulk => 8 | .memctl => 7 | .tstate => 8 | .pattern => 5 | .jorx => 0xF | .jport => 0xF
  | .jshade => 0xF | .replay => 0xA | .shcfg => 8 | .bcnTgt => 7 | .scrub => 4 | .agq => 7 | .agqm => 7 | .health => 0xC
  | .dimmer => 0xC | .boot => 6 | .device => 9 | .maint => 9 | .mailbox => 9
  | .mem => 0 | .noise => 0 | .beacon => 0 | .jorxRt => 0

/-- The page can appear in a VF view (R518). -/
def PageKind.inVf (k : PageKind) : Bool := k.perPrism || k.perShade || k == .device || k == .bcnTgt || k == .agq

/-- BLK_CAP (R522). -/
def PageKind.cap (k : PageKind) : Nat :=
  8 + 16 + b2n k.inVf * 32 + b2n k.perShade * 64 + b2n (!k.inject.isEmpty) * 128 + k.maxEvent * 256

/-- BLK_REV (R522). -/
def PageKind.rev (k : PageKind) : Nat := (Config.blkRev k.typeCode).toNat + Config.dieRev.toNat * 2 ^ 16

/-- BLK_STATUS (R523). -/
def State.blkStatus (s : State) (pg : PageId) : Nat :=
  s.getF pg.kind pg.inst 0x14 0 0 + b2n (s.frozen pg.kind pg.inst) * 2 + b2n (decide (s.blkOwner pg < 16)) * 4

/-! ## Registers of units -/

/-- A number whose bit i is f i, for i below n. -/
def bitsFrom (n : Nat) (f : Nat → Bool) : Nat := ((List.range n).map fun i => b2n (f i) * 2 ^ i).foldl (· + ·) 0

/-- TILE_ARRAY_STATUS (R82). -/
def State.tileStatus (s : State) (i : Nat) : Nat :=
  let t := s.tiles.get tileDefault i
  let pr (p : Nat) : ProbSt := (t.probs.toList[p]?).getD ProbSt.reset
  let bank (p : Nat) : Bool := match (pr p).opened with
    | some x => x.bank
    | none => (pr p).nextBank
  let fast := (List.range 4).any fun p => match (pr p).opened with
    | some x => x.fast
    | none => false
  bitsFrom 4 (fun p => (pr p).opened.isSome) + bitsFrom 4 (fun p => !(pr p).closed.isEmpty) * 2 ^ 4 + t.pack % 4 * 2 ^ 8 + b2n fast * 2 ^ 10
  + s.getF .tile i 0x108 0 0 * 2 ^ 11 + bitsFrom 4 bank * 2 ^ 12

/-- STENCIL_STATUS (R109): a group stage is copied within one step of the model. -/
def State.stencilStatus (s : State) (i : Nat) : Nat :=
  bitsFrom 4 fun p => !(((s.tiles.get tileDefault i).probs.toList[p]?).getD ProbSt.reset).groups.isEmpty

/-- Whole-device mode (R420). -/
def State.whole (s : State) : Bool :=
  s.enabled 0 && ((List.finRange 16).all fun sh => sh == 0 || !s.enabled sh) && (s.logicalOf 0).length == 48 && s.leadL 0 == 0

/-- LANT_STATUS (R249). -/
def State.lantStatus (s : State) (sh : ShadeIx) : Nat :=
  let x := s.sh sh
  b2n x.lan.halted + b2n x.idle * 2 + b2n x.lan.waitSince.isSome * 4 + b2n x.lan.yielding.isSome * 8 + b2n (s.whole && sh == 0) * 16
  + bitsFrom 4 (fun i => match x.lan.loops.toList[i]? with
      | some l => l.active
      | none => false) * 32 + b2n x.lan.rep.isSome * 512

/-- The registers of a LANT page. -/
def State.lantReg (s : State) (sh : ShadeIx) (off : Nat) : Nat :=
  let l := (s.sh sh).lan
  let tok (j : Nat) : Bool := match l.tok.toList[j]? with
    | some t => t != 0
    | none => false
  let frame (j : Nat) : Bool := match l.frames.toList[j]? with
    | some f => f.valid
    | none => false
  match off with
  | 0x104 => s.lantStatus sh
  | 0x108 => l.pc.toNat
  | 0x11C => bitsFrom 32 tok
  | 0x120 => bitsFrom 32 fun j => tok (32 + j)
  | 0x124 => bitsFrom 32 frame
  | 0x128 => bitsFrom 32 fun j => frame (32 + j)
  | _ => s.getR .lant (shInst sh) off

/-- An operation of the shade runs in its unit. -/
def ShadeSt.runs (x : ShadeSt) (f : QOp → Bool) : Bool := x.running.any fun r => !r.done && f r.q

/-- A running operation of the shade that owns a prism. -/
def State.prismRuns (s : State) (p : Nat) (f : QOp → Bool) : Bool :=
  match s.shadeOfPrism p with
  | some sh => (s.sh sh).runs f
  | none => false

def QOp.isLens (q : QOp) (slot : Nat) (upd : Bool) : Bool :=
  match q.op with
  | .lens o _ => q.slot == slot && (!upd || o == .update)
  | _ => false

def QOp.isFocus (q : QOp) : Bool :=
  match q.op with
  | .focus _ _ => true
  | _ => false

def QOp.isUmbra (q : QOp) : Bool :=
  match q.op with
  | .spk (.umbra _) => true
  | _ => false

/-- The mask object of a mask operation. -/
def QOp.onMask (q : QOp) (mo : Nat) : Bool :=
  match q.op with
  | .mask (.prune m _ _) => m.toNat == mo
  | .mask (.grow m _ _) => m.toNat == mo
  | .mask (.mcommit m) => m.toNat == mo
  | .mask (.mirrorBuild m _ _) => m.toNat == mo
  | .mask (.silh m _ _ _) => m.toNat == mo
  | _ => false

/-- The Beam of an operation of slots 9 to 11. -/
def QOp.onBeam (q : QOp) (b : Nat) : Bool :=
  match q.op with
  | .beam (.copy k _ _ _ _) => k.toNat == b
  | .beam (.scrub k _ _ _) => k.toNat == b
  | _ => false

/-- LENS_STATUS (R193). -/
def State.lensStatusReg (s : State) (p : Nat) : Nat :=
  let st := s.getR .lens p 0x100
  b2n (s.prismRuns p fun q => q.isLens 5 false) + b2n (s.prismRuns p fun q => q.isLens 6 false) * 2 + bitsOf st 7 2 * 4 + bitsOf st 13 8 * 256
  + b2n (s.prismRuns p fun q => q.isLens 5 true) * 2 ^ 14 + b2n (s.prismRuns p fun q => q.isLens 6 true) * 2 ^ 15

/-- The registers of a MASK page: those of the object that MASK_SEL names (R140). -/
def State.maskReg (s : State) (sh : ShadeIx) (off : Nat) : Nat :=
  let mo := s.getF .mask (shInst sh) 0x100 5 0
  let m := s.maskOf sh mo
  match off with
  | 0x104 => b2n m.cur + b2n m.built * 2 + b2n m.edited * 4 + b2n m.pend * 8 + b2n m.copy * 16 + b2n m.retired * 32
      + b2n (((s.sh sh).queue.any fun q => q.onMask mo) || (s.sh sh).runs fun q => q.onMask mo) * 64
  | 0x108 => m.epoch.toNat
  | 0x10C => m.present.toNat
  | _ => s.getR .mask (shInst sh) off

/-- BEAM_STATUS (R307). -/
def State.beamStatus (s : State) (p : Nat) : Nat :=
  let fill (b : Nat) : Nat := match s.shadeOfPrism p with
    | some sh => min 15 ((s.sh sh).queue.filter fun q => q.onBeam b).length
    | none => 0
  bitsFrom 4 (fun b => s.prismRuns p fun q => q.onBeam b) + fill 0 * 2 ^ 8 + fill 1 * 2 ^ 12 + fill 2 * 2 ^ 16 + fill 3 * 2 ^ 20

/-- TS_PHASE_k: the accumulator, with the time of the phase in force so far (R332, R335). -/
def State.phaseReg (s : State) (sh : ShadeIx) (off : Nat) : Nat :=
  let k := (off - 0x140) / 8
  let f := (s.sh sh).saf
  let live := f.phaseSpent + (if (s.sh sh).lan.halted then 0 else s.tb.toNat - f.phaseAt)
  let v := (s.getR64 .tstate sh.val (0x140 + 8 * k) + if f.phase.toNat = k then live else 0) % 2 ^ 64
  if (off - 0x140) % 8 = 0 then v % 2 ^ 32 else v / 2 ^ 32

/-- REPLAY_CTRL and REPLAY_STATUS (R416). -/
def State.replayReg (s : State) (sh : ShadeIx) (off : Nat) : Nat :=
  let r := (s.sh sh).rep
  match off with
  | 0x100 => s.getF .replay sh.val 0x100 0 0 + b2n r.preemptReq * 2 + b2n r.forceReq * 4
      + b2n (match r.rolling with
        | some x => x.trigger == 2
        | none => false) * 8
  | 0x104 => b2n r.preempted + b2n r.rolling.isSome * 2 + b2n r.replaying * 4 + b2n r.hold * 8 + b2n r.record.isSome * 16
      + b2n (r.record.isSome && r.newest) * 32 + min 15 r.rbCount * 64
  | 0x110 => r.epoch.toNat % 2 ^ 32
  | 0x114 => r.epoch.toNat / 2 ^ 32
  | _ => s.getR .replay sh.val off

/-- The registers of a SHCFG page (R425). -/
def State.shcfgReg (s : State) (sh : ShadeIx) (off : Nat) : Nat :=
  let l := s.logicalOf sh
  match off with
  | 0x104 => (s.sh sh).life % 4 + b2n (s.whole && sh == 0) * 4 + l.length * 8 + s.getF .shcfg sh.val 0x104 31 16 * 2 ^ 16
  | 0x108 => bitsFrom 32 fun j => l.contains j
  | 0x10C => bitsFrom 16 fun j => l.contains (32 + j)
  | 0x114 => (s.unitsOf false sh.val).length + (s.unitsOf true sh.val).length * 2 ^ 16
  | _ => s.getR .shcfg sh.val off

/-- BCN_SRC_n (R437). -/
def State.srcReg (s : State) (n : Nat) : Nat :=
  let act := s.bcn.act.find? fun a => a.1 == n
  s.getF .beacon 0 (0x100 + 4 * n) 8 0 + b2n (s.bcn.pend.contains n) * 2 ^ 9 + b2n act.isSome * 2 ^ 10 + (match act with
    | some a => a.2
    | none => 0) * 2 ^ 11

/-- The source that offset 0x300 + 4k of a target's page shows (R437). -/
def aliasSrc (t off : Nat) : Option Nat := if 3 ≤ t ∧ 0x300 ≤ off ∧ off < 0x340 then some (0x020 + 16 * (t - 3) + (off - 0x300) / 4) else none

/-- The registers of a BCN_TGT page (R437): BCN_IDLE of a Warden core shows whether the core waits, which is free. -/
def State.targetReg (s : State) (t off : Nat) : Nat :=
  if off = 0x104 then s.bcnRun t + s.bcnD t * 16
  else if off = 0x114 ∧ t < 2 then (Config.freeWord s.fresh).toNat % 2
  else if 0x180 ≤ off ∧ off < 0x1E0 then bitsFrom 32 fun j => s.bcn.pend.contains (8 * (off - 0x180) + j) && s.bcnTarget (8 * (off - 0x180) + j) == t
  else if 0x200 ≤ off ∧ off < 0x260 then
    bitsFrom 32 fun j => (s.bcn.act.any fun a => a.1 == 8 * (off - 0x200) + j) && s.bcnTarget (8 * (off - 0x200) + j) == t
  else match aliasSrc t off with
    | some n => s.srcReg n
    | none => s.getR .bcnTgt t off

/-- The bytes of a packet's cells, in words of 8 (R448). -/
def Packet.cellWords (p : Packet) : List W64 := p.words ++ List.replicate (8 * p.cells - p.words.length) 0

/-- AGQ_STATUS (R454). -/
def State.agqStatus (s : State) (q : Nat) : Nat :=
  let x := s.agQ q
  x.held + b2n (x.held == 0) * 2 ^ 17 + b2n (!mayTake (s.agMin q) (s.agMax q) (s.agMissing q) x.held s.agFree) * 2 ^ 18

/-- The registers of an AGQ page (R455, R461). -/
def State.agqReg (s : State) (q off : Nat) : Nat :=
  if off = 0x104 then s.agqStatus q
  else if off = 0x108 then (match (s.agQ q).packets with
    | p :: _ => p.pseq.toNat
    | [] => (s.agQ q).nextSeq.toNat)
  else if 0x800 ≤ off then
    let ws := (s.agQ q).packets.flatMap Packet.cellWords
    let w := ((ws[(off - 0x800) / 8]?).getD 0).toNat
    if off % 8 = 0 then w % 2 ^ 32 else w / 2 ^ 32
  else s.getR .agq q off

/-- HL_STATUS (R485): the fields beside FATAL show what boot's self-test and what followed it leave. -/
def State.hlStatus (s : State) : Nat :=
  let vac := ((List.range 48).filter fun n => (s.l2p n).isNone).length
  let spares := ((List.range 52).filter fun p => s.prismState p == 1 && s.bitR .health 0 (hlPrism p) 20).length
  let up := ((List.range 52).filter fun p => s.prismState p == 0 && bitsOf (s.getR .health 0 (hlPrism p)) 7 2 != 0x3F).length
  s.getF .health 0 0x204 0 0 + (if s.stage = 5 ∨ s.stage = 6 then vac * 2 + min 7 spares * 2 ^ 7 + b2n (decide (up < 48)) * 2 ^ 10 else 0)

/-- The registers of the HEALTH page. -/
def State.healthReg (s : State) (off : Nat) : Nat :=
  if 0x100 ≤ off ∧ off < 0x1D0 then putBits (s.getR .health 0 off) 11 8 (min 15 (s.recentFaults ((off - 0x100) / 4)).length)
  else if off = 0x204 then s.hlStatus
  else if off = 0x214 then s.getF .health 0 0x214 1 1 * 2 + b2n s.stPaused
  else s.getR .health 0 off

/-- DIM_STATUS and DIM_SENS (R486). -/
def State.dimmerReg (s : State) (off : Nat) : Nat :=
  match off with
  | 0x108 => s.fstep + s.dim.gate % 16 * 32 + b2n (decide (0 < s.dim.thermal)) * 2 ^ 9 + b2n (decide (0 < s.dim.power)) * 2 ^ 10
      + b2n (decide (0 < s.dim.current)) * 2 ^ 11 + b2n s.dim.target.isSome * 2 ^ 12 + b2n s.vrmCap * 2 ^ 13
  | 0x120 => s.health.sensors.get (fun _ => 0) (s.getF .dimmer 0 0x11C 7 0)
  | _ => s.getR .dimmer 0 off

/-- SCRUB_STATUS (R444). -/
def State.scrubStatus (s : State) : Nat :=
  let h := (s.dirtyUnits false).length
  let d := (s.dirtyUnits true).length
  h + d * 2 ^ 10 + b2n (!s.scrubs.isEmpty) * 2 ^ 20
  + b2n (decide (0 < h + d) && !((List.range 8).any fun b => s.bulkOwner b == 0xFE)) * 2 ^ 21

/-- JORX_CTRL and JORX_PEER (R385): SWAP and SNAP stay set while their collective runs here at the root. -/
def State.jorxReg (s : State) (off : Nat) : Nat :=
  match off with
  | 0x110 => s.getR .jorx 0 0x110 + b2n (s.mgmtRoot && s.jorx.mgmt.running == some .swap) * 2
      + b2n (s.mgmtRoot && s.jorx.mgmt.running == some .snap) * 4
  | 0x130 => (match s.peer (s.getF .jorx 0 0x12C 13 0) with
    | some p => p.epoch.toNat + b2n p.alive * 2 ^ 16 + 2 ^ 17
    | none => 0)
  | _ => s.getR .jorx 0 off

/-- The registers of the DEVICE page (R525): VF_PWIN is the VF's own. -/
def State.deviceReg (s : State) (path : Path) (off : Nat) : Nat :=
  match off with
  | 0x100 => 0x9600 + Config.dieRev.toNat * 2 ^ 16 + b2n Config.gradeE * 2 ^ 20
  | 0x104 => Config.serial.toNat % 2 ^ 32
  | 0x108 => Config.serial.toNat / 2 ^ 32
  | 0x110 => s.tb.toNat % 2 ^ 32
  | 0x114 => s.tb.toNat / 2 ^ 32
  | 0x118 => bitsFrom 16 (fun i => s.bitR .shcfg i 0x100 0) + bitsFrom 16 (fun i => match s.shades.toList[i]? with
      | some x => !x.lan.halted
      | none => false) * 2 ^ 16
  | 0x120 => (match path with
    | .vf v => s.pwin v
    | _ => 0)
  | _ => s.getR .device 0 off

/-- A block-specific register, or a counter's select or value, of a page that answers. -/
def State.pageReg (s : State) (path : Path) (pg : PageId) (off : Nat) : Nat :=
  let i := pg.inst
  if off < 0x100 then s.getR pg.kind i off
  else match s.view pg off with
    | .none => if pg.kind = .lant ∧ (s.shadeOfPrism i).isNone then (regDefault (rkey .lant i off)).toNat else 0
    | .shade sh => (match pg.kind with
      | .lant => s.lantReg sh off
      | .mask => s.maskReg sh off
      | .safe => if off = 0x128 then s.getF .safe (shInst sh) 0x128 0 0 + b2n ((s.sh sh).runs QOp.isUmbra) * 2 else s.getR .safe (shInst sh) off
      | .speckle => if off = 0x108 then s.getF .speckle (shInst sh) 0x108 0 0 + (s.sh sh).saf.fresh.length * 2 else s.getR .speckle (shInst sh) off
      | _ => 0)
    | .own => (match pg.kind with
      | .device => s.deviceReg path off
      | .health => s.healthReg off
      | .dimmer => s.dimmerReg off
      | .maint => if path = .i3c ∧ off = 0x100 then s.getR .maint 1 0x100
          else if off = 0x114 then (if s.maintBusy then (Config.freeWord s.fresh).toNat % 1001 else 0) else s.getR .maint 0 off
      | .bulk => if off = 0x108 then bitsFrom 8 s.bulkBusy else s.getR .bulk 0 off
      | .scrub => if off = 0x104 then s.scrubStatus else s.getR .scrub 0 off
      | .beacon => s.srcReg ((off - 0x100) / 4)
      | .bcnTgt => s.targetReg i off
      | .agq => s.agqReg i off
      | .shcfg => s.shcfgReg (shadeOf i) off
      | .tstate => if 0x140 ≤ off ∧ off < 0x170 then s.phaseReg (shadeOf i) off else s.getR .tstate i off
      | .replay => s.replayReg (shadeOf i) off
      | .jorx => s.jorxReg off
      | .tile => if off = 0x100 then s.tileStatus i else s.getR .tile i off
      | .stencil => if off = 0x100 then s.stencilStatus i else s.getR .stencil i off
      | .lens => if off = 0x100 then s.lensStatusReg i else s.getR .lens i off
      | .focus => if off = 0x100 then s.getF .focus i 0x100 1 1 * 2 + b2n (s.prismRuns i QOp.isFocus) else s.getR .focus i off
      | .safe => if off = 0x100 then putBits (s.getR .safe i 0x100) 31 24 (match s.shadeOfPrism i with
          | some sh => ((s.sh sh).saf.umbra.filter fun e => e.prism == i).length
          | none => 0) else s.getR .safe i off
      | .beam => if off = 0x100 then s.beamStatus i else s.getR .beam i off
      | k => s.getR k i off)

/-- Registers that a VF's page 0x00 does not show: counters, and block-specific ones but the identity, the timebase and VF_PWIN (R520,
R525). -/
def hiddenReg (path : Path) (k : PageKind) (off : Nat) : Bool :=
  match path with
  | .vf _ => k == .device && decide (0x40 ≤ off) && !([0x100, 0x104, 0x108, 0x10C, 0x110, 0x114, 0x120].contains off)
  | _ => false

/-- What a register reads as on a path: before READY, and during a shade reset, pages that do not answer read their reset values (R441,
R500); reserved offsets read 0 (R521). -/
def State.regValue (s : State) (path : Path) (pg : PageId) (off : Nat) : Nat :=
  if hiddenReg path pg.kind off then 0
  else if off = 0 then pg.blkId
  else if off = 4 then pg.kind.rev
  else if off = 8 then pg.kind.cap
  else if !s.answers path pg.kind || s.pageResets pg then
    (if off = 0xC then (if pg.kind.perPrism || pg.kind == .agq then 0xFF else s.blkOwner pg) else (regDefault (rkey pg.kind pg.inst off)).toNat)
  else if off = 0xC then s.blkOwner pg
  else if off = 0x14 then s.blkStatus pg
  else if off < 0x40 then s.getR pg.kind pg.inst off
  else if (fieldsAt pg.kind off).isNone && !(pg.kind == .bcnTgt && (aliasSrc pg.inst off).isSome) then 0
  else s.pageReg path pg off

/-! ## What a read does (R15, R526) -/

/-- RC fields of a register clear. -/
def State.readClears (s : State) (pg : PageId) (off : Nat) : State :=
  match fieldsAt pg.kind off with
  | some fs =>
    let m := (fs.filter fun f => f.acc == .rc).foldl (fun a f => a + f.mask) 0
    if m = 0 then s else s.clrR pg.kind ((s.view pg off).home pg.inst) off m
  | none => s

/-- A register whose value is free uses a free value up. -/
def State.readTicks (s : State) (pg : PageId) (off : Nat) : State :=
  if (pg.kind = .maint ∧ off = 0x114 ∧ s.maintBusy) ∨ (pg.kind = .bcnTgt ∧ off = 0x114 ∧ pg.inst < 2) then s.tick else s

/-- The latch of a path (R526). -/
def latchKey : Path → Nat
  | .pf => 0
  | .i3c => 1
  | .firmware => 2
  | .vf v => 3 + v.val

def noLatch (_ : Nat) : Option W32 := none

def State.setLatch (s : State) (path : Path) (v : Option W32) : State :=
  { s with host := { s.host with tbLatch := s.host.tbLatch.set noLatch (latchKey path) v } }

/-- One 4 B read: the value, and what it leaves. -/
def State.read4 (s : State) (path : Path) (pg : PageId) (off : Nat) : Nat × State :=
  let v := s.regValue path pg off
  if pg.kind = .device ∧ off = 0x110 then (v, s.setLatch path (some (BitVec.ofNat 32 (s.tb.toNat / 2 ^ 32))))
  else if pg.kind = .device ∧ off = 0x114 then
    ((match s.host.tbLatch.get noLatch (latchKey path) with
      | some x => x.toNat
      | none => v), s.setLatch path none)
  else if !s.answers path pg.kind || s.pageResets pg || hiddenReg path pg.kind off then (v, s)
  else (v, (s.readClears pg off).readTicks pg off)

/-- A register read of 4 or 8 B as it is served: its data. An 8 B read covers two registers of one instant, and latches nothing. -/
def State.readPage (s : State) (path : Path) (pg : PageId) (off : Nat) (wide : Bool) : State :=
  let s := s.count .device 0 1 1
  let data (s : State) (v : Nat) : State := { s with host := { s.host with readData := BitVec.ofNat 64 v, readUR := false } }
  if wide then
    let lo := s.regValue path pg off
    let hi := s.regValue path pg (off + 4)
    let quiet := !s.answers path pg.kind || s.pageResets pg
    data (if quiet then s else if hiddenReg path pg.kind off then s else ((s.readClears pg off).readClears pg (off + 4)).readTicks pg off) (lo + 2 ^ 32 * hi)
  else
    let r := s.read4 path pg off
    data r.2 r.1

/-- An access counted in DEV_BADACC (R514, R517, R532). -/
def State.badAccess (s : State) : State := (s.satAdd .device 0 0x11C 31 0 1).count .device 0 3 1

/-- A size and alignment that R514 allows: whether the access is 8 B. -/
def accWide (a : RegAddr) : Option Bool :=
  match a.size with
  | .b4 => if a.off.toNat % 4 = 0 then some false else none
  | .b8 => if a.off.toNat % 8 = 0 then some true else none
  | .other => none

/-- A register read on a path by address (R514, R517). -/
def State.regRead (s : State) (path : Path) (a : RegAddr) : State :=
  let n := a.off.toNat / 4096
  match s.pathPage path n with
  | none => if s.pathUp path .device then
      { s.badAccess with host := { s.host with readData := 0, readUR := (accWide a).isNone } } else s
  | some pg =>
    if !s.pathUp path pg.kind then s
    else match accWide a with
      | none => { s.badAccess with host := { s.host with readData := 0, readUR := true } }
      | some w => s.readPage path pg (a.off.toNat % 4096) w

end Sys2Proof.Machine
end

