-- ==== Sys2Proof/Machine/RegWrite.lean ====
section
/-! DEFINITION. What a register write does (R15, R514 to R532): access codes, reserved bits, values and offsets, fields that accept writes
only in some states, and the registers whose writes act on a unit. -/

namespace Sys2Proof.Machine

/-! ## Access codes and reserved values (R15, R521) -/

/-- The bits that fields name. -/
def fieldBits (fs : List Field) : Nat := fs.foldl (fun a f => a ||| f.mask) 0

/-- A write has a 1 in a bit that no field names. -/
def rsvdBits (fs : List Field) (v : Nat) : Bool := v - (v &&& fieldBits fs) != 0

/-- What a write of v leaves of a field of a register that held w: W1S and WO fields act, and hold nothing here. -/
def Field.written (f : Field) (w v : Nat) : Nat :=
  match f.acc with
  | .rw => putBits w f.hi f.lo (bitsOf v f.hi f.lo)
  | .w1c => w - (w &&& (v &&& f.mask))
  | _ => w

/-- Number of a register in an array, and its offset within the stride. -/
def slotOf (off base stride : Nat) : Nat × Nat := ((off - base) / stride, (off - base) % stride)

/-- A value that the rule of a field does not allow: such a field stays as it is (R166, R335, R352, R385, R416, R425, R461, R485, R486). -/
def reservedValue (k : PageKind) (off lo v : Nat) : Bool :=
  match k with
  | .safe => off == 0x10C && lo == 0 && decide (24 < v) && decide (v < 56)
  | .tstate => decide (0x200 ≤ off) && decide (off < 0x400) && off % 0x20 == 0 && lo == 1 && decide (2 ≤ v)
  | .pattern => decide (off < 0x300) && (off - 0x100) % 0x20 == 0x10 && lo == 16 && decide (64 < v)
  | .replay => off == 0x108 && (decide (v < 100) || decide (10000 < v))
  | .jorx => off == 0x114 && lo == 0 && decide (0x14 ≤ v) && decide (v < 0x1F)
  | .jorxRt => lo == 21 && v == 3
  | .agqm => decide (0x180 ≤ off) && decide (off < 0x1C0) && v != 0 && (decide (v < 4) || decide (20 < v))
  | .health =>
    (off == 0x200 && lo == 0 && (v == 0 || decide (10000 < v))) || (off == 0x200 && lo == 16 && decide (v < 2))
    || (off == 0x210 && (v == 0 || decide (20 < v)))
  | .dimmer =>
    (off == 0x100 && lo == 0 && (decide (v < 70) || decide (100 < v))) || (off == 0x100 && lo == 7 && v == 0)
    || (off == 0x100 && lo == 11 && decide (22 < v)) || (off == 0x104 && lo == 0 && decide (1400 < v))
    || (off == 0x104 && lo == 11 && decide (1650 < v)) || (off == 0x11C && decide (239 < v))
  | .shcfg => off == 0x110 && ((lo == 0 && decide (288 < v)) || (lo == 16 && decide (960 < v)))
  | _ => false

/-- RW fields of a register accept no write now (R166, R213, R249, R335, R352, R385, R416, R425, R528); ORD_PAD 15 never does. -/
def State.locked (s : State) (pg : PageId) (off : Nat) : Bool :=
  let sh := shadeOf pg.inst
  let running (sh : ShadeIx) : Bool := !(s.sh sh).lan.halted
  decide (0x100 ≤ off) && match pg.kind with
  | .lant => (match s.leads pg.inst with
      | some l => running l && decide (0x108 ≤ off)
      | none => true)
  | .safe => (off == 0x120 || off == 0x124) && (match s.leads pg.inst with
      | some l => running l
      | none => true)
  | .speckle => (match s.leads pg.inst with
      | some l => running l
      | none => true)
  | .tstate => !(s.sh sh).haltedIdle
  | .pattern => !(s.sh sh).haltedIdle
  | .replay => !(s.sh sh).haltedIdle || off == 0x33C
  | .jshade => decide (off < 0x180) && !(s.sh sh).haltedIdle
  | .shcfg => (off == 0x11C || off == 0x120) && !s.quiet sh
  | .maint => decide (0x108 ≤ off) && decide (off ≤ 0x110) && s.maintBusy && (s.activity == 1 || s.activity == 6)
  | _ => false

/-- A write of a register with no action of its own: each field by its access code; refused fields stay, and RSVD_WR tells of them and of
reserved bits. A reserved offset refuses the write. -/
def State.plainWrite (s : State) (pg : PageId) (off v : Nat) : State :=
  match fieldsAt pg.kind off with
  | none => s.rsvdWr pg.kind pg.inst
  | some fs =>
    let home := (s.view pg off).home pg.inst
    let bad (f : Field) : Bool := f.acc == .rw && (s.locked pg off || reservedValue pg.kind off f.lo (bitsOf v f.hi f.lo))
    let w := fs.foldl (fun w f => if bad f then w else f.written w v) (s.getR pg.kind home off)
    let refused := fs.any bad || rsvdBits fs v
    let s := s.setR pg.kind home off w
    if refused then s.rsvdWr pg.kind pg.inst else s

/-- The action of a register, and RSVD_WR when the write has a 1 in a reserved bit. -/
def State.actWrite (s : State) (pg : PageId) (off v : Nat) (f : State → State) : State :=
  let s := f s
  match fieldsAt pg.kind off with
  | some fs => if rsvdBits fs v then s.rsvdWr pg.kind pg.inst else s
  | none => s

/-- Do one thing if a bit is written as 1. -/
def State.onBit (s : State) (v i : Nat) (f : State → State) : State := if bitOf v i then f s else s

/-! ## Common registers (R457, R523) -/

/-- A counter select: its counter starts from 0. QUAL is reserved outside SCRATCH, and CHAIN on even counters. -/
def State.selectWrite (s : State) (k : PageKind) (inst i v : Nat) : State :=
  let qual := k != .scratch && bitsOf v 15 8 != 0
  let chain := i % 2 == 0 && bitOf v 17
  let w := bitsOf v 7 0 + (if qual then 0 else bitsOf v 15 8) * 2 ^ 8 + bitsOf v 16 16 * 2 ^ 16 + (if chain then 0 else bitsOf v 17 17) * 2 ^ 17
    + bitsOf v 18 18 * 2 ^ 18
  let s := (s.setR k inst (0x40 + 4 * i) w).clearCounter k inst i
  if qual || chain || decide (2 ^ 19 ≤ v) then s.rsvdWr k inst else s

/-- BLK_CTRL: RSVD_CLR before what the write itself breaches. -/
def State.ctrlWrite (s : State) (k : PageKind) (inst v : Nat) : State :=
  let s := s.onBit v 0 fun s => s.clrR k inst 0x14 1
  let s := s.onBit v 1 fun s => s.clearCounters fun k' i => k' == k && i == inst
  if 4 ≤ v then s.rsvdWr k inst else s

/-! ## Shades -/

/-- LEAD and FUNC accept writes while EN = 0; a write that repeats them is none (R420, R425). -/
def State.leadWrite (s : State) (sh : ShadeIx) (v : Nat) : State :=
  let lead := bitsOf v 9 4
  let same := lead == s.leadL sh && bitsOf v 3 3 == s.getF .shcfg sh.val 0x100 3 3
  if same then s
  else if s.enabled sh then s.rsvdWr .shcfg sh.val
  else
    let s := s.setF .shcfg sh.val 0x100 3 3 (bitsOf v 3 3)
    if 48 ≤ lead then s.rsvdWr .shcfg sh.val else s.setF .shcfg sh.val 0x100 9 4 lead

/-- SH_CTRL (R420, R441, R442): EN = 0 acts as KILL. -/
def State.shCtrlWrite (s : State) (sh : ShadeIx) (v : Nat) : State :=
  let s := s.leadWrite sh v
  let s := if bitOf v 2 || !bitOf v 0 then (if bitOf v 2 || s.enabled sh then s.shadeKill sh else s) else s.shadeEnable sh
  s.onBit v 1 fun s => s.shadeResetWrite sh

/-- The sum of a weight over the other EXCL shades, with what a shade would add. -/
def State.exclSum (s : State) (sh : ShadeIx) (hi lo mine : Nat) : Nat :=
  mine + (((List.range 16).filter fun t => t != sh.val && s.bitR .shcfg t 0x118 14).map fun t => s.getF .shcfg t 0x118 hi lo).foldl (· + ·) 0

/-- SH_QOS (R428, R429). -/
def State.qosWrite (s : State) (sh : ShadeIx) (v : Nat) : State :=
  let old := s.bitR .shcfg sh.val 0x118 14
  let excl := if s.quiet sh then bitOf v 14 else old
  let bad := (excl && bitsOf v 13 12 != 0) || (!excl && bitsOf v 13 12 == 0)
    || (excl && (decide (12 < s.exclSum sh 3 0 (bitsOf v 3 0)) || decide (12 < s.exclSum sh 7 4 (bitsOf v 7 4))
      || decide (12 < s.exclSum sh 11 8 (bitsOf v 11 8))))
  let s' := if bad then s else s.setR .shcfg sh.val 0x118 (v % 2 ^ 14 + b2n excl * 2 ^ 14)
  if bad || excl != bitOf v 14 || decide (2 ^ 15 ≤ v) then s'.rsvdWr .shcfg sh.val else s'

/-- A window of a prism's tile scratch or pool (R277). -/
def State.windowWrite (s : State) (p off v : Nat) : State :=
  let free := match s.shadeOfPrism p with
    | some sh => (s.sh sh).haltedIdle
    | none => s.ownerP p == 0xFF
  let fits := match off with
    | 0x100 => decide ((bitsOf v 14 0 + bitsOf v 30 16) * 64 ≤ 2 ^ 20)
    | 0x104 => decide ((bitsOf v 16 0 + s.getF .scratch p 0x108 16 0) * 128 ≤ 0x7D0000)
    | _ => decide ((s.getF .scratch p 0x104 16 0 + bitsOf v 16 0) * 128 ≤ 0x7D0000)
  if free && fits then s.plainWrite ⟨.scratch, p⟩ off v else s.rsvdWr .scratch p

/-- BULK_OWNER: a field is taken while its Beam is idle; its present value is no write (R307). -/
def State.bulkOwnerWrite (s : State) (off v : Nat) : State :=
  (List.range 4).foldl (fun (s : State) k =>
    let b := off - 0x100 + k
    let o := bitsOf v (8 * k + 7) (8 * k)
    if o = s.bulkOwner b then s
    else if s.bulkBusy b || !(decide (o < 16) || o == 0xFE || o == 0xFF) then s.rsvdWr .bulk 0
    else s.setF .bulk 0 off (8 * k + 7) (8 * k) o) s

/-! ## Pattern entries (R339) -/

/-- Another enabled entry of the shade generates a mask object. -/
def State.patOther (s : State) (sh : ShadeIx) (n mo : Nat) : Bool :=
  (List.range 16).any fun m => m != n && bitOf (s.pat sh m 0) 0 && bitsOf (s.pat sh m 0) 6 1 == mo

/-- PAT_CTRL of entry n: EN = 1 binds its mask object, EN = 0 of an enabled entry unbinds it. -/
def State.patBind (s : State) (sh : ShadeIx) (n v : Nat) : State :=
  let old := s.pat sh n 0
  let mo := bitsOf v 6 1
  let learn := bitOf v 12
  let lmo := bitsOf v 24 19
  if !(s.sh sh).haltedIdle then s.rsvdWr .pattern sh.val
  else if bitOf v 0 && (s.patOther sh n mo || (learn && (lmo == mo || s.patOther sh n lmo))) then s.rsvdWr .pattern sh.val
  else
    let s := if bitOf old 0 then s.modMask sh (bitsOf old 6 1) fun _ => MaskSt.reset else s
    let s := if bitOf v 0 then s.modMask sh mo fun _ => { MaskSt.reset with epoch := 1, built := true } else s
    let s := s.setR .pattern sh.val (0x100 + 0x20 * n) (v % 2 ^ 25)
    let s := s.modSh sh fun x => { x with genTab := x.genTab.set (fun _ => none) n none }
    if 2 ^ 25 ≤ v then s.rsvdWr .pattern sh.val else s

/-- A register of the PATTERN page: the tables of a changed entry no longer stand (R342). -/
def State.patternWrite (s : State) (sh : ShadeIx) (off v : Nat) : State :=
  let x := slotOf off 0x100 0x20
  if 0x300 ≤ off ∨ off < 0x100 then s.plainWrite ⟨.pattern, sh.val⟩ off v
  else if x.2 = 0 then s.patBind sh x.1 v
  else (s.plainWrite ⟨.pattern, sh.val⟩ off v).modSh sh fun y => { y with genTab := y.genTab.set (fun _ => none) x.1 none }

/-! ## Replay, Lantern and training state -/

/-- REPLAY_CTRL (R413 to R416): ORDERED is RW; a write that repeats it is none. -/
def State.replayCtrlWrite (s : State) (sh : ShadeIx) (v : Nat) : State :=
  let s := if bitsOf v 0 0 = s.getF .replay sh.val 0x100 0 0 then s
    else if (s.sh sh).haltedIdle then s.setF .replay sh.val 0x100 0 0 (v % 2) else s.rsvdWr .replay sh.val
  ((s.onBit v 1 fun s => s.preempt sh).onBit v 2 fun s => s.force sh).onBit v 3 fun s => s.rollback sh

/-- A guard range's enable names memory-space code 0x8 to 0xC (R416). -/
def State.rangeWrite (s : State) (sh : ShadeIx) (off v : Nat) : State :=
  if bitOf v 0 && (decide (bitsOf v 4 1 < 8) || decide (12 < bitsOf v 4 1)) then s.rsvdWr .replay sh.val
  else s.plainWrite ⟨.replay, sh.val⟩ off v

/-- A register of the REPLAY page. -/
def State.replayWrite (s : State) (sh : ShadeIx) (off v : Nat) : State :=
  if off = 0x100 then s.actWrite ⟨.replay, sh.val⟩ off v fun s => s.replayCtrlWrite sh v
  else if 0x200 ≤ off ∧ off < 0x280 ∧ off % 16 = 0 then s.rangeWrite sh off v
  else s.plainWrite ⟨.replay, sh.val⟩ off v

/-- A register of a LANT page (R249). -/
def State.lantWrite (s : State) (p off v : Nat) : State :=
  match s.leads p with
  | none => if off < 0x100 ∨ 0x138 ≤ off then s.plainWrite ⟨.lant, p⟩ off v else s.rsvdWr .lant p
  | some sh =>
    match off with
    | 0x100 => s.actWrite ⟨.lant, p⟩ off v fun s => (s.onBit v 0 fun s => s.lantStart sh).onBit v 1 fun s => s.lantStop sh
    | 0x108 => s.actWrite ⟨.lant, p⟩ off v fun s =>
        if (s.sh sh).lan.halted then s.modLan sh fun l => { l with pc := BitVec.ofNat 14 v, rep := none } else s.rsvdWr .lant p
    | 0x134 => (s.plainWrite ⟨.lant, p⟩ off v).onBit v 6 fun s => s.bplByHost sh
    | _ => s.plainWrite ⟨.lant, p⟩ off v

/-- TILE_SLIT_CTRL takes effect in the states of R81. -/
def State.slitAllowed (s : State) (p : Nat) : Bool :=
  s.prismState p != 0 || !s.ready || (s.maintBusy && s.activity == 2 && (s.maint.subject == some p || s.maint.spare == some p))
  || (match s.shadeOfPrism p with
    | some sh => (s.sh sh).rep.window.contains p
    | none => false)

/-! ## Jorx (R363, R365, R373, R378, R385) -/

/-- SYNC_N follows the group that owns it: driven low from its enable, released when it has none (R378). -/
def State.syncFollow (before s : State) : State :=
  if s.syncGroup = before.syncGroup then s
  else s.modJorx fun j => { j with sync := ⟨s.syncGroup.isSome, s.tb.toNat, false⟩ }

/-- An enable of a group as it would stand is refused (R373, R378, R385, R424). The member on this device is this shade; which shade is
the member elsewhere no rule says, so some shade of SHADES must do there (DEDUCED). -/
def State.groupRefused (s : State) (sh : ShadeIx) (n v : Nat) : Bool :=
  let g : Grp := { s.grp sh n with en := true, sync := bitOf v 1, gid := bitsOf v 31 16 }
  let clash := (List.finRange 16).any fun r => (List.finRange 8).any fun m =>
    !(r == sh && m.val == n) && (s.grp r m.val).en && (s.grp r m.val).gid == g.gid
  let pn := s.getR .shcfg sh.val 0x11C
  let ps := s.getR .shcfg sh.val 0x120
  let outside := !bitOf pn 20 && !(decide (bitsOf pn 9 0 ≤ g.lo) && decide (g.hi ≤ bitsOf pn 19 10) && g.positions.all fun q => bitOf ps q)
    || bitsOf ps 31 16 == 0 || (g.member s.devId && !bitOf ps (16 + sh.val))
  let owner := s.getR .jorx 0 0x128
  let line := bitOf owner 7 && bitsOf owner 3 0 == sh.val && bitsOf owner 6 4 == n && g.lo == g.hi
  decide (g.hi < g.lo) || decide (g.root < g.lo) || decide (g.hi < g.root) || g.pos == 0 || !g.member s.devId || clash || outside
  || (g.sync && !line)

/-- JG_CTRL: an enable starts COUNT from 0; EN = 0 clears BROKEN, the collective number and what was kept under it. -/
def State.groupWrite (s : State) (sh : ShadeIx) (n v : Nat) : State :=
  let off := grpOff n
  let was := (s.grp sh n).en
  if !(s.sh sh).haltedIdle || (bitOf v 0 && s.groupRefused sh n v) then s.rsvdWr .jshade sh.val
  else
    let s' := s.plainWrite ⟨.jshade, sh.val⟩ off v
    let s' := if bitOf v 0 then (if was then s' else s'.setR .jshade sh.val (off + 0xC) 0)
      else (s'.clrR .jshade sh.val off 4).modColl sh fun c =>
        { c with
          next := c.next.set (fun _ => 0) n 0
          kept := c.kept.filter fun k => k.group.val != n
          gathers := c.gathers.filter fun k => k.group.val != n }
    s.syncFollow s'

/-- A register of a JSHADE page. -/
def State.jshadeWrite (s : State) (sh : ShadeIx) (off v : Nat) : State :=
  if 0x100 ≤ off ∧ off < 0x180 ∧ off % 16 = 0 then s.groupWrite sh ((off - 0x100) / 16) v else s.plainWrite ⟨.jshade, sh.val⟩ off v

/-- JORX_PANE (R363). -/
def State.paneWrite (s : State) (v : Nat) : State :=
  if s.idValid then s.rsvdWr .jorx 0
  else ((s.plainWrite ⟨.jorx, 0⟩ 0x104 v).modJorx fun j => { j with paneWritten := true }).idUpdate true

/-- JORX_CTRL (R367, R381, R383, R384). -/
def State.jorxCtrlWrite (s : State) (v : Nat) : State :=
  let s := s.setF .jorx 0 0x110 4 4 (bitsOf v 4 4)
  (((s.onBit v 0 fun s => s.joinStart).onBit v 1 fun s => s.mgmtStart .swap).onBit v 2 fun s => s.mgmtStart .snap).onBit v 3 fun s => s.aresetStart

/-- JORX_MGMT: a new parent clears LOCKED (R379). -/
def State.mgmtWrite (s : State) (v : Nat) : State :=
  let s' := s.plainWrite ⟨.jorx, 0⟩ 0x114 v
  if s'.parent = s.parent then s' else (s'.clrR .jorx 0 0x118 1).modJorx fun j => { j with parentSince := s.tb.toNat }

/-- A register of the JORX page. -/
def State.jorxWrite (s : State) (off v : Nat) : State :=
  match off with
  | 0x104 => s.paneWrite v
  | 0x110 => s.actWrite ⟨.jorx, 0⟩ off v fun s => s.jorxCtrlWrite v
  | 0x114 => s.mgmtWrite v
  | 0x128 => s.syncFollow (s.plainWrite ⟨.jorx, 0⟩ off v)
  | _ => s.plainWrite ⟨.jorx, 0⟩ off v

/-- A routing entry of the inactive copy (R365, R367). -/
def State.routeWrite (s : State) (inst off v : Nat) : State :=
  if inst / 2 = s.getF .jorx 0 0x110 5 5 then s.rsvdWr .jorxRt inst else s.plainWrite ⟨.jorxRt, inst⟩ off v

/-- JPORT_CTRL: EN = 1 trains a port that is DOWN, and EN = 0 takes it DOWN (R355). -/
def State.portCtrlWrite (s : State) (i : PortIx) (v : Nat) : State :=
  let was := s.portEn i
  let s := s.plainWrite ⟨.jport, i.val⟩ 0x100 v
  if s.portEn i && !was && s.portState i.val == 0 then s.portTrain i
  else if was && !s.portEn i then (s.setF .jport i.val 0x104 1 0 0).modPort i fun _ => { PortSt.reset with since := s.tb.toNat }
  else s

/-! ## Afterglow, Beacon, health and the mailbox -/

/-- CNT_CTRL (R458). -/
def State.cntCtrlWrite (s : State) (v : Nat) : State :=
  (((s.onBit v 0 fun s => s.cntAct none .freeze).onBit v 1 fun s => s.cntAct none .thaw).onBit v 2 fun s => s.cntAct none .snapshot).onBit v 3
    fun s => s.cntAct none .clear

/-- AGQ_CFG (R461): ignored when MIN would exceed MAX or the sum of MIN 49,152. -/
def State.agqCfgWrite (s : State) (q v : Nat) : State :=
  let others := sumL (((List.range 256).filter fun r => r != q).map s.agMin)
  if bitsOf v 31 16 < bitsOf v 15 0 ∨ 49152 < others + bitsOf v 15 0 then s.rsvdWr .agq q else s.setR .agq q 0x100 v

/-- A register of a BCN_TGT page (R433 to R437). -/
def State.targetWrite (s : State) (t off v : Nat) : State :=
  match off with
  | 0x100 => s.bcnThresh t v
  | 0x108 => s.actWrite ⟨.bcnTgt, t⟩ off v fun s => s.bcnActivate t (v % 1024)
  | 0x10C => s.actWrite ⟨.bcnTgt, t⟩ off v fun s => s.bcnComplete t (v % 1024)
  | 0x114 => s.bcnIdle t v
  | _ => match aliasSrc t off with
    | some n => s.bcnSrcSet .bcnTgt t n v true
    | none => s.plainWrite ⟨.bcnTgt, t⟩ off v

/-- HL_UNFENCE (R474): GO while GO is set, or before Warden runs, is ignored. -/
def State.unfenceWrite (s : State) (v : Nat) : State :=
  s.actWrite ⟨.health, 0⟩ 0x20C v fun s =>
    if s.bitR .health 0 0x20C 6 then s.rsvdWr .health 0
    else if !bitOf v 6 then s.setF .health 0 0x20C 5 0 (v % 64)
    else if s.warden then s.unfenceAsk (v % 64) else s.rsvdWr .health 0

/-- MBX_CMD (R529, R531): the command and its arguments are captured at GO. -/
def State.mbxCmdWrite (s : State) (v : Nat) : State :=
  s.actWrite ⟨.mailbox, 0⟩ 0x100 v fun s =>
    let s := s.setR .mailbox 0 0x100 (v % 256)
    if !bitOf v 8 then s
    else if s.bitR .mailbox 0 0x104 0 then s.rsvdWr .mailbox 0
    else
      let s := s.orR .mailbox 0 0x104 1
      { s with mbx := some ⟨v % 256, (List.range 8).map fun n => BitVec.ofNat 32 (s.getR .mailbox 0 (0x110 + 4 * n))⟩ }

/-- MAINT_REQ by path (R527); firmware asks directly, and has no copy of it. -/
def State.reqWrite (s : State) (path : Path) (v : Nat) : State :=
  match path with
  | .pf => s.maintReqWrite .pf v
  | .i3c => s.maintReqWrite .i3c v
  | _ => s.rsvdWr .maint 0

/-! ## One register write -/

/-- A write that the path may make to a page that answers. -/
def State.writeReg (s : State) (path : Path) (pg : PageId) (off v : Nat) : State :=
  let i := pg.inst
  if off = 0xC then s.ownerWrite pg.kind i v
  else if off = 0x10 then s.ctrlWrite pg.kind i v
  else if 0x40 ≤ off ∧ off < 0x60 then s.selectWrite pg.kind i ((off - 0x40) / 4) v
  else if off < 0x100 then s.plainWrite pg off v
  else match pg.kind with
    | .device => if off = 0x120 then (match path with
        | .vf sh => s.actWrite pg off v fun s => { s with host := { s.host with pwin := s.host.pwin.set (fun _ => 0) sh.val (v % 64) } }
        | _ => s.rsvdWr .device 0) else s.plainWrite pg off v
    | .maint => if off = 0x100 then s.reqWrite path v else s.plainWrite pg off v
    | .mailbox => if off = 0x100 then s.mbxCmdWrite v else s.plainWrite pg off v
    | .health => if off = 0x20C then s.unfenceWrite v else s.plainWrite pg off v
    | .mem => if 0x600 ≤ off then s.ownerWord true ((off - 0x600) / 4) v
        else if 0x400 ≤ off then s.ownerWord false ((off - 0x400) / 4) v else s.plainWrite pg off v
    | .bulk => if off = 0x100 ∨ off = 0x104 then s.bulkOwnerWrite off v else s.plainWrite pg off v
    | .scrub => if 0x200 ≤ off ∧ off < 0x278 then s.retainClear ((off - 0x200) / 4) v else s.plainWrite pg off v
    | .beacon => s.bcnSrcSet .beacon 0 ((off - 0x100) / 4) v false
    | .agqm => if off = 0x104 then s.actWrite pg off v fun s => s.cntCtrlWrite v else s.plainWrite pg off v
    | .jorx => s.jorxWrite off v
    | .jorxRt => s.routeWrite i off v
    | .jport => if off = 0x100 then (if h : i < 20 then s.portCtrlWrite ⟨i, h⟩ v else s) else s.plainWrite pg off v
    | .bcnTgt => s.targetWrite i off v
    | .agq => if off = 0x100 then s.agqCfgWrite i v else if off = 0x10C then s.agPop i (BitVec.ofNat 32 v) else s.plainWrite pg off v
    | .shcfg => if off = 0x100 then s.actWrite pg off v fun s => s.shCtrlWrite (shadeOf i) v
        else if off = 0x118 then s.qosWrite (shadeOf i) v else s.plainWrite pg off v
    | .pattern => s.patternWrite (shadeOf i) off v
    | .replay => s.replayWrite (shadeOf i) off v
    | .jshade => s.jshadeWrite (shadeOf i) off v
    | .tile => if off = 0x108 then (if s.slitAllowed (i / 8) then s.plainWrite pg off v else s.rsvdWr .tile i) else s.plainWrite pg off v
    | .lant => s.lantWrite i off v
    | .scratch => if windowReg .scratch off then s.windowWrite i off v else s.plainWrite pg off v
    | _ => if shadeReg pg.kind off && (s.leads i).isNone then s.rsvdWr pg.kind i else s.plainWrite pg off v

/-- One register written on a path, or refused (R441, R500, R515). -/
def State.write1 (s : State) (path : Path) (pg : PageId) (off v : Nat) : State :=
  if !s.answers path pg.kind || s.pageResets pg || !mayWrite path pg.kind off then s.rsvdWr pg.kind pg.inst else s.writeReg path pg off v

/-- A register write of 4 or 8 B as it is served, counted in REG_WRITES (R514, R532). -/
def State.writePage (s : State) (path : Path) (pg : PageId) (off v : Nat) (wide : Bool) : State :=
  let s := (s.count .device 0 2 1).write1 path pg off (v % 2 ^ 32)
  if wide then s.write1 path pg (off + 4) (v / 2 ^ 32 % 2 ^ 32) else s

/-- An I3C private transfer to a page byte and an offset (R506, R513): a write's data, or none for a read. An offset beyond the page is
reserved. -/
def State.i3cXfer (s : State) (page off : Nat) (data : Option W32) : State :=
  if !s.pathUp .i3c .boot then s
  else
    let s := s.count .boot 0 3 1
    match i3cPage page with
    | none => s.count .boot 0 4 1
    | some pg =>
      if !s.pathUp .i3c pg.kind then s.count .boot 0 4 1
      else match data with
        | none => if off % 4 = 0 ∧ off < 4096 then s.readPage .i3c pg off false
            else { (s.count .device 0 1 1) with host := { s.host with readData := 0, readUR := false } }
        | some w => if off % 4 = 0 ∧ off < 4096 then s.writePage .i3c pg off w.toNat false else (s.count .device 0 2 1).rsvdWr pg.kind pg.inst

/-- A register write on a path by address (R514, R517); over I3C it is a private transfer. -/
def State.regWrite (s : State) (path : Path) (a : RegAddr) (v : W64) : State :=
  let n := a.off.toNat / 4096
  let off := a.off.toNat % 4096
  match path with
  | .i3c => s.i3cXfer n off (some (BitVec.ofNat 32 v.toNat))
  | _ => match s.pathPage path n with
    | none => if s.pathUp path .device then s.badAccess else s
    | some pg =>
      if !s.pathUp path pg.kind then s
      else match accWide a with
        | none => s.badAccess
        | some w => s.writePage path pg off v.toNat w

/-- A 4 B write of the register at an offset of a page. -/
def State.pageWrite (s : State) (path : Path) (page off : Nat) (v : W32) : State :=
  s.regWrite path ⟨BitVec.ofNat 26 (page * 4096 + off), .b4⟩ (v.setWidth 64)

/-- A register read on a path, I3C included. -/
def State.anyRead (s : State) (path : Path) (a : RegAddr) : State :=
  match path with
  | .i3c => s.i3cXfer (a.off.toNat / 4096) (a.off.toNat % 4096) none
  | _ => s.regRead path a

/-! ## The mailbox (R529 to R531) -/

/-- The bytes of the config flash, with the production data (R502). -/
def State.flashBytes (s : State) (off len : Nat) : List Byte :=
  (List.range len).map fun i => if 0x1080000 ≤ off + i then Config.production (off + i) else BitVec.ofNat 8 (s.rdNat (flashKey (off + i)) 1)

/-- RSP and the bytes of an answer. -/
def State.mbxAnswer (s : State) (m : MbxSt) : Nat × List Byte :=
  let arg (n : Nat) : Nat := ((m.args[n]?).getD 0).toNat
  let recovery := s.stage == 7
  match m.op with
  | 0 => (0, [])
  | 1 =>
    let fw := if recovery then 0 else (Config.fwVersion (s.areaHdr false (s.getF .boot 0 0x100 11 11)).crc).toNat
    (0, leBytes 4 fw ++ leBytes 4 (s.getR .boot 0 0x10C) ++ leBytes 4 Config.romVersion.toNat)
  | 2 =>
    if recovery then (3, [])
    else match s.config.bodyOf (bitsOf (arg 0) 15 0) with
      | some b => (0, b)
      | none => (2, [])
  | 3 =>
    if recovery then (3, [])
    else if arg 1 = 0 ∨ 256 < arg 1 ∨ arg 0 < 0x1000000 ∨ 0x1100000 < arg 0 + arg 1 then (2, [])
    else (0, s.flashBytes (arg 0) (arg 1))
  | 4 =>
    if recovery then (3, [])
    else if 52 ≤ arg 0 then (2, [])
    else
      let t := s.health.tested.get (fun _ => 0) (arg 0)
      (0, leBytes 8 t ++ leBytes 4 (s.health.result.get (fun _ => 0) (arg 0)))
  | _ => (1, [])

/-- MBX_DONE: the response is written, BUSY clears, DONE sets and the MAILBOX source is raised. -/
def State.mbxDone (s : State) : State :=
  match s.mbx with
  | none => s
  | some m =>
    if !s.warden then s
    else
      let a := s.mbxAnswer m
      let bytes := a.2 ++ List.replicate (256 - a.2.length) 0
      let s := (List.range 64).foldl (fun (s : State) i => s.setR .mailbox 0 (0x200 + 4 * i) (leNat ((bytes.drop (4 * i)).take 4))) s
      let s := s.setR .mailbox 0 0x104 (2 + a.1 * 2 ^ 8 + min 256 a.2.length * 2 ^ 16)
      let s := { s with mbx := none }
      let s := s.count .mailbox 0 8 1
      (if a.1 = 0 then s else s.count .mailbox 0 9 1).raise 0x009

end Sys2Proof.Machine
end

