-- ==== Sys2Proof/Machine/SystemRows.lean ====
section
/-! DEFINITION. The commands of chapters 10 and 15 to 19: patrol and isolation scrubs, self-test, spares and maintenance, the Dimmer, power,
reset and boot, shades and memory units, Beacon, Afterglow and counters, register accesses, the mailbox and the sideband interfaces. -/

namespace Sys2Proof.Machine

/-! ## Errors and scrubs (R276, R466) -/

/-- PATROL_READ (R276): a word outside its storage is none. -/
def execPatrolRead (w : SramWord) (flips : BitVec 2) (s : State) : Host.Outcome State Fault Refusal :=
  match sramKey w with
  | some k => .next (if s.clocked then s.patrol k flips.toNat else s)
  | none => .next s

/-- ECC_WRITEBACK (R276): a corrected word is written back. -/
def execEccWriteback (w : SramWord) (s : State) : Host.Outcome State Fault Refusal :=
  match sramKey w with
  | some k => .next (if s.clocked && s.eccAt k == 1 then s.setEcc k 0 else s)
  | none => .next s

/-- ISOLATION_SCRUB (R466): errors of isolation state show in BLK_ERR_STATUS of the MEM page. -/
def execIsolationScrub (found : ScrubFound) (s : State) : Host.Outcome State Fault Refusal :=
  .next (if !s.clocked then s else match found with
    | .clean => s
    | .corrected => s.blkErr .mem 0 1
    | .uncorrectable => (s.blkErr .mem 0 2).goFatal)

/-! ## Self-test, spares and maintenance (R467 to R478) -/

/-- SELFTEST_WINDOW (R467, R469). -/
def execSelftestWindow (prism : PPrism) (result : TestResult) (s : State) : Host.Outcome State Fault Refusal :=
  .next (s.selftestWindow prism.val result)

/-- SELFTEST_STALE (R468). -/
def execSelftestStale (prism : PPrism) (s : State) : Host.Outcome State Fault Refusal := .next (s.selftestStale prism.val)

/-- SPARE_SUB (R472, R473, R476). -/
def execSpareSub (prism : PPrism) (result : TestResult) (s : State) : Host.Outcome State Fault Refusal := .next (s.spareSub prism.val result)

/-- UNFENCE (R474): the write of HL_UNFENCE with GO, unless one has been taken, and the self-test. -/
def execUnfence (prism : PPrism) (result : TestResult) (s : State) : Host.Outcome State Fault Refusal :=
  .next (if s.unfencing prism.val then s.unfenceTest prism.val result
    else s.write .pf .health 0 0x20C fun s => (s.unfenceWrite (prism.val + 64)).unfenceTest prism.val result)

/-- FLASH_WRITE (R475, R503, R528). -/
def execFlashWrite (who : MaintWho) (data : Option (List Byte)) (s : State) : Host.Outcome State Fault Refusal :=
  .next (s.flashRow who 1 data)

/-- FW_UPDATE (R475, R503, R528). -/
def execFwUpdate (who : MaintWho) (data : Option (List Byte)) (s : State) : Host.Outcome State Fault Refusal :=
  .next (s.flashRow who 6 data)

/-- HBM_RETRAIN (R475). -/
def execHbmRetrain (who : MaintWho) (stack : Fin 8) (s : State) : Host.Outcome State Fault Refusal := .next (s.maintRequest who 3 stack.val)

/-- DEEP_RETRAIN (R475). -/
def execDeepRetrain (who : MaintWho) (ctl : Fin 2) (s : State) : Host.Outcome State Fault Refusal := .next (s.maintRequest who 4 ctl.val)

/-- FULL_SCRUB (R475). -/
def execFullScrub (who : MaintWho) (s : State) : Host.Outcome State Fault Refusal := .next (s.maintRequest who 5 0)

/-- MAINT_RELEASE (R475, R476). -/
def execMaintRelease (result : MaintEnd) (s : State) : Host.Outcome State Fault Refusal := .next (s.maintRelease result)

/-- FENCED_PRISM_PACKET (R471). -/
def execFencedPrismPacket (prism : PPrism) (s : State) : Host.Outcome State Fault Refusal := .next (s.fencedPacket prism.val)

/-! ## The Dimmer (R479 to R483) -/

/-- DIMMER_TICK (R479, R480, R482). -/
def execDimmerTick (x : DimmerSample) (s : State) : Host.Outcome State Fault Refusal := .next (s.dimmerTick x)

/-- DVFS_SWITCH (R482, R490). -/
def execDvfsSwitch (s : State) : Host.Outcome State Fault Refusal := .next s.dvfsSwitch

/-- HBM_TEMP_POLL (R479, R282). -/
def execHbmTempPoll (temps : List Nat) (s : State) : Host.Outcome State Fault Refusal := .next (s.hbmTempPoll temps)

/-- VRM_POLL (R483). -/
def execVrmPoll (ok : List Bool) (s : State) : Host.Outcome State Fault Refusal := .next (s.vrmPoll ok)

/-- PMBUS_ALERT (R507). -/
def execPmbusAlert (ok : List Bool) (s : State) : Host.Outcome State Fault Refusal := .next (s.pmbusAlert ok)

/-- DROOP (R481). -/
def execDroop (s : State) : Host.Outcome State Fault Refusal := .next (s.droop true)

/-- DROOP_END (R481). -/
def execDroopEnd (s : State) : Host.Outcome State Fault Refusal := .next (s.droop false)

/-- DROOP_PERSIST (R481). -/
def execDroopPersist (s : State) : Host.Outcome State Fault Refusal := .next s.droopPersist

/-! ## Power, reset and boot (R484 to R501) -/

/-- THERMTRIP (R484). -/
def execThermtrip (s : State) : Host.Outcome State Fault Refusal := .next s.thermtrip

/-- REFCLK_STOP (R488). -/
def execRefclkStop (s : State) : Host.Outcome State Fault Refusal := .next s.refclkStop

/-- POWER_ON (R440, R492). -/
def execPowerOn (s : State) : Host.Outcome State Fault Refusal := .next s.powerOn

/-- RESET_ASSERT (R495). -/
def execResetAssert (pin : ResetPin) (s : State) : Host.Outcome State Fault Refusal := .next (s.resetAssert pin)

/-- RESET_RELEASE (R495). -/
def execResetRelease (s : State) : Host.Outcome State Fault Refusal := .next s.resetRelease

/-- RESET_PIN_PULSE (R495, R513). -/
def execResetPinPulse (pin : ResetPin) (s : State) : Host.Outcome State Fault Refusal := .next (s.resetPulse pin)

/-- PF_FLR (R496). -/
def execPfFlr (s : State) : Host.Outcome State Fault Refusal := .next s.pfFlr

/-- BROWNOUT (R493). -/
def execBrownout (s : State) : Host.Outcome State Fault Refusal := .next s.brownout

/-- RSTHELD (R497). -/
def execRstheld (pin : ResetPin) (s : State) : Host.Outcome State Fault Refusal := .next (s.rstHeld pin)

/-- ARRAY_RESET_TIME (R384). -/
def execArrayResetTime (s : State) : Host.Outcome State Fault Refusal := .next s.arrayReset

/-- BOOT (R499, R501). -/
def execBoot (b : BootIn) (s : State) : Host.Outcome State Fault Refusal := .next (s.boot b)

/-- PLL_FAIL (R501). -/
def execPllFail (pll : BitVec 4) (s : State) : Host.Outcome State Fault Refusal := .next (s.pllFail pll.toNat)

/-- BOOT_READY (R499). -/
def execBootReady (s : State) : Host.Outcome State Fault Refusal := .next s.bootReady

/-! ## Shades and memory units (R418 to R423, R440 to R443) -/

/-- SHADE_ENABLE: a write of SH_CTRL.EN = 1 (R420). -/
def execShadeEnable (path : Path) (sh : ShadeIx) (s : State) : Host.Outcome State Fault Refusal :=
  .next (s.write path .shcfg sh.val 0x100 fun s => s.shadeEnable sh)

/-- SHADE_RESET: a write of SH_CTRL.RESET (R441, R443). -/
def execShadeReset (path : Path) (sh : ShadeIx) (s : State) : Host.Outcome State Fault Refusal :=
  .next (s.write path .shcfg sh.val 0x100 fun s => s.shadeResetWrite sh)

/-- SHADE_RESET_SCRUB: events 4 to 6 (R441), or the rest of a kill (R442). -/
def execShadeResetScrub (sh : ShadeIx) (s : State) : Host.Outcome State Fault Refusal := .next (s.resetScrub sh)

/-- SHADE_KILL: a write of SH_CTRL.KILL (R442, R443). -/
def execShadeKill (path : Path) (sh : ShadeIx) (s : State) : Host.Outcome State Fault Refusal :=
  .next (s.write path .shcfg sh.val 0x100 fun s => s.shadeKill sh)

/-- VF_FLR (R421). -/
def execVfFlr (sh : ShadeIx) (s : State) : Host.Outcome State Fault Refusal := .next (s.vfFlr sh)

/-- VF_GONE: the host changes NumVFs, or clears VF Enable with none (R421). -/
def execVfGone (numVfs : Fin 17) (s : State) : Host.Outcome State Fault Refusal :=
  .next (if s.pathUp .pf .device then s.setVfs numVfs.val else s)

/-- BLK_OWNER_WRITE (R419, R456, R523). -/
def execBlkOwnerWrite (path : Path) (page : PageNo) (v : BitVec 8) (s : State) : Host.Outcome State Fault Refusal :=
  .next (s.pageWrite path page.toNat 0xC (v.setWidth 32))

/-- MEM_OWNER_WRITE: register n of MEM_HBM_OWNER or MEM_DEEP_OWNER (R306, R422). -/
def execMemOwnerWrite (path : Path) (deep : Bool) (n : BitVec 8) (v : W32) (s : State) : Host.Outcome State Fault Refusal :=
  .next (s.write path .mem 0 ((if deep then 0x600 else 0x400) + 4 * n.toNat) fun s => s.ownerWord deep n.toNat v.toNat)

/-- RETAIN_CLEAR: register n of SCRUB_DEEP_RETAIN (R422, R444). -/
def execRetainClear (path : Path) (n : BitVec 5) (v : W32) (s : State) : Host.Outcome State Fault Refusal :=
  .next (s.write path .scrub 0 (0x200 + 4 * n.toNat) fun s => s.retainClear n.toNat v.toNat)

/-- UNIT_SCRUB_START (R423). -/
def execUnitScrubStart (beam : Fin 8) (s : State) : Host.Outcome State Fault Refusal :=
  .next (if s.clocked then s.scrubStart beam.val else s)

/-- UNIT_SCRUB_COMPLETE (R423). -/
def execUnitScrubComplete (beam : Fin 8) (s : State) : Host.Outcome State Fault Refusal :=
  .next (if s.clocked then s.scrubDone beam.val else s)

/-- PATTERN_BIND: a write of PAT_CTRL (R339). -/
def execPatternBind (path : Path) (sh : ShadeIx) (n : BitVec 4) (v : W32) (s : State) : Host.Outcome State Fault Refusal :=
  .next (s.write path .pattern sh.val (0x100 + 0x20 * n.toNat) fun s => s.patBind sh n.toNat v.toNat)

/-! ## Beacon (R432 to R437) -/

/-- BCN_ACTIVATE (R433). -/
def execBcnActivate (path : Path) (t : Fin 19) (v : W32) (s : State) : Host.Outcome State Fault Refusal :=
  .next (s.write path .bcnTgt t.val 0x108 fun s => s.targetWrite t.val 0x108 v.toNat)

/-- BCN_COMPLETE (R433). -/
def execBcnComplete (path : Path) (t : Fin 19) (v : W32) (s : State) : Host.Outcome State Fault Refusal :=
  .next (s.write path .bcnTgt t.val 0x10C fun s => s.targetWrite t.val 0x10C v.toNat)

/-- MODERATION_TIMER (R435). -/
def execModerationTimer (t : Fin 19) (s : State) : Host.Outcome State Fault Refusal := .next (s.moderationTimer t.val)

/-- BCN_SRC_WRITE (R432, R436): a VF reaches its own sources through the aliases of its target's page (R437). -/
def execBcnSrcWrite (path : Path) (n : BitVec 10) (v : W32) (s : State) : Host.Outcome State Fault Refusal :=
  match path with
  | .vf w => .next (if 0x020 + 16 * w.val ≤ n.toNat ∧ n.toNat < 0x030 + 16 * w.val then
      s.write path .bcnTgt (3 + w.val) (0x300 + 4 * (n.toNat % 16)) fun s => s.bcnSrcSet .bcnTgt (3 + w.val) n.toNat v.toNat true else s)
  | _ => .next (s.write path .beacon 0 (0x100 + 4 * n.toNat) fun s => s.bcnSrcSet .beacon 0 n.toNat v.toNat false)

/-- BCN_THRESH_WRITE (R434). -/
def execBcnThreshWrite (path : Path) (t : Fin 19) (v : W32) (s : State) : Host.Outcome State Fault Refusal :=
  .next (s.write path .bcnTgt t.val 0x100 fun s => s.bcnThresh t.val v.toNat)

/-- MSIX_UNMASK (R434): entry e of function f is unmasked, and a held message is sent. -/
def execMsixUnmask (f : Fin 17) (e : BitVec 6) (s : State) : Host.Outcome State Fault Refusal :=
  let there := s.pathUp .pf .device && (f.val == 0 || bitOf s.host.vfs (f.val - 1))
  .next (if !there then s
    else
      let k := 64 * f.val + e.toNat
      let held := s.host.msixPba.get (fun _ => false) k
      let s := { s with host := { s.host with
        msixMask := s.host.msixMask.set maskReset k false, msixPba := s.host.msixPba.set (fun _ => false) k false } }
      if held then s.msixSend f.val e.toNat else s)

/-! ## Afterglow and counters (R446 to R459) -/

/-- RECORD_WRITE (R449 to R452). -/
def execRecordWrite (s : State) : Host.Outcome State Fault Refusal := .next (if s.clocked then s.recordWrite else s)

/-- AGQ_POP (R455). -/
def execAgqPop (path : Path) (q : BitVec 8) (pseq : W32) (s : State) : Host.Outcome State Fault Refusal :=
  .next (s.write path .agq q.toNat 0x10C fun s => s.agPop q.toNat pseq)

/-- CNT_CTRL_FREEZE (R458). -/
def execCntCtrlFreeze (path : Path) (s : State) : Host.Outcome State Fault Refusal :=
  .next (s.write path .agqm 0 0x104 fun s => s.cntAct none .freeze)

/-- CNT_CTRL_THAW (R458). -/
def execCntCtrlThaw (path : Path) (s : State) : Host.Outcome State Fault Refusal :=
  .next (s.write path .agqm 0 0x104 fun s => s.cntAct none .thaw)

/-- CNT_CTRL_SNAPSHOT (R458, R459). -/
def execCntCtrlSnapshot (path : Path) (s : State) : Host.Outcome State Fault Refusal :=
  .next (s.write path .agqm 0 0x104 fun s => s.cntAct none .snapshot)

/-- CNT_CTRL_CLEAR (R458, R459). -/
def execCntCtrlClear (path : Path) (s : State) : Host.Outcome State Fault Refusal :=
  .next (s.write path .agqm 0 0x104 fun s => s.cntAct none .clear)

/-- SNAPSHOT_COLLECT (R458, R459). -/
def execSnapshotCollect (s : State) : Host.Outcome State Fault Refusal := .next (if s.clocked then s.snapCollect else s)

/-- COUNTER_SELECT_WRITE (R457). -/
def execCounterSelectWrite (path : Path) (page : PageNo) (i : Fin 8) (v : W32) (s : State) : Host.Outcome State Fault Refusal :=
  .next (s.pageWrite path page.toNat (0x40 + 4 * i.val) v)

/-! ## Register accesses (R514 to R526) -/

/-- RSVD_CLR (R521, R523). -/
def execRsvdClr (path : Path) (page : PageNo) (s : State) : Host.Outcome State Fault Refusal := .next (s.pageWrite path page.toNat 0x10 1)

/-- CNT_CLR (R523). -/
def execCntClr (path : Path) (page : PageNo) (s : State) : Host.Outcome State Fault Refusal := .next (s.pageWrite path page.toNat 0x10 2)

/-- ERR_INJECT (R524). -/
def execErrInject (path : Path) (page : PageNo) (v : W32) (s : State) : Host.Outcome State Fault Refusal := .next (s.pageWrite path page.toNat 0x20 v)

/-- READ_TO_CLEAR (R15): a register read. -/
def execReadToClear (path : Path) (addr : RegAddr) (s : State) : Host.Outcome State Fault Refusal := .next (s.anyRead path addr)

/-- TB_LO_READ (R526): a 4 B read of TB_LO. I3C does not reach it (R506). -/
def execTbLoRead (path : Path) (s : State) : Host.Outcome State Fault Refusal :=
  match path with
  | .i3c => .next s
  | _ => .next (s.regRead path ⟨0x110, .b4⟩)

/-- REGISTER_WRITE (R15, R514 to R521). -/
def execRegisterWrite (path : Path) (addr : RegAddr) (v : W64) (s : State) : Host.Outcome State Fault Refusal := .next (s.regWrite path addr v)

/-- I3C_TRANSFER (R506): a write when it carries data. -/
def execI3cTransfer (page : Byte) (off : BitVec 16) (data : Option W32) (s : State) : Host.Outcome State Fault Refusal :=
  .next (s.i3cXfer page.toNat off.toNat data)

/-! ## The mailbox (R529 to R531) -/

/-- A write of MBX_CMD with GO. -/
def State.mbxGo (s : State) (path : Path) (op : Nat) : State := s.write path .mailbox 0 0x100 fun s => s.mbxCmdWrite (op + 256)

/-- NOP (R530). -/
def execNop (path : Path) (s : State) : Host.Outcome State Fault Refusal := .next (s.mbxGo path 0)

/-- VERSION (R530). -/
def execVersion (path : Path) (s : State) : Host.Outcome State Fault Refusal := .next (s.mbxGo path 1)

/-- READ_RECORD (R530). -/
def execReadRecord (path : Path) (s : State) : Host.Outcome State Fault Refusal := .next (s.mbxGo path 2)

/-- READ_FLASH (R530). -/
def execReadFlash (path : Path) (s : State) : Host.Outcome State Fault Refusal := .next (s.mbxGo path 3)

/-- SELFTEST (R530). -/
def execSelftest (path : Path) (s : State) : Host.Outcome State Fault Refusal := .next (s.mbxGo path 4)

/-- MBX_DONE (R531). -/
def execMbxDone (s : State) : Host.Outcome State Fault Refusal := .next s.mbxDone

/-! ## Sideband interfaces (R431, R505 to R508) -/

/-- BYPASS (R508). -/
def execBypass (s : State) : Host.Outcome State Fault Refusal := .next (s.tapLoad .bypass)

/-- IDCODE (R508). -/
def execIdcode (s : State) : Host.Outcome State Fault Refusal := .next s.tapIdcode

/-- SAMPLE/PRELOAD (R508). -/
def execSamplePreload (pins cells : BitVec 24) (s : State) : Host.Outcome State Fault Refusal := .next (s.tapSample pins cells)

/-- EXTEST (R508). -/
def execExtest (s : State) : Host.Outcome State Fault Refusal := .next (s.tapLoad .extest)

/-- CLAMP (R508). -/
def execClamp (s : State) : Host.Outcome State Fault Refusal := .next (s.tapLoad .clamp)

/-- HIGHZ (R508). -/
def execHighz (s : State) : Host.Outcome State Fault Refusal := .next (s.tapLoad .highz)

/-- I3C_CCC (R506). -/
def execI3cCcc (ccc : I3cCcc) (s : State) : Host.Outcome State Fault Refusal := .next (s.i3cCcc ccc)

/-- HOST_LINK_EVENT (R431, R505). -/
def execHostLinkEvent (e : LinkEvent) (s : State) : Host.Outcome State Fault Refusal := .next (s.linkEvent e)

end Sys2Proof.Machine
end

