-- ==== Sys2Proof/Machine/UnitRows.lean ====
section
/-! DEFINITION. The commands that are unit operations (slots 3 to 14): each issues its operation in a bundle of one slot and starts it when
its unit can, or starts the oldest one of its kind that waits (R228). Then the events of the array, the combines and the masks. -/

namespace Sys2Proof.Machine

/-- A unit operation, from a bundle of its own or from its queue. -/
def State.unitRow {α : Type} (s : State) (sh : ShadeIx) (ix : Nat) (src : Src α) (mk : α → SlotOp) (kind : QOp → Bool) : State :=
  match src with
  | .issue psel a => (s.issueOne sh ix psel (mk a)).startKind sh fun q => q.id == (s.sh sh).nextId
  | .queued => s.startKind sh kind

/-- An operation of an array opcode. -/
def arrayKind (o : ArrayOpc) (q : QOp) : Bool :=
  match q.op with
  | .array x _ => x == o
  | _ => false

/-- The slot of a Lens context. -/
def lensSlot (ctx : Bool) : Nat := if ctx then 6 else 5

/-- An operation of a Lens opcode in a context. -/
def lensKind (ctx : Bool) (o : LensOpc) (q : QOp) : Bool :=
  match q.op with
  | .lens x _ => x == o && q.slot == lensSlot ctx
  | _ => false

/-- An operation of a Focus opcode. -/
def focusKind (o : FocusOpc) (q : QOp) : Bool :=
  match q.op with
  | .focus x _ => x == o
  | _ => false

/-- The opcode of a mask operation (R245). -/
def maskCode : MaskOp → Nat
  | .scomp _ _ _ _ _ => 1
  | .prune _ _ _ => 2
  | .grow _ _ _ => 3
  | .mcommit _ => 4
  | .mirrorBuild _ _ _ => 5
  | .silh _ _ _ _ => 6

/-- The opcode of a Jorx operation (R245). -/
def jorxCode : JorxOp → Nat
  | .put _ _ _ => 1
  | .get _ _ _ => 2
  | .barrier _ _ => 3
  | .flagred _ _ _ => 4
  | .smallred _ _ _ _ => 5
  | .bcast _ _ _ _ => 6

/-- The opcode of a Speckle or Umbra operation (R245). -/
def spkCode : SpkOp → Nat
  | .seed _ _ => 1
  | .seedFresh _ _ _ => 2
  | .draw _ _ _ => 3
  | .umbra _ => 4

/-- The opcode of a telemetry operation (R245). -/
def telCode : TelOp → Nat
  | .glint _ _ _ _ => 1
  | .mark _ => 2
  | .cnt _ => 3

/-- An operation with opcode n of the class of its slot, for slots 8, 12, 13 and 14. -/
def opKind (slot n : Nat) (q : QOp) : Bool :=
  q.slot == slot && (match q.op with
    | .mask o => maskCode o == n
    | .jorx o => jorxCode o == n
    | .spk o => spkCode o == n
    | .tel o => telCode o == n
    | _ => false)

/-- A COPY in a mode of its control word (R296 to R300); a commit write apart from the rest (R324). -/
def State.copyKind (s : State) (sh : ShadeIx) (mode : Nat) (commit : Bool) (q : QOp) : Bool :=
  match q.op with
  | .beam (.copy _ _ _ g _) => (BeamWord.ofNat (q.greg g.toNat)).mode == mode && s.isCommit sh q == commit
  | _ => false

/-- A SCRUB. -/
def scrubKind (q : QOp) : Bool :=
  match q.op with
  | .beam (.scrub _ _ _ _) => true
  | _ => false

/-- A COPY from the fields of its row. -/
def copyOf (a : CopyArgs) : SlotOp := .beam (.copy a.beam a.tds a.tdd a.g a.tok)

/-- MM (R75). -/
def execMm (sh : ShadeIx) (src : Src ArrayArgs) (s : State) : Host.Outcome State Fault Refusal :=
  .next (s.unitRow sh 3 src (.array .mm) (arrayKind .mm))

/-- MMS (R135). -/
def execMms (sh : ShadeIx) (src : Src ArrayArgs) (s : State) : Host.Outcome State Fault Refusal :=
  .next (s.unitRow sh 3 src (.array .mms) (arrayKind .mms))

/-- DIST (R70). -/
def execDist (sh : ShadeIx) (src : Src ArrayArgs) (s : State) : Host.Outcome State Fault Refusal :=
  .next (s.unitRow sh 3 src (.array .dist) (arrayKind .dist))

/-- STORE (R60). -/
def execStore (sh : ShadeIx) (src : Src ArrayArgs) (s : State) : Host.Outcome State Fault Refusal :=
  .next (s.unitRow sh 3 src (.array .store) (arrayKind .store))

/-- ZERO (R60). -/
def execZero (sh : ShadeIx) (src : Src ArrayArgs) (s : State) : Host.Outcome State Fault Refusal :=
  .next (s.unitRow sh 3 src (.array .zero) (arrayKind .zero))

/-- KBLOCK_START (R535). -/
def execKblockStart (prism : PPrism) (tile : TileIx) (s : State) : Host.Outcome State Fault Refusal :=
  .next (s.kblockStart prism.val tile.val)

/-- DRAIN (R77). -/
def execDrain (prism : PPrism) (tile : TileIx) (s : State) : Host.Outcome State Fault Refusal :=
  .next (s.drain prism.val tile.val)

/-- DRAIN_COMPLETE (R76). -/
def execDrainComplete (prism : PPrism) (tile : TileIx) (s : State) : Host.Outcome State Fault Refusal :=
  .next (s.drainComplete prism.val tile.val)

/-- COMBINE_PARTIAL (R269). -/
def execCombinePartial (sh : ShadeIx) (n : Nat) (s : State) : Host.Outcome State Fault Refusal :=
  .next (s.combinePartial sh n)

/-- PRISM_PARTIAL (R269). -/
def execPrismPartial (sh : ShadeIx) (n : Nat) (s : State) : Host.Outcome State Fault Refusal :=
  .next (s.prismPartial sh n)

/-- SCOMP (R533). -/
def execScomp (sh : ShadeIx) (src : Src ScompArgs) (s : State) : Host.Outcome State Fault Refusal :=
  .next (s.unitRow sh 8 src (fun a => .mask (.scomp a.g a.tok a.td a.tiles a.td2)) (opKind 8 1))

/-- PRUNE (R127). -/
def execPrune (sh : ShadeIx) (src : Src PruneArgs) (s : State) : Host.Outcome State Fault Refusal :=
  .next (s.unitRow sh 8 src (fun a => .mask (.prune a.mo a.g a.tok)) (opKind 8 2))

/-- GROW (R128). -/
def execGrow (sh : ShadeIx) (src : Src PruneArgs) (s : State) : Host.Outcome State Fault Refusal :=
  .next (s.unitRow sh 8 src (fun a => .mask (.grow a.mo a.g a.tok)) (opKind 8 3))

/-- MCOMMIT (R119). -/
def execMcommit (sh : ShadeIx) (src : Src (BitVec 6)) (s : State) : Host.Outcome State Fault Refusal :=
  .next (s.unitRow sh 8 src (fun mo => .mask (.mcommit mo)) (opKind 8 4))

/-- MIRROR.BUILD (R123). -/
def execMirrorBuild (sh : ShadeIx) (src : Src MirrorArgs) (s : State) : Host.Outcome State Fault Refusal :=
  .next (s.unitRow sh 8 src (fun a => .mask (.mirrorBuild a.mo a.tok a.td)) (opKind 8 5))

/-- SILH (R137). -/
def execSilh (sh : ShadeIx) (src : Src SilhArgs) (s : State) : Host.Outcome State Fault Refusal :=
  .next (s.unitRow sh 8 src (fun a => .mask (.silh a.mo a.g a.tiles a.p)) (opKind 8 6))

/-- MASK_PLANE_COPY (R119). -/
def execMaskPlaneCopy (sh : ShadeIx) (mo : BitVec 6) (s : State) : Host.Outcome State Fault Refusal :=
  .next (s.maskPlaneCopy sh mo.toNat)

/-- CHAIN (R168). -/
def execChain (sh : ShadeIx) (ctx : Bool) (src : Src LensArgs) (s : State) : Host.Outcome State Fault Refusal :=
  .next (s.unitRow sh (lensSlot ctx) src (.lens .chain) (lensKind ctx .chain))

/-- UPDATE (R185). -/
def execUpdate (sh : ShadeIx) (ctx : Bool) (src : Src LensArgs) (s : State) : Host.Outcome State Fault Refusal :=
  .next (s.unitRow sh (lensSlot ctx) src (.lens .update) (lensKind ctx .update))

/-- ARGMAX (R186). -/
def execArgmax (sh : ShadeIx) (src : Src FocusArgs) (s : State) : Host.Outcome State Fault Refusal :=
  .next (s.unitRow sh 7 src (.focus .argmax) (focusKind .argmax))

/-- ARGMIN (R186). -/
def execArgmin (sh : ShadeIx) (src : Src FocusArgs) (s : State) : Host.Outcome State Fault Refusal :=
  .next (s.unitRow sh 7 src (.focus .argmin) (focusKind .argmin))

/-- TOPK (R186). -/
def execTopk (sh : ShadeIx) (src : Src FocusArgs) (s : State) : Host.Outcome State Fault Refusal :=
  .next (s.unitRow sh 7 src (.focus .topk) (focusKind .topk))

/-- SUM (R191). -/
def execSum (sh : ShadeIx) (src : Src FocusArgs) (s : State) : Host.Outcome State Fault Refusal :=
  .next (s.unitRow sh 7 src (.focus .sum) (focusKind .sum))

/-- NORM2 (R186). -/
def execNorm2 (sh : ShadeIx) (src : Src FocusArgs) (s : State) : Host.Outcome State Fault Refusal :=
  .next (s.unitRow sh 7 src (.focus .norm2) (focusKind .norm2))

/-- SEED (R201). -/
def execSeed (sh : ShadeIx) (src : Src SeedArgs) (s : State) : Host.Outcome State Fault Refusal :=
  .next (s.unitRow sh 13 src (fun a => .spk (.seed a.g a.gen)) (opKind 13 1))

/-- SEED.FRESH (R202). -/
def execSeedFresh (sh : ShadeIx) (src : Src FreshArgs) (s : State) : Host.Outcome State Fault Refusal :=
  .next (s.unitRow sh 13 src (fun a => .spk (.seedFresh a.g a.gen a.tok)) (opKind 13 2))

/-- SEED_FRESH_COMPLETE (R202, R203). -/
def execSeedFreshComplete (sh : ShadeIx) (s : State) : Host.Outcome State Fault Refusal :=
  .next (s.freshComplete sh)

/-- DRAW (R207). -/
def execDraw (sh : ShadeIx) (src : Src DrawArgs) (s : State) : Host.Outcome State Fault Refusal :=
  .next (s.unitRow sh 13 src (fun a => .spk (.draw a.g a.td a.tok)) (opKind 13 3))

/-- UMBRA (R150). -/
def execUmbra (sh : ShadeIx) (src : Src Tok) (s : State) : Host.Outcome State Fault Refusal :=
  .next (s.unitRow sh 13 src (fun t => .spk (.umbra t)) (opKind 13 4))

/-- GLINT (R397). -/
def execGlint (sh : ShadeIx) (src : Src GlintArgs) (s : State) : Host.Outcome State Fault Refusal :=
  .next (s.unitRow sh 14 src (fun a => .tel (.glint a.td a.g a.clr a.tok)) (opKind 14 1))

/-- MARK (R453). -/
def execMark (sh : ShadeIx) (src : Src (BitVec 16)) (s : State) : Host.Outcome State Fault Refusal :=
  .next (s.unitRow sh 14 src (fun code => .tel (.mark code)) (opKind 14 2))

/-- CNT (R458). -/
def execCnt (sh : ShadeIx) (src : Src CntAct) (s : State) : Host.Outcome State Fault Refusal :=
  .next (s.unitRow sh 14 src (fun act => .tel (.cnt act)) (opKind 14 3))

/-- COPY (R297, R300): in PLAIN mode, locally or to another device. -/
def execCopy (sh : ShadeIx) (src : Src CopyArgs) (s : State) : Host.Outcome State Fault Refusal :=
  .next (s.unitRow sh 9 src copyOf (s.copyKind sh 0 false))

/-- GATHER (R298). -/
def execGather (sh : ShadeIx) (src : Src CopyArgs) (s : State) : Host.Outcome State Fault Refusal :=
  .next (s.unitRow sh 9 src copyOf (s.copyKind sh 1 false))

/-- SCATTER (R299). -/
def execScatter (sh : ShadeIx) (src : Src CopyArgs) (s : State) : Host.Outcome State Fault Refusal :=
  .next (s.unitRow sh 9 src copyOf (s.copyKind sh 2 false))

/-- SCRUB (R301). -/
def execScrub (sh : ShadeIx) (src : Src ScrubArgs) (s : State) : Host.Outcome State Fault Refusal :=
  .next (s.unitRow sh 9 src (fun a => .beam (.scrub a.beam a.tdd a.g a.tok)) scrubKind)

/-- COMMIT_WRITE (R324). -/
def execCommitWrite (sh : ShadeIx) (src : Src CopyArgs) (s : State) : Host.Outcome State Fault Refusal :=
  .next (s.unitRow sh 9 src copyOf (s.copyKind sh 0 true))

/-- COMMIT_APPLY (R325). -/
def execCommitApply (sh : ShadeIx) (s : State) : Host.Outcome State Fault Refusal :=
  .next (s.commitApply sh)

/-- PUT (R370). -/
def execPut (sh : ShadeIx) (src : Src PutArgs) (s : State) : Host.Outcome State Fault Refusal :=
  .next (s.unitRow sh 12 src (fun a => .jorx (.put a.td a.g a.tok)) (opKind 12 1))

/-- GET (R370). -/
def execGet (sh : ShadeIx) (src : Src PutArgs) (s : State) : Host.Outcome State Fault Refusal :=
  .next (s.unitRow sh 12 src (fun a => .jorx (.get a.td a.g a.tok)) (opKind 12 2))

/-- BARRIER (R374). -/
def execBarrier (sh : ShadeIx) (src : Src BarrierArgs) (s : State) : Host.Outcome State Fault Refusal :=
  .next (s.unitRow sh 12 src (fun a => .jorx (.barrier a.grp a.tok)) (opKind 12 3))

/-- FLAGRED (R375). -/
def execFlagred (sh : ShadeIx) (src : Src FlagredArgs) (s : State) : Host.Outcome State Fault Refusal :=
  .next (s.unitRow sh 12 src (fun a => .jorx (.flagred a.g a.grp a.tok)) (opKind 12 4))

/-- SMALLRED (R375). -/
def execSmallred (sh : ShadeIx) (src : Src SmallredArgs) (s : State) : Host.Outcome State Fault Refusal :=
  .next (s.unitRow sh 12 src (fun a => .jorx (.smallred a.g a.grp a.rop a.tok)) (opKind 12 5))

/-- BCAST (R375). -/
def execBcast (sh : ShadeIx) (src : Src BcastArgs) (s : State) : Host.Outcome State Fault Refusal :=
  .next (s.unitRow sh 12 src (fun a => .jorx (.bcast a.td a.g a.grp a.tok)) (opKind 12 6))

end Sys2Proof.Machine
end

