-- ==== Sys2Proof/Machine/Dispatch.lean ====
section
/-! DEFINITION. What each command does: one arm per constructor of Instr, each one direct call of its meaning. -/

namespace Sys2Proof.Machine

/-- A command's effect on everything but the queue. -/
def exec (i : Instr) (s : State) : Host.Outcome State Fault Refusal :=
  match i with
  | .bundleIssue sh => Sys2Proof.Machine.execBundleIssue sh s
  | .br sh psel t => Sys2Proof.Machine.execBr sh psel t s
  | .loop sh psel lc c endAddr => Sys2Proof.Machine.execLoop sh psel lc c endAddr s
  | .wait sh psel m => Sys2Proof.Machine.execWait sh psel m s
  | .yield sh psel stepEnd => Sys2Proof.Machine.execYield sh psel stepEnd s
  | .halt sh psel code => Sys2Proof.Machine.execHalt sh psel code s
  | .bpl sh psel frame g tok => Sys2Proof.Machine.execBpl sh psel frame g tok s
  | .repeat_ sh psel c => Sys2Proof.Machine.execRepeat sh psel c s
  | .phase sh psel ph => Sys2Proof.Machine.execPhase sh psel ph s
  | .movi sh psel gd imm => Sys2Proof.Machine.execMovi sh psel gd imm s
  | .mov sh psel gd ga => Sys2Proof.Machine.execMov sh psel gd ga s
  | .add sh psel gd ga gb => Sys2Proof.Machine.execAdd sh psel gd ga gb s
  | .sub sh psel gd ga gb => Sys2Proof.Machine.execSub sh psel gd ga gb s
  | .addi sh psel gd ga imm => Sys2Proof.Machine.execAddi sh psel gd ga imm s
  | .mul sh psel gd ga gb => Sys2Proof.Machine.execMul sh psel gd ga gb s
  | .and_ sh psel gd ga gb => Sys2Proof.Machine.execAnd sh psel gd ga gb s
  | .or_ sh psel gd ga gb => Sys2Proof.Machine.execOr sh psel gd ga gb s
  | .xor_ sh psel gd ga gb => Sys2Proof.Machine.execXor sh psel gd ga gb s
  | .shl sh psel gd ga gb => Sys2Proof.Machine.execShl sh psel gd ga gb s
  | .shr sh psel gd ga gb => Sys2Proof.Machine.execShr sh psel gd ga gb s
  | .sar sh psel gd ga gb => Sys2Proof.Machine.execSar sh psel gd ga gb s
  | .minu sh psel gd ga gb => Sys2Proof.Machine.execMinu sh psel gd ga gb s
  | .maxu sh psel gd ga gb => Sys2Proof.Machine.execMaxu sh psel gd ga gb s
  | .cmp sh psel pd cond ga gb => Sys2Proof.Machine.execCmp sh psel pd cond ga gb s
  | .cmpi sh psel pd cond ga imm => Sys2Proof.Machine.execCmpi sh psel pd cond ga imm s
  | .plog sh psel pd fn pa pb => Sys2Proof.Machine.execPlog sh psel pd fn pa pb s
  | .ldp sh psel gd ga tok => Sys2Proof.Machine.execLdp sh psel gd ga tok s
  | .ldpComplete sh => Sys2Proof.Machine.execLdpComplete sh s
  | .stp sh psel ga gb tok => Sys2Proof.Machine.execStp sh psel ga gb tok s
  | .rdd sh psel gd d => Sys2Proof.Machine.execRdd sh psel gd d s
  | .dwr sh psel ga d => Sys2Proof.Machine.execDwr sh psel ga d s
  | .rds sh psel gd sel => Sys2Proof.Machine.execRds sh psel gd sel s
  | .ext sh psel target hi o => Sys2Proof.Machine.execExt sh psel target hi o s
  | .mm sh src => Sys2Proof.Machine.execMm sh src s
  | .mms sh src => Sys2Proof.Machine.execMms sh src s
  | .dist sh src => Sys2Proof.Machine.execDist sh src s
  | .store sh src => Sys2Proof.Machine.execStore sh src s
  | .zero sh src => Sys2Proof.Machine.execZero sh src s
  | .kblockStart prism tile => Sys2Proof.Machine.execKblockStart prism tile s
  | .drain prism tile => Sys2Proof.Machine.execDrain prism tile s
  | .drainComplete prism tile => Sys2Proof.Machine.execDrainComplete prism tile s
  | .combinePartial sh n => Sys2Proof.Machine.execCombinePartial sh n s
  | .prismPartial sh n => Sys2Proof.Machine.execPrismPartial sh n s
  | .scomp sh src => Sys2Proof.Machine.execScomp sh src s
  | .prune sh src => Sys2Proof.Machine.execPrune sh src s
  | .grow sh src => Sys2Proof.Machine.execGrow sh src s
  | .mcommit sh src => Sys2Proof.Machine.execMcommit sh src s
  | .mirrorBuild sh src => Sys2Proof.Machine.execMirrorBuild sh src s
  | .silh sh src => Sys2Proof.Machine.execSilh sh src s
  | .maskPlaneCopy sh mo => Sys2Proof.Machine.execMaskPlaneCopy sh mo s
  | .chain sh ctx src => Sys2Proof.Machine.execChain sh ctx src s
  | .update sh ctx src => Sys2Proof.Machine.execUpdate sh ctx src s
  | .argmax sh src => Sys2Proof.Machine.execArgmax sh src s
  | .argmin sh src => Sys2Proof.Machine.execArgmin sh src s
  | .topk sh src => Sys2Proof.Machine.execTopk sh src s
  | .sum sh src => Sys2Proof.Machine.execSum sh src s
  | .norm2 sh src => Sys2Proof.Machine.execNorm2 sh src s
  | .seed sh src => Sys2Proof.Machine.execSeed sh src s
  | .seedFresh sh src => Sys2Proof.Machine.execSeedFresh sh src s
  | .seedFreshComplete sh => Sys2Proof.Machine.execSeedFreshComplete sh s
  | .draw sh src => Sys2Proof.Machine.execDraw sh src s
  | .umbra sh src => Sys2Proof.Machine.execUmbra sh src s
  | .glint sh src => Sys2Proof.Machine.execGlint sh src s
  | .mark sh src => Sys2Proof.Machine.execMark sh src s
  | .cnt sh src => Sys2Proof.Machine.execCnt sh src s
  | .copy sh src => Sys2Proof.Machine.execCopy sh src s
  | .gather sh src => Sys2Proof.Machine.execGather sh src s
  | .scatter sh src => Sys2Proof.Machine.execScatter sh src s
  | .scrub sh src => Sys2Proof.Machine.execScrub sh src s
  | .commitWrite sh src => Sys2Proof.Machine.execCommitWrite sh src s
  | .commitApply sh => Sys2Proof.Machine.execCommitApply sh s
  | .put sh src => Sys2Proof.Machine.execPut sh src s
  | .get sh src => Sys2Proof.Machine.execGet sh src s
  | .barrier sh src => Sys2Proof.Machine.execBarrier sh src s
  | .flagred sh src => Sys2Proof.Machine.execFlagred sh src s
  | .smallred sh src => Sys2Proof.Machine.execSmallred sh src s
  | .bcast sh src => Sys2Proof.Machine.execBcast sh src s
  | .tokenRelease sh => Sys2Proof.Machine.execTokenRelease sh s
  | .tokenTimeout sh => Sys2Proof.Machine.execTokenTimeout sh s
  | .bplComplete sh => Sys2Proof.Machine.execBplComplete sh s
  | .yieldPoint sh => Sys2Proof.Machine.execYieldPoint sh s
  | .yieldLate sh => Sys2Proof.Machine.execYieldLate sh s
  | .lantStart sh => Sys2Proof.Machine.execLantStart sh s
  | .lantStop sh => Sys2Proof.Machine.execLantStop sh s
  | .bplGo sh => Sys2Proof.Machine.execBplGo sh s
  | .preempt sh => Sys2Proof.Machine.execPreempt sh s
  | .force sh => Sys2Proof.Machine.execForce sh s
  | .rollback sh => Sys2Proof.Machine.execRollback sh s
  | .rollbackRestore sh => Sys2Proof.Machine.execRollbackRestore sh s
  | .backgroundDeferExpiry sh => Sys2Proof.Machine.execBackgroundDeferExpiry sh s
  | .paddedDelivery sh late => Sys2Proof.Machine.execPaddedDelivery sh late s
  | .heartbeat port => Sys2Proof.Machine.execHeartbeat port s
  | .heartbeatReceive port down up => Sys2Proof.Machine.execHeartbeatReceive port down up s
  | .heartbeatMiss port => Sys2Proof.Machine.execHeartbeatMiss port s
  | .portTraining port ok => Sys2Proof.Machine.execPortTraining port ok s
  | .portRetryTimer port => Sys2Proof.Machine.execPortRetryTimer port s
  | .portLockLoss port => Sys2Proof.Machine.execPortLockLoss port s
  | .hello port h => Sys2Proof.Machine.execHello port h s
  | .nak port lseq => Sys2Proof.Machine.execNak port lseq s
  | .messageRoute port m => Sys2Proof.Machine.execMessageRoute port m s
  | .putMsg port head t items => Sys2Proof.Machine.execPutMsg port head t items s
  | .ackMsg port head seq => Sys2Proof.Machine.execAckMsg port head seq s
  | .nackMsg port head get arg => Sys2Proof.Machine.execNackMsg port head get arg s
  | .getReqMsg port head t first count tag => Sys2Proof.Machine.execGetReqMsg port head t first count tag s
  | .getDataMsg port head tag items => Sys2Proof.Machine.execGetDataMsg port head tag items s
  | .arriveMsg port head c lowest words dead => Sys2Proof.Machine.execArriveMsg port head c lowest words dead s
  | .releaseMsg port head c time words dead => Sys2Proof.Machine.execReleaseMsg port head c time words dead s
  | .releaseTime t => Sys2Proof.Machine.execReleaseTime t s
  | .bcastDataMsg port head c t items => Sys2Proof.Machine.execBcastDataMsg port head c t items s
  | .deadMsg port head x epoch => Sys2Proof.Machine.execDeadMsg port head x epoch s
  | .aliveMsg port head x epoch => Sys2Proof.Machine.execAliveMsg port head x epoch s
  | .joinMsg port head epoch => Sys2Proof.Machine.execJoinMsg port head epoch s
  | .probeMsg port head reply => Sys2Proof.Machine.execProbeMsg port head reply s
  | .marriveMsg port head k armed => Sys2Proof.Machine.execMarriveMsg port head k armed s
  | .mreleaseMsg port head k time ok => Sys2Proof.Machine.execMreleaseMsg port head k time ok s
  | .ackTimeout sh => Sys2Proof.Machine.execAckTimeout sh s
  | .syncNHigh => Sys2Proof.Machine.execSyncNHigh s
  | .enumFrame frame => Sys2Proof.Machine.execEnumFrame frame s
  | .enumSend => Sys2Proof.Machine.execEnumSend s
  | .enumHead => Sys2Proof.Machine.execEnumHead s
  | .enumTimeout => Sys2Proof.Machine.execEnumTimeout s
  | .join path => Sys2Proof.Machine.execJoin path s
  | .swap path => Sys2Proof.Machine.execSwap path s
  | .snap path => Sys2Proof.Machine.execSnap path s
  | .snapshotFreezeTime => Sys2Proof.Machine.execSnapshotFreezeTime s
  | .areset path => Sys2Proof.Machine.execAreset path s
  | .arrayResetTime => Sys2Proof.Machine.execArrayResetTime s
  | .noiseSample bits => Sys2Proof.Machine.execNoiseSample bits s
  | .patrolRead w flips => Sys2Proof.Machine.execPatrolRead w flips s
  | .eccWriteback w => Sys2Proof.Machine.execEccWriteback w s
  | .isolationScrub found => Sys2Proof.Machine.execIsolationScrub found s
  | .selftestWindow prism result => Sys2Proof.Machine.execSelftestWindow prism result s
  | .spareSub prism result => Sys2Proof.Machine.execSpareSub prism result s
  | .unfence prism result => Sys2Proof.Machine.execUnfence prism result s
  | .flashWrite who data => Sys2Proof.Machine.execFlashWrite who data s
  | .hbmRetrain who stack => Sys2Proof.Machine.execHbmRetrain who stack s
  | .deepRetrain who ctl => Sys2Proof.Machine.execDeepRetrain who ctl s
  | .fullScrub who => Sys2Proof.Machine.execFullScrub who s
  | .fwUpdate who data => Sys2Proof.Machine.execFwUpdate who data s
  | .maintRelease result => Sys2Proof.Machine.execMaintRelease result s
  | .dimmerTick x => Sys2Proof.Machine.execDimmerTick x s
  | .dvfsSwitch => Sys2Proof.Machine.execDvfsSwitch s
  | .hbmTempPoll temps => Sys2Proof.Machine.execHbmTempPoll temps s
  | .vrmPoll ok => Sys2Proof.Machine.execVrmPoll ok s
  | .pmbusAlert ok => Sys2Proof.Machine.execPmbusAlert ok s
  | .droop => Sys2Proof.Machine.execDroop s
  | .droopPersist => Sys2Proof.Machine.execDroopPersist s
  | .thermtrip => Sys2Proof.Machine.execThermtrip s
  | .powerOn => Sys2Proof.Machine.execPowerOn s
  | .resetAssert pin => Sys2Proof.Machine.execResetAssert pin s
  | .resetRelease => Sys2Proof.Machine.execResetRelease s
  | .pfFlr => Sys2Proof.Machine.execPfFlr s
  | .brownout => Sys2Proof.Machine.execBrownout s
  | .rstheld pin => Sys2Proof.Machine.execRstheld pin s
  | .boot b => Sys2Proof.Machine.execBoot b s
  | .pllFail pll => Sys2Proof.Machine.execPllFail pll s
  | .bootReady => Sys2Proof.Machine.execBootReady s
  | .shadeEnable path sh => Sys2Proof.Machine.execShadeEnable path sh s
  | .shadeReset path sh => Sys2Proof.Machine.execShadeReset path sh s
  | .shadeResetScrub sh => Sys2Proof.Machine.execShadeResetScrub sh s
  | .shadeKill path sh => Sys2Proof.Machine.execShadeKill path sh s
  | .vfFlr sh => Sys2Proof.Machine.execVfFlr sh s
  | .vfGone numVfs => Sys2Proof.Machine.execVfGone numVfs s
  | .blkOwnerWrite path page v => Sys2Proof.Machine.execBlkOwnerWrite path page v s
  | .memOwnerWrite path deep n v => Sys2Proof.Machine.execMemOwnerWrite path deep n v s
  | .retainClear path n v => Sys2Proof.Machine.execRetainClear path n v s
  | .unitScrubStart beam => Sys2Proof.Machine.execUnitScrubStart beam s
  | .unitScrubComplete beam => Sys2Proof.Machine.execUnitScrubComplete beam s
  | .patternBind path sh n v => Sys2Proof.Machine.execPatternBind path sh n v s
  | .bcnActivate path t v => Sys2Proof.Machine.execBcnActivate path t v s
  | .bcnComplete path t v => Sys2Proof.Machine.execBcnComplete path t v s
  | .moderationTimer t => Sys2Proof.Machine.execModerationTimer t s
  | .bcnSrcWrite path n v => Sys2Proof.Machine.execBcnSrcWrite path n v s
  | .bcnThreshWrite path t v => Sys2Proof.Machine.execBcnThreshWrite path t v s
  | .recordWrite => Sys2Proof.Machine.execRecordWrite s
  | .agqPop path q pseq => Sys2Proof.Machine.execAgqPop path q pseq s
  | .cntCtrlFreeze path => Sys2Proof.Machine.execCntCtrlFreeze path s
  | .cntCtrlThaw path => Sys2Proof.Machine.execCntCtrlThaw path s
  | .cntCtrlSnapshot path => Sys2Proof.Machine.execCntCtrlSnapshot path s
  | .cntCtrlClear path => Sys2Proof.Machine.execCntCtrlClear path s
  | .snapshotCollect => Sys2Proof.Machine.execSnapshotCollect s
  | .counterSelectWrite path page k v => Sys2Proof.Machine.execCounterSelectWrite path page k v s
  | .rsvdClr path page => Sys2Proof.Machine.execRsvdClr path page s
  | .cntClr path page => Sys2Proof.Machine.execCntClr path page s
  | .errInject path page v => Sys2Proof.Machine.execErrInject path page v s
  | .readToClear path addr => Sys2Proof.Machine.execReadToClear path addr s
  | .tbLoRead path => Sys2Proof.Machine.execTbLoRead path s
  | .registerWrite path addr v => Sys2Proof.Machine.execRegisterWrite path addr v s
  | .i3cTransfer page off data => Sys2Proof.Machine.execI3cTransfer page off data s
  | .nop path => Sys2Proof.Machine.execNop path s
  | .version path => Sys2Proof.Machine.execVersion path s
  | .readRecord path => Sys2Proof.Machine.execReadRecord path s
  | .readFlash path => Sys2Proof.Machine.execReadFlash path s
  | .selftest path => Sys2Proof.Machine.execSelftest path s
  | .mbxDone => Sys2Proof.Machine.execMbxDone s
  | .bypass => Sys2Proof.Machine.execBypass s
  | .idcode => Sys2Proof.Machine.execIdcode s
  | .samplePreload pins cells => Sys2Proof.Machine.execSamplePreload pins cells s
  | .extest => Sys2Proof.Machine.execExtest s
  | .clamp => Sys2Proof.Machine.execClamp s
  | .highz => Sys2Proof.Machine.execHighz s
  | .flitCrcFailure port why => Sys2Proof.Machine.execFlitCrcFailure port why s
  | .badMsg port head typ => Sys2Proof.Machine.execBadMsg port head typ s
  | .i3cCcc ccc => Sys2Proof.Machine.execI3cCcc ccc s
  | .msixUnmask f e => Sys2Proof.Machine.execMsixUnmask f e s
  | .hostLinkEvent e => Sys2Proof.Machine.execHostLinkEvent e s
  | .refclkStop => Sys2Proof.Machine.execRefclkStop s
  | .resetPinPulse pin => Sys2Proof.Machine.execResetPinPulse pin s
  | .selftestStale prism => Sys2Proof.Machine.execSelftestStale prism s
  | .droopEnd => Sys2Proof.Machine.execDroopEnd s
  | .syncNRelease => Sys2Proof.Machine.execSyncNRelease s
  | .fencedPrismPacket prism => Sys2Proof.Machine.execFencedPrismPacket prism s

end Sys2Proof.Machine
end

