-- ==== Sys2Proof/Machine/Tick.lean ====
section
/-! DEFINITION. What passes while no command waits: time. One tick is one nanosecond of REFCLK: the timebase (R379, R489), and the cycles of
the core clock with their gating and stretching (R480 to R482). -/

namespace Sys2Proof.Machine

/-- A state with another queue of waiting commands. -/
def State.setPending (s : State) (cs : List Instr) : State := { s with pending := cs }

/-- Sixtieths of a core cycle in one nanosecond: FSTEP k is 0.80 GHz + k × 50 MHz (R482); a stretched period lasts 1.5 times as long (R481). -/
def State.corePace (s : State) : Nat := (16 + s.fstep) * (if s.dim.stretch then 2 else 3)

/-- The Dimmer gates a cycle: it is among the first GATE of its run of 16 (R480). -/
def State.gatedCycle (s : State) (k : Nat) : Bool := decide (k % 16 < s.dim.gate)

/-- The shade is enabled and not in a reset: its conditions of cycle events may hold. -/
def State.lives (s : State) (sh : ShadeIx) : Bool := (s.sh sh).life == 1

/-- The Dimmer's gating of a cycle at the blocks of a shade: GATED_ISSUE of its Lantern, tiles, Lens, Focus and Beams (R78, R183, R247,
R304). -/
def State.gatedIssue (s : State) (sh : ShadeIx) (on : Bool) : State :=
  (s.prismsOf sh).foldl (fun (s : State) p =>
    (List.range 8).foldl (fun (s : State) t => s.cycleEv .tile (8 * p + t) 8 on)
      (((s.cycleEv .lens p 9 on).cycleEv .focus p 9 on).cycleEv .beam p 8 on)) (s.cycleEv .lant (s.leadP sh) 7 on)

/-- A shade is held for a change of the clock (R482). -/
def State.dvfsHeld (s : State) (sh : ShadeIx) : Bool := s.lives sh && (s.sh sh).rep.dvfs

/-- A core cycle of a shade: an enabled one that no ordered hold takes advances RDS CYCLES; its cycle events (R202, R236, R247, R393,
R405, R482). -/
def State.shadeCycle (s : State) (gated : Bool) (sh : ShadeIx) : State :=
  let x := s.sh sh
  let on := s.lives sh
  let stop := gated || x.rep.dvfs
  let s := s.gatedIssue sh (on && stop)
  let s := s.cycleEv .replay sh.val 2 (on && x.lan.yielding.isSome)
  let s := s.cycleEv .replay sh.val 4 (on && x.rep.rolling.isSome)
  let s := s.cycleEv .replay sh.val 5 (on && x.rep.hold)
  let s := s.cycleEv .speckle (s.leadP sh) 4 (on && s.freshWaiting.contains sh)
  if on && !stop && !x.rep.hold then s.modSh sh fun x => { x with lan := { x.lan with cycles := x.lan.cycles + 1 } } else s

/-- Events whose number the spec leaves to the course of accesses, arbitration and contention within the cycles: by block, those of its
counter table. -/
def freeEvents : List (PageKind × List Nat) :=
  [(.tile, [1, 5, 6, 7]), (.stencil, [9]), (.safe, [2]), (.lens, [4, 5, 6, 7]), (.focus, [5, 6]), (.speckle, [6]),
   (.beam, [2, 3, 4, 5]), (.bulk, [2, 3, 4, 5]), (.memctl, [1, 2, 3, 4, 7]), (.tstate, [7]), (.shcfg, [1, 2, 3, 5, 6]),
   (.jport, [5, 15]), (.jorx, [5, 15]), (.jshade, [5, 15]), (.agq, [5]), (.agqm, [5])]

/-- What a page's counters gain of an event whose number is free. -/
def State.countFree (s : State) (k : PageKind) (inst ev q : Nat) : State :=
  let n (e : Nat) : Nat := (Config.freeCount s.fresh (k.ix * 1024 + inst) (q * 512 + 2 * ev + e)).toNat
  s.countAs k inst ev q (n 0) (n 1)

/-- The free counts of one core cycle; those of the SCRATCH page are by port (R309). -/
def State.freeCounts (s : State) : State :=
  let s := freeEvents.foldl (fun (s : State) ke =>
    (List.range ke.1.count).foldl (fun (s : State) i => ke.2.foldl (fun (s : State) ev => s.countFree ke.1 i ev 0) s) s) s
  let s := (List.range 52).foldl (fun (s : State) p =>
    (List.range 17).foldl (fun (s : State) q => [1, 2, 3, 4, 5].foldl (fun (s : State) ev => s.countFree .scratch p ev q) s) s) s
  s.tick

/-- The k-th core cycle of a run of 16. -/
def State.coreCycle (s : State) (k : Nat) : State :=
  let g := s.gatedCycle k
  let s := (s.cycleEv .dimmer 0 8 g).cycleEv .dimmer 0 9 s.dim.stretch
  let s := s.cycleEv .dimmer 0 0xB ((List.finRange 16).any fun sh => s.dvfsHeld sh)
  ((List.finRange 16).foldl (fun (s : State) sh => s.shadeCycle g sh) s).freeCounts

/-- Where nanoseconds of NOBEAM wait for a microsecond. -/
def noBeamKey : Nat := PageKind.scrub.ix * 1024 * 256 + 3

/-- SCRUB_STATUS.NOBEAM for another nanosecond: a microsecond of it counts one NOBEAM_US (R445). -/
def State.noBeamTick (s : State) : State :=
  if bitOf s.scrubStatus 21 then
    let n := s.units.get (fun _ => 0) noBeamKey + 1
    { s with units := s.units.set (fun _ => 0) noBeamKey (n % 1000) }.count .scrub 0 3 (n / 1000)
  else s

/-- The core clock for one nanosecond: the cycles that end in it. -/
def State.coreTick (s : State) : State :=
  let x := s.coreFrac + s.corePace
  let s := (List.range (x / 60 - s.coreFrac / 60)).foldl (fun (s : State) j => s.coreCycle (s.coreFrac / 60 + j)) s
  { s with coreFrac := x % 960 }

/-- One nanosecond passes. Without REFCLK, and after THERMTRIP, no clock that the model holds runs; in device reset the timebase does
(R484, R488, R489). -/
def State.elapse (s : State) : State :=
  if s.power.noRef || s.power.tripped then s
  else if s.clocked then s.slewTick.coreTick.noBeamTick
  else s.slewTick

end Sys2Proof.Machine
end

