-- ==== Sys2Proof/Machine/Step.lean ====
section
/-! DEFINITION. One step of the block: the command at the front of the queue, or one tick of time when none waits. -/

namespace Sys2Proof.Machine

/-- Take the command at the front of the queue and run it; with none waiting, one nanosecond passes. -/
def step (s : State) : Host.Outcome State Fault Refusal :=
  match s.pending with
  | [] => .next (Sys2Proof.Machine.State.elapse s)
  | c :: rest => Sys2Proof.Machine.exec c (Sys2Proof.Machine.State.setPending s rest)

/-- A state with the command a word spells at the front of its queue; no word spells one. -/
def State.withFetchWord (s : State) (nbits w : Nat) : State :=
  match Sys2Proof.decodeTableWord nbits w with
  | none => s
  | some c => Sys2Proof.Machine.State.setPending s (c :: s.pending)

end Sys2Proof.Machine
end

