-- ==== Sys2Proof/Machine/SlotWord.lean ====
section
/-! DEFINITION. The 64-bit word of a slot's operation, written from the encoding tables of chapter 08 (R216, R219, R232, R239, R240, R245,
R246): the opcode in bits 63 to 56, PSEL in bits 55 to 52, the operand fields below. -/

namespace Sys2Proof.Machine

/-- TV and TOK (R219): TV at one bit, TOK above another. -/
def tokBits (t : Tok) (tv lo : Nat) : Nat :=
  match t with
  | none => 0
  | some n => 2 ^ tv + n.toNat * 2 ^ lo

/-- A flag at a bit. -/
def flagBit (b : Bool) (i : Nat) : Nat := if b then 2 ^ i else 0

/-- Slot 0 (R232): opcode and operand bits. -/
def ctlWord : CtlOp → Nat × Nat
  | .br (.abs a) => (1, a.toNat)
  | .br (.reg g) => (1, 1 * 2 ^ 50 + g.toNat * 2 ^ 44)
  | .loop lc (.imm n) e => (2, lc.toNat * 2 ^ 50 + n.toNat * 2 ^ 27 + e.toNat)
  | .loop lc (.reg g) e => (2, lc.toNat * 2 ^ 50 + 2 ^ 49 + g.toNat * 2 ^ 43 + e.toNat)
  | .wait (.all g) => (3, g.toNat * 2 ^ 44)
  | .wait (.any g) => (3, 1 * 2 ^ 50 + g.toNat * 2 ^ 44)
  | .wait (.one k) => (3, 2 * 2 ^ 50 + k.toNat * 2 ^ 44)
  | .yield e => (4, flagBit e 51)
  | .halt c => (5, c.toNat)
  | .bpl f g t => (6, f.toNat * 2 ^ 46 + g.toNat * 2 ^ 40 + tokBits t 39 33)
  | .repeat (.imm n) => (7, n.toNat * 2 ^ 29)
  | .repeat (.reg g) => (7, 2 ^ 51 + g.toNat * 2 ^ 45)
  | .phase p => (8, p.toNat)

/-- KIND, NUM, WORD and TILES of RDD and DWR (R240). -/
def descBits : DescRef → Nat
  | .td n w => 0 * 2 ^ 29 + n.toNat * 2 ^ 21 + w.toNat * 2 ^ 15
  | .mo n w => 1 * 2 ^ 29 + n.toNat * 2 ^ 21 + w.toNat * 2 ^ 15
  | .cd n w => 2 * 2 ^ 29 + n.toNat * 2 ^ 21 + w.toNat * 2 ^ 15
  | .layer n w => 3 * 2 ^ 29 + n.toNat * 2 ^ 21 + w.toNat * 2 ^ 15
  | .ld n w t => 4 * 2 ^ 29 + n.toNat * 2 ^ 21 + w.toNat * 2 ^ 15 + t.toNat * 2 ^ 7

/-- COND (R239). -/
def condCode : Cond → Nat
  | .eq => 0 | .ne => 1 | .lts => 2 | .les => 3 | .ltu => 4 | .leu => 5 | .tst => 6 | .ntst => 7

/-- FN of PLOG (R239). -/
def pfnCode : PFn → Nat
  | .and => 0 | .or => 1 | .xor => 2 | .andn => 3

/-- The opcodes of the two-operand arithmetic (R239). -/
def aluCode : AluOp → Nat
  | .add => 0x03 | .sub => 0x04 | .mul => 0x06 | .and => 0x07 | .or => 0x08 | .xor => 0x09 | .shl => 0x0A | .shr => 0x0B
  | .sar => 0x0C | .minu => 0x0D | .maxu => 0x0E

/-- Slots 1 and 2 (R239). -/
def scalarWord : ScalarOp → Nat × Nat
  | .movi gd imm => (0x01, gd.toNat * 2 ^ 44 + imm.toNat)
  | .mov gd ga => (0x02, gd.toNat * 2 ^ 44 + ga.toNat * 2 ^ 38)
  | .alu o gd ga gb => (aluCode o, gd.toNat * 2 ^ 44 + ga.toNat * 2 ^ 38 + gb.toNat * 2 ^ 32)
  | .addi gd ga imm => (0x05, gd.toNat * 2 ^ 44 + ga.toNat * 2 ^ 38 + imm.toNat)
  | .cmp pd c ga gb => (0x0F, pd.toNat * 2 ^ 44 + ga.toNat * 2 ^ 38 + gb.toNat * 2 ^ 32 + condCode c * 2 ^ 28)
  | .cmpi pd c ga imm => (0x10, pd.toNat * 2 ^ 44 + ga.toNat * 2 ^ 38 + condCode c * 2 ^ 34 + imm.toNat)
  | .plog pd f pa pb => (0x11, pd.toNat * 2 ^ 44 + pa.toNat * 2 ^ 38 + pb.toNat * 2 ^ 32 + pfnCode f * 2 ^ 30)
  | .ldp gd ga t => (0x12, gd.toNat * 2 ^ 44 + ga.toNat * 2 ^ 38 + tokBits t 31 25)
  | .stp ga gb t => (0x13, ga.toNat * 2 ^ 38 + gb.toNat * 2 ^ 32 + tokBits t 31 25)
  | .rdd gd d => (0x14, gd.toNat * 2 ^ 44 + descBits d)
  | .dwr ga d => (0x15, ga.toNat * 2 ^ 38 + descBits d)
  | .rds gd sel => (0x16, gd.toNat * 2 ^ 44 + sel.val * 2 ^ 28)

/-- The opcodes of slots 3 and 4 (R245). -/
def arrayCode : ArrayOpc → Nat
  | .mm => 1 | .mms => 2 | .dist => 3 | .store => 4 | .zero => 5

/-- The opcodes of slot 7 (R245). -/
def focusCode : FocusOpc → Nat
  | .argmax => 1 | .argmin => 2 | .topk => 3 | .sum => 4 | .norm2 => 5

/-- Slot 8 (R245). -/
def maskWord : MaskOp → Nat × Nat
  | .scomp g t td tiles td2 => (1, g.toNat * 2 ^ 40 + tokBits t 39 33 + td.toNat * 2 ^ 25 + tiles.toNat * 2 ^ 17 + td2.toNat * 2 ^ 7)
  | .prune mo g t => (2, mo.toNat * 2 ^ 46 + g.toNat * 2 ^ 40 + tokBits t 39 33)
  | .grow mo g t => (3, mo.toNat * 2 ^ 46 + g.toNat * 2 ^ 40 + tokBits t 39 33)
  | .mcommit mo => (4, mo.toNat * 2 ^ 46)
  | .mirrorBuild mo t td => (5, mo.toNat * 2 ^ 46 + tokBits t 39 33 + td.toNat * 2 ^ 25)
  | .silh mo g tiles p => (6, mo.toNat * 2 ^ 46 + g.toNat * 2 ^ 40 + tiles.toNat * 2 ^ 17 + p.val * 2 ^ 15)

/-- Slots 9 to 11 (R245). -/
def beamWord : BeamOp → Nat × Nat
  | .copy b tds tdd g t => (1, b.toNat * 2 ^ 48 + tds.toNat * 2 ^ 40 + tdd.toNat * 2 ^ 32 + g.toNat * 2 ^ 26 + tokBits t 25 19)
  | .scrub b tdd g t => (2, b.toNat * 2 ^ 48 + tdd.toNat * 2 ^ 32 + g.toNat * 2 ^ 26 + tokBits t 25 19)

/-- ROP (R245). -/
def ropCode : RedOp → Nat
  | .sumU64 => 0 | .maxS64 => 1 | .sumF32 => 2 | .maxF32 => 3

/-- Slot 12 (R245). -/
def jorxWord : JorxOp → Nat × Nat
  | .put td g t => (1, td.toNat * 2 ^ 44 + g.toNat * 2 ^ 38 + tokBits t 34 28)
  | .get td g t => (2, td.toNat * 2 ^ 44 + g.toNat * 2 ^ 38 + tokBits t 34 28)
  | .barrier n t => (3, n.toNat * 2 ^ 35 + tokBits t 34 28)
  | .flagred g n t => (4, g.toNat * 2 ^ 38 + n.toNat * 2 ^ 35 + tokBits t 34 28)
  | .smallred g n r t => (5, g.toNat * 2 ^ 38 + n.toNat * 2 ^ 35 + tokBits t 34 28 + ropCode r * 2 ^ 25)
  | .bcast td g n t => (6, td.toNat * 2 ^ 44 + g.toNat * 2 ^ 38 + n.toNat * 2 ^ 35 + tokBits t 34 28)

/-- Slot 13 (R245). -/
def spkWord : SpkOp → Nat × Nat
  | .seed g gen => (1, g.toNat * 2 ^ 46 + flagBit gen 45)
  | .seedFresh g gen t => (2, g.toNat * 2 ^ 46 + flagBit gen 45 + tokBits (some t) 36 30)
  | .draw g td t => (3, g.toNat * 2 ^ 46 + td.toNat * 2 ^ 37 + tokBits t 36 30)
  | .umbra t => (4, tokBits t 36 30)

/-- ACT (R245). -/
def cntCode : CntAct → Nat
  | .freeze => 0 | .thaw => 1 | .snapshot => 2 | .clear => 3

/-- Slot 14 (R245). -/
def telWord : TelOp → Nat × Nat
  | .glint td g clr t => (1, td.toNat * 2 ^ 44 + g.toNat * 2 ^ 38 + flagBit clr 37 + tokBits t 36 30)
  | .mark c => (2, c.toNat)
  | .cnt a => (3, cntCode a * 2 ^ 16)

/-- The opcode and the operand bits of an operation. -/
def opWord : SlotOp → Nat × Nat
  | .hold => (0, 0)
  | .ctl o => ctlWord o
  | .scalar o => scalarWord o
  | .array o a => (arrayCode o, a.tiles.toNat * 2 ^ 44 + a.p.val * 2 ^ 42 + a.ld.toNat * 2 ^ 37 + tokBits a.tok 36 30)
  | .lens o a => ((match o with
      | .chain => 1
      | .update => 2), a.cd.toNat * 2 ^ 46 + a.g.toNat * 2 ^ 40 + tokBits a.tok 39 33)
  | .focus o a => (focusCode o, a.tdi.toNat * 2 ^ 44 + a.tdv.toNat * 2 ^ 36 + a.tdx.toNat * 2 ^ 28 + a.g.toNat * 2 ^ 22 + tokBits a.tok 21 15)
  | .mask o => maskWord o
  | .beam o => beamWord o
  | .jorx o => jorxWord o
  | .spk o => spkWord o
  | .tel o => telWord o
  | .ext t hi => (1, t.toNat * 2 ^ 48 + hi.toNat)

/-- The word of a slot (R216). -/
def slotWord (psel : BitVec 4) (o : SlotOp) : Nat := (opWord o).1 * 2 ^ 56 + psel.toNat * 2 ^ 52 + (opWord o).2

end Sys2Proof.Machine
end

