-- ==== Sys2Proof/Safety.lean ====
section
/-! DEFINITION. The terms statements use: what holds of every state of a run, when a command's own effect happens, and what a command
leaves alone. -/

namespace Sys2Proof.Machine

/-- Memory is in its canonical form: addresses strictly rising, no entry equal to what an unlisted address reads as. -/
abbrev Memory.wf (m : FMap Byte) : Bool := m.wf memDefault

/-- The modes of power and reset (R493, R495, R499): boot goes on only outside reset, a rail is low only in reset, and outside reset both
reset pins are high, no THERMTRIP is latched and REFCLK runs. -/
abbrev PowerSt.ok (p : PowerSt) : Bool :=
  (!p.booting || !p.inReset) && (!p.railLow || p.inReset) && (p.inReset || (!p.rstLow && !p.perstLow && !p.tripped && !p.noRef))

/-- The invariant of every step: memory is in its canonical form, and the modes of power and reset are those that can be. -/
abbrev State.Inv (s : State) : Prop := Memory.wf s.mem = true ∧ s.power.ok = true

/-- The Lantern of a shade issues in this core cycle a bundle of one slot under predicate psel that needs no token and no queue (R227,
R236, R237): it runs, is not yielding nor asked to stop, the predicate is true, no SEED waits to start with the bundle, no
LOCKSTEP injection is armed, and the bundle is not drawn for a tag (R460). -/
def State.issuesFree (s : State) (sh : ShadeIx) (psel : BitVec 4) : Bool :=
  let x := s.sh sh
  x.issues && x.lan.pred psel && x.lan.yielding.isNone && !x.lan.stopReq && (x.queue.all fun q => !q.isSeed)
  && !s.bitR .lant (s.leadP sh) 0x20 3 && !s.tagDrawn sh

/-- t is s with a shade's state become x; of registers, only the event counters of its lead prism's LANT page may differ, and
nothing else of the device does. -/
def State.shadeBecomes (s : State) (sh : ShadeIx) (x : ShadeSt) (t : State) : Prop :=
  t = { s.modSh sh (fun _ => x) with regs := t.regs, inCond := t.inCond }
  ∧ ∀ k i o, i < 1024 → o < 4096 → ¬ (k = .lant ∧ i = s.leadP sh ∧ 0x80 ≤ o ∧ o < 0xC0) → t.getR k i o = s.getR k i o

/-- The Lantern l after a bundle that `was` issued from has issued: fetch goes on as slot 0 directs, one more bundle is counted, and
no WAIT is timed (R227, R234, R241). -/
def Lantern.issued (was l : Lantern) (o : Option CtlOp) : Lantern :=
  { nextPc was l o with bundles := was.bundles + 1, waitSince := none }

/-- Of the registers, only those that P names differ between s and t. -/
def State.onlyRegs (s t : State) (P : PageKind → Nat → Nat → Prop) : Prop :=
  ∀ k i o, i < 1024 → o < 4096 → ¬ P k i o → t.getR k i o = s.getR k i o

/-- The event counters of a page (R457). -/
def eventCounter (k : PageKind) (i : Nat) (k' : PageKind) (i' o : Nat) : Prop := k' = k ∧ i' = i ∧ 0x80 ≤ o ∧ o < 0xC0

/-- What shows a raised source: the registers of the Beacon targets (R434, R435, R438). -/
def beaconReg (k : PageKind) : Prop := k = .bcnTgt

/-- t is s but for registers, counter remainders, Beacon, the host's tables, Afterglow and the shades. -/
def State.reportsIn (s t : State) : Prop :=
  t = { s with regs := t.regs, units := t.units, inCond := t.inCond, bcn := t.bcn, host := t.host, agq := t.agq, fresh := t.fresh, shades := t.shades }

/-- Every other shade is as it was. -/
def State.otherShades (s t : State) (sh : ShadeIx) : Prop := ∀ z, z ≠ sh → t.sh z = s.sh z

/-- A source that can be raised is pending at its target (R433). -/
def State.signals (s t : State) (n : Nat) : Prop := s.bcnPrio n ≠ 0 → n ∈ t.bcn.pend

/-- A Lantern that begins its next bundle: one more counted, no WAIT timed (R241, R244). -/
def Lantern.counted (l : Lantern) : Lantern := { l with bundles := l.bundles + 1, waitSince := none }

/-- Memory is as it was but for n bytes at a key, which are bs. -/
def State.stored (s t : State) (k : Nat) (bs : List Byte) : Prop :=
  ∀ a, t.rd a = if h : k ≤ a ∧ a < k + bs.length then bs[a - k]'(by omega) else s.rd a

/-- A unit row runs operation q of its kind from its queue (R228): q is the oldest of the kind that no earlier entry holds back, no retraining
delays it, its captures are made and its start check passes; u is the device as it runs. -/
def State.startsAs (s : State) (sh : ShadeIx) (kind : QOp → Bool) (q : QOp) (u : State) : Prop :=
  (s.sh sh).unitsRun = true ∧ firstStart kind [] (s.sh sh).queue = some q ∧ s.retrainWaits q = false
  ∧ ∃ a b, s.capture sh q = .go a ∧ a.unitReady sh q = .go b ∧ u = (b.take sh q).tagStart sh q.id

/-- Operation q is complete: what waits is the release of its token, or nothing where it has neither token nor results (R230, R242). -/
def State.completes (u t : State) (sh : ShadeIx) (q : QOp) (results : List (Nat × W64)) : Prop :=
  (t.sh sh).running = (u.sh sh).running.filterMap fun r =>
    if r.q.id = q.id then (if r.q.op.tok = none ∧ results = [] then none else some { r with done := true, results := results }) else some r

/-- The problem p of a tile. -/
def State.problem (s : State) (prism tile p : Nat) : ProbSt := (s.tile prism tile).prob p

/-- t is u but for what the tensor work of a shade's units may touch: memory and its errors, registers and what reports, the tiles, the glint sums,
the counter of free values and the shades. -/
def State.worksOn (u t : State) : Prop :=
  t = { u with regs := t.regs, units := t.units, inCond := t.inCond, bcn := t.bcn, host := t.host, agq := t.agq, fresh := t.fresh
               shades := t.shades, mem := t.mem, ecc := t.ecc, tiles := t.tiles, glints := t.glints }

/-- A record of n words of body would reach the shade's queue (R451): the queue is enabled and the shade's, and the staging buffer has room. -/
def State.takesRecord (s : State) (sh : ShadeIx) (n : Nat) : Prop :=
  let r := s.getR .agqm 0 (0x140 + 4 * sh.val)
  bitOf r 8 = true ∧ s.ownerQ (bitsOf r 7 0) = sh.val ∧ s.stagedCells + ceilDiv (16 + 8 * n) 64 ≤ 128

/-- A record of a type and a body is staged last, stamped with TIME (R451, R453). -/
def State.records (s t : State) (sh : ShadeIx) (typ : Nat) (body : List Nat) : Prop :=
  t.agq.staged = s.agq.staged
    ++ [⟨bitsOf (s.getR .agqm 0 (0x140 + 4 * sh.val)) 7 0, typ, some sh, 16 + 8 * body.length, s.tb :: body.map (BitVec.ofNat 64)⟩]

/-- A register is an event counter: twice eight of 64 bits (R457). -/
def eventReg (o : Nat) : Prop := 0x80 ≤ o ∧ o < 0xC0

/-- A message has joined what a port sent; the other ports are as they were (R357). -/
def State.sentOn (s t : State) (i : PortIx) (m : Msg) : Prop :=
  t.port i = (s.port i).push (msgVc m) (some m) (1 + bodyFlits m.head.len.toNat) ∧ ∀ j, j ≠ i → t.port j = s.port j

/-- A message has left by the hop its route gives (R358, R366). -/
def State.leaves (s t : State) (m : Msg) (avoid : Option PortIx) : Prop :=
  ∃ x, s.route m.head.src.toNat m.head.dst.toNat m.head.tsel avoid = some x ∧ s.sentOn t x.port { m with head := s.hopHead m.head x }

/-- A message for this device that R360 lets in arrives on an UP port; u is the device with its flits counted. -/
def State.takesIn (s : State) (i : PortIx) (m : Msg) (u : State) : Prop :=
  s.portUp i.val = true ∧ s.idValid = true ∧ (m.head.dst.toNat = s.devId ∨ Body.neighbour m.body = true) ∧ s.stale m = false
  ∧ u = s.rxFlits i (1 + bodyFlits m.head.len.toNat)

/-- t is s but for registers, counter remainders, Beacon, the host's tables, Afterglow and Jorx: no shade and no memory changes. -/
def State.linksIn (s t : State) : Prop :=
  t = { s with regs := t.regs, units := t.units, inCond := t.inCond, bcn := t.bcn, host := t.host, agq := t.agq, jorx := t.jorx }

/-- The register is one of a port's own, an event counter, of a Beacon target, or AGQ_DEV_DROP. -/
def portReg (i : PortIx) (k : PageKind) (inst o : Nat) : Prop :=
  (k = .jport ∧ inst = i.val) ∨ eventReg o ∨ beaconReg k ∨ (k = .agqm ∧ inst = 0 ∧ o = 0x108)

/-- The message that a command brings to a port. -/
def commandMessage (i : Instr) : Option (PortIx × Msg) :=
  match i with
  | .messageRoute p m => some (p, m)
  | .badMsg p h t => some (p, ⟨h, .reserved t⟩)
  | .putMsg p h t l => some (p, ⟨h, .put t l⟩)
  | .ackMsg p h q => some (p, ⟨h, .ack q⟩)
  | .nackMsg p h g a => some (p, ⟨h, .nack g a⟩)
  | .getReqMsg p h t f c g => some (p, ⟨h, .getReq t f c g⟩)
  | .getDataMsg p h g l => some (p, ⟨h, .getData g l⟩)
  | .arriveMsg p h c d w x => some (p, ⟨h, .arrive c d w x⟩)
  | .releaseMsg p h c t w x => some (p, ⟨h, .release c t w x⟩)
  | .bcastDataMsg p h c t l => some (p, ⟨h, .bcastData c t l⟩)
  | .deadMsg p h x e => some (p, ⟨h, .dead x e⟩)
  | .aliveMsg p h x e => some (p, ⟨h, .alive x e⟩)
  | .joinMsg p h e => some (p, ⟨h, .join e⟩)
  | .probeMsg p h r => some (p, ⟨h, .probe r⟩)
  | .marriveMsg p h k a => some (p, ⟨h, .marrive k a⟩)
  | .mreleaseMsg p h k t o => some (p, ⟨h, .mrelease k t o⟩)
  | _ => none

/-- The shade, predicate, slot and operation that a unit operation's command issues (R245). -/
def unitSlot (i : Instr) : Option (ShadeIx × BitVec 4 × Nat × SlotOp) :=
  match i with
  | .mm sh (.issue p a) => some (sh, p, 3, .array .mm a)
  | .mms sh (.issue p a) => some (sh, p, 3, .array .mms a)
  | .dist sh (.issue p a) => some (sh, p, 3, .array .dist a)
  | .store sh (.issue p a) => some (sh, p, 3, .array .store a)
  | .zero sh (.issue p a) => some (sh, p, 3, .array .zero a)
  | .chain sh ctx (.issue p a) => some (sh, p, if ctx then 6 else 5, .lens .chain a)
  | .update sh ctx (.issue p a) => some (sh, p, if ctx then 6 else 5, .lens .update a)
  | .argmax sh (.issue p a) => some (sh, p, 7, .focus .argmax a)
  | .argmin sh (.issue p a) => some (sh, p, 7, .focus .argmin a)
  | .topk sh (.issue p a) => some (sh, p, 7, .focus .topk a)
  | .sum sh (.issue p a) => some (sh, p, 7, .focus .sum a)
  | .norm2 sh (.issue p a) => some (sh, p, 7, .focus .norm2 a)
  | .scomp sh (.issue p a) => some (sh, p, 8, .mask (.scomp a.g a.tok a.td a.tiles a.td2))
  | .prune sh (.issue p a) => some (sh, p, 8, .mask (.prune a.mo a.g a.tok))
  | .grow sh (.issue p a) => some (sh, p, 8, .mask (.grow a.mo a.g a.tok))
  | .mcommit sh (.issue p a) => some (sh, p, 8, .mask (.mcommit a))
  | .mirrorBuild sh (.issue p a) => some (sh, p, 8, .mask (.mirrorBuild a.mo a.tok a.td))
  | .silh sh (.issue p a) => some (sh, p, 8, .mask (.silh a.mo a.g a.tiles a.p))
  | .copy sh (.issue p a) => some (sh, p, 9, .beam (.copy a.beam a.tds a.tdd a.g a.tok))
  | .gather sh (.issue p a) => some (sh, p, 9, .beam (.copy a.beam a.tds a.tdd a.g a.tok))
  | .scatter sh (.issue p a) => some (sh, p, 9, .beam (.copy a.beam a.tds a.tdd a.g a.tok))
  | .commitWrite sh (.issue p a) => some (sh, p, 9, .beam (.copy a.beam a.tds a.tdd a.g a.tok))
  | .scrub sh (.issue p a) => some (sh, p, 9, .beam (.scrub a.beam a.tdd a.g a.tok))
  | .put sh (.issue p a) => some (sh, p, 12, .jorx (.put a.td a.g a.tok))
  | .get sh (.issue p a) => some (sh, p, 12, .jorx (.get a.td a.g a.tok))
  | .barrier sh (.issue p a) => some (sh, p, 12, .jorx (.barrier a.grp a.tok))
  | .flagred sh (.issue p a) => some (sh, p, 12, .jorx (.flagred a.g a.grp a.tok))
  | .smallred sh (.issue p a) => some (sh, p, 12, .jorx (.smallred a.g a.grp a.rop a.tok))
  | .bcast sh (.issue p a) => some (sh, p, 12, .jorx (.bcast a.td a.g a.grp a.tok))
  | .seed sh (.issue p a) => some (sh, p, 13, .spk (.seed a.g a.gen))
  | .seedFresh sh (.issue p a) => some (sh, p, 13, .spk (.seedFresh a.g a.gen a.tok))
  | .draw sh (.issue p a) => some (sh, p, 13, .spk (.draw a.g a.td a.tok))
  | .umbra sh (.issue p a) => some (sh, p, 13, .spk (.umbra a))
  | .glint sh (.issue p a) => some (sh, p, 14, .tel (.glint a.td a.g a.clr a.tok))
  | .mark sh (.issue p a) => some (sh, p, 14, .tel (.mark a))
  | .cnt sh (.issue p a) => some (sh, p, 14, .tel (.cnt a))
  | _ => none

/-- A register access that is taken: the path is up, reaches the page and may write the register, the page answers, and its shade is not
in reset (R441, R500, R505, R514 to R519). -/
def State.accepts (s : State) (path : Path) (k : PageKind) (inst off : Nat) : Prop :=
  s.pathUp path k = true ∧ s.reaches path ⟨k, inst⟩ = true ∧ s.answers path k = true ∧ s.pageResets ⟨k, inst⟩ = false
  ∧ mayWrite path k off = true

end Sys2Proof.Machine
end

