-- ==== Sys2Proof/WellFormed.lean ====
section
/-! DEFINITION. Which commands are well formed: an operand that names one of the device's things names one that exists. -/

namespace Sys2Proof

/-- A Beam number is 0 to 3 or 8 to 15 (R245). -/
def beamExists (b : BitVec 4) : Bool := decide (b.toNat < 4) || decide (8 ≤ b.toNat)

/-- The Beam of a copy command exists. -/
def Src.copyOk : Src CopyArgs → Bool
  | .issue _ a => beamExists a.beam
  | .queued => true

/-- The Beam of a SCRUB exists. -/
def Src.scrubOk : Src ScrubArgs → Bool
  | .issue _ a => beamExists a.beam
  | .queued => true

/-- The word exists: a tile scratch has 1 MiB, the pool 0xFC000 words of 8 B below the descriptor copies, a bundle store 2 MiB
(R224, R251, R272). -/
def SramWord.inRange : SramWord → Bool
  | .ts _ _ w => decide (w < 131072)
  | .pool _ w => decide (w < 0xFC000)
  | .store _ w => decide (w < 262144)
  | .desc _ w => decide (w < 16384)

/-- A command is well formed: its Beam exists (R245), the EXT's target is one of the two scalar slots (R246), the SRAM word exists, and so
do the PLL (R501), the ownership word of its tier and the retention word (R422). -/
def Instr.wf : Instr → Bool
  | .copy _ a => a.copyOk
  | .gather _ a => a.copyOk
  | .scatter _ a => a.copyOk
  | .commitWrite _ a => a.copyOk
  | .scrub _ a => a.scrubOk
  | .ext _ _ target _ _ => target == 1 || target == 2
  | .patrolRead w _ => w.inRange
  | .eccWriteback w => w.inRange
  | .pllFail pll => decide (pll.toNat < 11)
  | .memOwnerWrite _ deep n _ => decide (n.toNat < if deep then 240 else 72)
  | .retainClear _ n _ => decide (n.toNat < 30)
  | _ => true

end Sys2Proof
end

