-- ==== Sys2Proof/Certificates/Slice0/Obligations.lean ====
section
/-! DEFINITION. The statements for the provers. -/

open Sys2Proof Sys2Proof.Machine

/-! ## The Lantern: scalar slots (R238 to R241, R246) -/

/-- R239: each scalar operation writes g[GD] with the value the table gives, from the registers before its bundle, modulo 2^64, and
nothing else but the passing of the bundle.
R246: an EXT gives the scalar operation in its target slot the upper 32 bits of its immediate. -/
def Obligations.ScalarResults : Prop :=
  (∀ (s : State) (sh : ShadeIx) (psel : BitVec 4) (gd ga gb : GReg) (imm : BitVec 32),
      s.issuesFree sh psel = true → (s.sh sh).lan.pendG.getLsbD gd.toNat = false →
      let l := (s.sh sh).lan
      let a := l.greg ga
      let b := l.greg gb
      ∀ i v, (i, v) ∈ [
          (Instr.movi sh psel gd imm, imm.signExtend 64), (.mov sh psel gd ga, a), (.add sh psel gd ga gb, a + b),
          (.sub sh psel gd ga gb, a - b), (.addi sh psel gd ga imm, a + imm.signExtend 64), (.mul sh psel gd ga gb, a * b),
          (.and_ sh psel gd ga gb, a &&& b), (.or_ sh psel gd ga gb, a ||| b), (.xor_ sh psel gd ga gb, a ^^^ b),
          (.shl sh psel gd ga gb, a <<< (b.toNat % 64)), (.shr sh psel gd ga gb, a >>> (b.toNat % 64)),
          (.sar sh psel gd ga gb, a.sshiftRight (b.toNat % 64)), (.minu sh psel gd ga gb, if a.toNat < b.toNat then a else b),
          (.maxu sh psel gd ga gb, if a.toNat < b.toNat then b else a)] →
        ∃ t, exec i s = .next t ∧ s.shadeBecomes sh { s.sh sh with lan := l.issued (l.setG gd v) none } t)
  ∧ ∀ (s : State) (sh : ShadeIx) (psel target : BitVec 4) (hi imm : BitVec 32) (gd ga : GReg),
      s.issuesFree sh psel = true → (s.sh sh).lan.pendG.getLsbD gd.toNat = false → target = 1 ∨ target = 2 →
      let l := (s.sh sh).lan
      (∃ t, exec (.ext sh psel target hi (.movi gd imm)) s = .next t
        ∧ s.shadeBecomes sh { s.sh sh with lan := l.issued (l.setG gd (hi ++ imm)) none } t)
      ∧ (∃ t, exec (.ext sh psel target hi (.addi gd ga imm)) s = .next t
        ∧ s.shadeBecomes sh { s.sh sh with lan := l.issued (l.setG gd (l.greg ga + (hi ++ imm))) none } t)
      ∧ ∀ pd, pd ≠ 0 → ∃ t, exec (.ext sh psel target hi (.cmpi pd .eq ga imm)) s = .next t
        ∧ s.shadeBecomes sh { s.sh sh with lan := l.issued (l.setP pd (l.greg ga == hi ++ imm)) none } t

/-- R240, R241: RDD reads the lead prism's copy of the descriptor word, RDS the device state that SEL names. -/
def Obligations.ScalarReads : Prop :=
  ∀ (s : State) (sh : ShadeIx) (psel : BitVec 4) (gd : GReg),
    s.issuesFree sh psel = true → (s.sh sh).lan.pendG.getLsbD gd.toNat = false →
    let l := (s.sh sh).lan
    (∀ (d : DescRef), d.rsvd false = false →
      ∃ t, exec (.rdd sh psel gd d) s = .next t ∧ s.shadeBecomes sh { s.sh sh with lan := l.issued (l.setG gd
        ((s.sh sh).desc.get descDefault (match d with
          | .td n w => 16 * n.toNat + w.toNat
          | .mo n w => 4096 + 8 * n.toNat + w.toNat
          | .cd n w => 4608 + 8 * n.toNat + w.toNat
          | .layer n w => 5120 + 8 * n.toNat + w.toNat
          | .ld n w ts => 8192 + 16 * (32 * (((List.range 8).filter fun i => ts.getLsbD i).headD 0) + n.toNat) + w.toNat))) none } t)
    ∧ (∀ (sel : Fin 10) (v : W64), (sel, v) ∈ [
          ((0 : Fin 10), BitVec.ofNat 64 (s.safeStep sh)), (1, s.tb), (2, BitVec.ofNat 64 sh.val),
          (3, BitVec.ofNat 64 (s.prismsOf sh).length), (4, BitVec.ofNat 64 (s.leadL sh)),
          (5, BitVec.ofNat 64 (s.getR64 .speckle (shInst sh) 0x100)),
          (6, (BitVec.ofNat 6 (s.getF .safe (shInst sh) 0x10C 5 0)).signExtend 64),
          (7, BitVec.ofNat 64 (s.getF .safe (shInst sh) 0x108 2 0)), (8, l.bundles), (9, l.cycles)] →
      ∃ t, exec (.rds sh psel gd sel) s = .next t ∧ s.shadeBecomes sh { s.sh sh with lan := l.issued (l.setG gd v) none } t)

/-- R239: CMP, CMPI and PLOG write p[PD] and nothing else but the passing of the bundle; p0 reads true (R238). -/
def Obligations.PredicateResults : Prop :=
  ∀ (s : State) (sh : ShadeIx) (psel pd pa pb : BitVec 4) (ga gb : GReg) (imm : BitVec 32),
    s.issuesFree sh psel = true → pd ≠ 0 →
    let l := (s.sh sh).lan
    let p (n : BitVec 4) : Bool := n == 0 || l.p.getLsbD n.toNat
    let cond (x y : W64) : List (Cond × Bool) := [(.eq, x == y), (.ne, x != y), (.lts, decide (x.toInt < y.toInt)),
      (.les, decide (x.toInt ≤ y.toInt)), (.ltu, decide (x.toNat < y.toNat)), (.leu, decide (x.toNat ≤ y.toNat)), (.tst, (x &&& y) != 0),
      (.ntst, (x &&& y) == 0)]
    let done (i : Instr) (v : Bool) : Prop :=
      ∃ t, exec i s = .next t ∧ s.shadeBecomes sh { s.sh sh with lan := l.issued { l with
        p := if v then l.p ||| BitVec.ofNat 16 (2 ^ pd.toNat) else l.p &&& ~~~ BitVec.ofNat 16 (2 ^ pd.toNat) } none } t
    (∀ c v, (c, v) ∈ cond (l.greg ga) (l.greg gb) → done (.cmp sh psel pd c ga gb) v)
    ∧ (∀ c v, (c, v) ∈ cond (l.greg ga) (imm.signExtend 64) → done (.cmpi sh psel pd c ga imm) v)
    ∧ (∀ f v, (f, v) ∈ [(PFn.and, p pa && p pb), (.or, p pa || p pb), (.xor, p pa != p pb), (.andn, p pa && !p pb)] →
        done (.plog sh psel pd f pa pb) v)

/-! ## The Lantern: control (R233 to R237, R243, R332) -/

/-- R234: after a bundle at `pc`, fetch goes on at the next address, unless an active loop ends there: the most recently started one
goes back to the first bundle of its body while iterations remain, and ends otherwise. -/
def Obligations.LoopTest : Prop :=
  ∀ (l : Lantern) (pc : Nat),
    ((∀ i : Fin 4, ¬ (l.loops[i.val].active = true ∧ l.loops[i.val].endAddr = pc)) → l.advance pc = { l with pc := BitVec.ofNat 14 (pc + 1) })
    ∧ ∀ i : Fin 4, l.loops[i.val].active = true → l.loops[i.val].endAddr = pc →
        (∀ j : Fin 4, j ≠ i → l.loops[j.val].active = true → l.loops[j.val].endAddr = pc → l.loops[j.val].stamp < l.loops[i.val].stamp) →
        (1 < l.loops[i.val].remaining → l.advance pc = { l with
          loops := l.loops.set i.val { l.loops[i.val] with remaining := l.loops[i.val].remaining - 1 }, pc := BitVec.ofNat 14 l.loops[i.val].start })
        ∧ (l.loops[i.val].remaining ≤ 1 → l.advance pc = ({ l with loops := l.loops.set i.val { l.loops[i.val] with active := false } }).advance pc)

/-- R233, R234, R235, R243: BR, LOOP, REPEAT and a satisfied WAIT issue and direct what issues next, and change nothing else.
R243: while a WAIT is not satisfied its bundle does not issue: the time from which it holds is noted, and nothing else but the
event counters changes. -/
def Obligations.ControlFlow : Prop :=
  (∀ (s : State) (sh : ShadeIx) (psel : BitVec 4),
      s.issuesFree sh psel = true → (s.sh sh).lan.rep = none →
      let l := (s.sh sh).lan
      let l1 := { l with bundles := l.bundles + 1, waitSince := none }
      let done (i : Instr) (l' : Lantern) : Prop := ∃ t, exec i s = .next t ∧ s.shadeBecomes sh { s.sh sh with lan := l' } t
      (∀ b, l.brTarget b ≤ 16383 → done (.br sh psel b) ({ l1 with
          loops := l.loops.map fun c => if c.active = true ∧ ¬ (c.start ≤ l.brTarget b ∧ l.brTarget b ≤ c.endAddr) then { c with active := false } else c,
          pc := BitVec.ofNat 14 (l.brTarget b) }))
      ∧ (∀ lc c e, l.pc.toNat < e.toNat → 0 < l.countOf c → l.countOf c < 2 ^ 32 →
          done (.loop sh psel lc c e) (({ l1 with
            loops := l.loops.set lc.toNat ⟨true, l.pc.toNat + 1, e.toNat, l.countOf c, l.bundles.toNat⟩ }).advance l.pc.toNat))
      ∧ (∀ lc c e, l.pc.toNat < e.toNat → l.countOf c = 0 →
          done (.loop sh psel lc c e) (({ l1 with loops := l.loops.set lc.toNat ⟨false, 0, 0, 0, 0⟩ }).branch (e.toNat + 1)))
      ∧ (∀ c, c ≠ .imm 0 → 0 < l.countOf c → l.countOf c < 2 ^ 32 →
          done (.repeat_ sh psel c) { l1.advance l.pc.toNat with rep := some (l.countOf c) })
      ∧ (∀ g, l.greg g = 0 → done (.repeat_ sh psel (.reg g)) ((l1.advance l.pc.toNat).advance (l1.advance l.pc.toNat).pc.toNat))
      ∧ (∀ m, (match m with
            | .all g => ∀ i : Fin 64, (l.greg g).getLsbD i = true → l.tok[i.val] = 0
            | .any g => l.greg g = 0 ∨ ∃ i : Fin 64, (l.greg g).getLsbD i = true ∧ l.tok[i.val] = 0
            | .one k => l.tok[k.toNat] = 0) → done (.wait sh psel m) (l1.advance l.pc.toNat)))
  ∧ ∀ (s : State) (sh : ShadeIx) (psel : BitVec 4) (m : WaitMode),
      s.issuesFree sh psel = true →
      let l := (s.sh sh).lan
      (match m with
        | .all g => ∃ i : Fin 64, (l.greg g).getLsbD i = true ∧ l.tok[i.val] ≠ 0
        | .any g => l.greg g ≠ 0 ∧ ∀ i : Fin 64, (l.greg g).getLsbD i = true → l.tok[i.val] ≠ 0
        | .one k => l.tok[k.toNat] ≠ 0) →
      ∃ t, exec (.wait sh psel m) s = .next t
        ∧ s.shadeBecomes sh { s.sh sh with lan := { l with waitSince := some (l.waitSince.getD s.tb.toNat) } } t

/-- R236, R237, R332: YIELD, PHASE and HALT issue. A YIELD lets nothing more issue until its yield point; a PHASE charges the time since
the last PHASE to the phase that was in force; a HALT shows its CODE, stops the Lantern and signals the LANT source. -/
def Obligations.YieldPhaseHalt : Prop :=
  ∀ (s : State) (sh : ShadeIx) (psel : BitVec 4),
    s.issuesFree sh psel = true → (s.sh sh).lan.rep = none →
    let x := s.sh sh
    let l1 := x.lan.counted.advance x.lan.pc.toNat
    (∀ e, ∃ t, exec (.yield sh psel e) s = .next t
      ∧ s.shadeBecomes sh { x with lan := { l1 with yielding := some e, yieldPc := x.lan.pc.toNat } } t)
    ∧ (∀ ph : BitVec 3, ph.toNat < 6 → ∃ t, exec (.phase sh psel ph) s = .next t
      ∧ t.sh sh = { x with lan := l1, saf := { x.saf with phase := ph, phaseAt := s.tb.toNat, phaseSpent := 0 } }
      ∧ t.getR .tstate sh.val 0x120 = ph.toNat
      ∧ t.getR64 .tstate sh.val (0x140 + 8 * x.saf.phase.toNat)
          = (s.getR64 .tstate sh.val (0x140 + 8 * x.saf.phase.toNat) + x.saf.phaseSpent + (s.tb.toNat - x.saf.phaseAt)) % 2 ^ 64
      ∧ t = { s with regs := t.regs, inCond := t.inCond, shades := t.shades } ∧ s.otherShades t sh
      ∧ s.onlyRegs t fun k i o => eventCounter .lant (s.leadP sh) k i o ∨ (k = .tstate ∧ i = sh.val
          ∧ (o = 0x120 ∨ o = 0x140 + 8 * x.saf.phase.toNat ∨ o = 0x144 + 8 * x.saf.phase.toNat)))
    ∧ ∀ code, ∃ t, exec (.halt sh psel code) s = .next t
      ∧ t.sh sh = { x with
          lan := { l1 with halted := true, stopReq := false }
          rep := { x.rep with preemptReq := false, forceReq := false }
          saf := { x.saf with phaseSpent := x.saf.phaseSpent + (s.tb.toNat - x.saf.phaseAt) } }
      ∧ t.getR .lant (shInst sh) 0x114 = code.toNat ∧ s.signals t (shadeSrc sh 0)
      ∧ s.reportsIn t ∧ t.agq = s.agq ∧ s.otherShades t sh
      ∧ s.onlyRegs t fun k i o => eventCounter .lant (s.leadP sh) k i o ∨ (k = .lant ∧ i = shInst sh ∧ o = 0x114) ∨ beaconReg k

/-- R240, R252, R262: a DWR writes the word in every copy it names (for an LD those of its tiles), logs the old contents and the old
pass cursors, and zeroes the cursors of an LD that is or becomes a nest entry (bit 0 of word 0 clear); nothing else changes. -/
def Obligations.DescriptorWrite : Prop :=
  ∀ (s : State) (sh : ShadeIx) (psel : BitVec 4) (ga : GReg) (d : DescRef),
    s.issuesFree sh psel = true → d.rsvd true = false → (s.sh sh).dwrLog.length < 256 →
    let x := s.sh sh
    let v := x.lan.greg ga
    let old (k : Nat) : W64 := x.desc.get descDefault k
    let tiles : List Nat := match d with
      | .ld _ _ ts => (List.range 8).filter fun t => ts.getLsbD t
      | _ => [0]
    let word (t : Nat) : Nat := match d with
      | .td n w => 16 * n.toNat + w.toNat
      | .mo n w => 4096 + 8 * n.toNat + w.toNat
      | .cd n w => 4608 + 8 * n.toNat + w.toNat
      | .layer n w => 5120 + 8 * n.toNat + w.toNat
      | .ld n w _ => 8192 + 16 * (32 * t + n.toNat) + w.toNat
    let cursor : List Nat := match d with
      | .ld n _ ts => ((List.range 8).filter fun t => ts.getLsbD t).map fun t => 32 * t + n.toNat
      | _ => []
    ∃ t, exec (.dwr sh psel ga d) s = .next t
      ∧ (∀ k, (t.sh sh).desc.get descDefault k = if k ∈ tiles.map word then v else old k)
      ∧ (t.sh sh).dwrLog = x.dwrLog ++ [⟨tiles.map fun i => (word i, old (word i)), cursor.map fun c => (c, x.cursors.get curDefault c)⟩]
      ∧ (∀ c, (t.sh sh).cursors.get curDefault c = if c ∈ cursor ∧ ((old (8192 + 16 * c)).getLsbD 0 = false
            ∨ ((t.sh sh).desc.get descDefault (8192 + 16 * c)).getLsbD 0 = false) then 0 else x.cursors.get curDefault c)
      ∧ s.shadeBecomes sh { x with
          desc := (t.sh sh).desc, cursors := (t.sh sh).cursors, dwrLog := (t.sh sh).dwrLog, lan := x.lan.issued x.lan none } t

/-- R239, R242: a load from the lead prism's pool issues with its register pending and its token counted; LDP_COMPLETE writes the register
with the 8 bytes, little-endian, and releases the token. -/
def Obligations.PoolLoad : Prop :=
  ∀ (s : State) (sh : ShadeIx),
    let x := s.sh sh
    let l := x.lan
    (∀ (psel : BitVec 4) (gd ga : GReg) (tok : Tok),
      let a := (l.greg ga).toNat
      let k := poolKey (s.leadP sh) ((s.poolWin (s.leadP sh)).1 + a)
      s.issuesFree sh psel = true → l.pendG.getLsbD gd.toNat = false → (∀ n, tok = some n → l.tok[n.toNat].toNat < 63) →
      a % 8 = 0 → a + 8 ≤ (s.poolWin (s.leadP sh)).2 → s.eccAt k ≠ 2 →
      ∃ t r, exec (.ldp sh psel gd ga tok) s = .next t
        ∧ r.q.op = .scalar (.ldp gd ga tok) ∧ r.done = false ∧ r.results = [(gd.toNat, BitVec.ofNat 64 (s.rdNat k 8))]
        ∧ s.shadeBecomes sh { x with
            lan := l.issued { l with
              tok := match tok with
                | none => l.tok
                | some n => l.tok.set n.toNat (l.tok[n.toNat] + 1)
              pendG := l.pendG ||| BitVec.ofNat 64 (2 ^ gd.toNat) } none
            running := x.running ++ [r], nextId := x.nextId + 1 } t)
    ∧ (∀ (r : Running) (gd ga : GReg) (tok : Tok) (v : W64) (before after : List Running),
      x.running = before ++ r :: after → (∀ b ∈ before, b.done = true ∨ ∀ gd ga tok, b.q.op ≠ .scalar (.ldp gd ga tok)) →
      (∀ b ∈ before ++ after, b.q.id ≠ r.q.id) → r.done = false → r.q.op = .scalar (.ldp gd ga tok) → r.results = [(gd.toNat, v)] →
      exec (.ldpComplete sh) s = .next (s.modSh sh fun _ => { x with
        running := before ++ after
        lan := { l with
          g := l.g.set gd.toNat v
          tok := match tok with
            | none => l.tok
            | some n => l.tok.set n.toNat (l.tok[n.toNat] - if l.tok[n.toNat] = 0 then 0 else 1)
          pendG := l.pendG &&& ~~~ BitVec.ofNat 64 (2 ^ gd.toNat) } }))

/-- R239, R242, R277: STP writes g[GB], little-endian, to 8 bytes of the lead prism's pool at an aligned address inside its window, past the
replay guard (R409), and leaves every other byte; its token, if any, is released by a later TOKEN_RELEASE. -/
def Obligations.PoolStore : Prop :=
  ∀ (s : State) (sh : ShadeIx) (psel : BitVec 4) (ga gb : GReg) (tok : Tok),
    let x := s.sh sh
    let l := x.lan
    let a := (l.greg ga).toNat
    let k := poolKey (s.leadP sh) ((s.poolWin (s.leadP sh)).1 + a)
    s.issuesFree sh psel = true → (∀ n, tok = some n → l.tok[n.toNat].toNat < 63) → x.tag = none →
    a % 8 = 0 → a + 8 ≤ (s.poolWin (s.leadP sh)).2 →
    (∀ i n, i < 8 → n < 8 → s.guardHit sh 9 (a + i) n = true → s.bitR .replay sh.val (0x200 + 16 * n) 5 = false) →
    (∀ q, q ∈ x.running → q.q.id < x.nextId) →
    ∃ t, exec (.stp sh psel ga gb tok) s = .next t
      ∧ s.stored t k (leBytes 8 (l.greg gb).toNat)
      ∧ (t.sh sh).lan = l.issued { l with tok := match tok with
          | none => l.tok
          | some n => l.tok.set n.toNat (l.tok[n.toNat] + 1) } none
      ∧ (tok = none → (t.sh sh).running = x.running)
      ∧ (tok ≠ none → ∃ r, (t.sh sh).running = x.running ++ [r] ∧ r.done = true ∧ r.q.op.tok = tok ∧ r.results = [])
      ∧ t.sh sh = { x with lan := (t.sh sh).lan, running := (t.sh sh).running, nextId := x.nextId + 1 }
      ∧ t = { s with regs := t.regs, inCond := t.inCond, mem := t.mem, ecc := t.ecc, shades := t.shades } ∧ s.otherShades t sh
      ∧ (∀ j, j ≠ k / 8 → t.eccAt (8 * j) = s.eccAt (8 * j))
      ∧ s.onlyRegs t fun r i o => eventCounter .lant (s.leadP sh) r i o ∨ (r = .replay ∧ i = sh.val ∧ ∃ n, n < 8 ∧ o = 0x200 + 16 * n)
          ∨ (r = .scratch ∧ i = (k - 2 ^ 51) / 2 ^ 23 ∧ (o = 0x18 ∨ o = 0x20))

/-! ## The bundle store (R224 to R227) -/

/-- R225, R226: a BPL, or LANT_BPL_CTRL.GO while the Lantern is halted, makes its frame invalid and begins its load; when all of it has arrived
the frame holds the 32 KiB of its source and is valid, every other byte of memory is as it was, and the token, or GO, is released. -/
def Obligations.FrameLoad : Prop :=
  ∀ (s : State) (sh : ShadeIx),
    let x := s.sh sh
    let l := x.lan
    (∀ (psel : BitVec 4) (f : BitVec 6) (g : GReg) (tok : Tok),
      s.issuesFree sh psel = true → l.rep = none → (l.greg g).toNat % 128 = 0 → (∀ n, tok = some n → l.tok[n.toNat].toNat < 63) →
      ∃ t r, exec (.bpl sh psel f g tok) s = .next t ∧ r.q.op = .ctl (.bpl f g tok) ∧ r.done = false
        ∧ s.shadeBecomes sh { x with
            lan := { l.issued { l with tok := match tok with
                | none => l.tok
                | some n => l.tok.set n.toNat (l.tok[n.toNat] + 1) } none with
              frames := l.frames.set f.toNat ⟨false, (l.greg g).toNat, true⟩ }
            running := x.running ++ [r], nextId := x.nextId + 1 } t)
    ∧ (∀ f : BitVec 6, x.life = 1 → l.halted = true → f.toNat = s.getF .lant (shInst sh) 0x134 5 0 →
      s.bitR .lant (shInst sh) 0x134 6 = false → s.getR64 .lant (shInst sh) 0x12C % 128 = 0 →
      ∃ t, exec (.bplGo sh) s = .next t
        ∧ t.getR .lant (shInst sh) 0x134 = s.getR .lant (shInst sh) 0x134 + 64
        ∧ t.sh sh = { x with lan := { l with frames := l.frames.set f.toNat ⟨false, s.getR64 .lant (shInst sh) 0x12C, true⟩ } }
        ∧ t = { s with regs := t.regs, shades := t.shades } ∧ s.otherShades t sh
        ∧ s.onlyRegs t fun k i o => k = .lant ∧ i = shInst sh ∧ o = 0x134)
    ∧ ∀ (f : BitVec 6) (q : Option QOp) (bs : List Byte), s.loadNext sh = some (f, q) → s.retraining false = false → x.tag = none →
      s.frameBytes sh l.frames[f.toNat].src = .ok bs →
      ∃ t, exec (.bplComplete sh) s = .next t
        ∧ s.stored t (storeKey (s.leadP sh) (f.toNat * 32768)) bs ∧ bs.length = 32768
        ∧ (t.sh sh).lan.frames = l.frames.set f.toNat ⟨true, l.frames[f.toNat].src, false⟩
        ∧ (∀ o, q = some o → (t.sh sh).running = x.running.filter (fun r => r.q.id != o.id))
        ∧ (q = none → (t.sh sh).running = x.running ∧ t.bitR .lant (shInst sh) 0x134 6 = false)
        ∧ t.sh sh = { x with lan := (t.sh sh).lan, running := (t.sh sh).running }
        ∧ (t.sh sh).lan = { l with frames := (t.sh sh).lan.frames, tok := (t.sh sh).lan.tok }
        ∧ (∀ n : Fin 64, (t.sh sh).lan.tok[n.val] = match q with
          | none => l.tok[n.val]
          | some o => if o.op.tok = some (BitVec.ofNat 6 n.val) ∧ l.tok[n.val] ≠ 0 then l.tok[n.val] - 1 else l.tok[n.val])
        ∧ s.otherShades t sh ∧ t = { s with regs := t.regs, mem := t.mem, ecc := t.ecc, shades := t.shades }
        ∧ s.onlyRegs t fun k i o => (k = .lant ∧ i = shInst sh ∧ o = 0x134) ∨ eventCounter .lant (s.leadP sh) k i o
            ∨ (k = .lant ∧ i = s.leadP sh ∧ (o = 0x18 ∨ o = 0x20))

/-- R215, R224, R227: BUNDLE_ISSUE issues the bundle that the lead prism's store holds at LANT_PC: 128 bytes, slot i their bits [64i + 63:64i],
little-endian. A bundle whose sixteen words are HOLDs only moves
fetch on; one that holds a single operation does what that operation's own row does.
R226, R227: no bundle issues while the Lantern is halted, rolls back or is held; a fetch from an invalid frame waits while a load into it
is in flight and is BOUND otherwise, which halts the Lantern with LANT_FAULT recorded. -/
def Obligations.BundleFetch : Prop :=
  (∀ (s : State) (sh : ShadeIx),
      let l := (s.sh sh).lan
      let key (i : Nat) : Nat := storeKey (s.leadP sh) (l.pc.toNat * 128 + 8 * i)
      let bundle : Nat := leNat ((List.range 128).map fun b => s.rd (storeKey (s.leadP sh) (l.pc.toNat * 128 + b)))
      (s.sh sh).issues = true → l.frames[(l.pc.extractLsb' 8 6).toNat].valid = true → (∀ i, i < 16 → s.eccAt (key i) ≠ 2) →
      exec (.bundleIssue sh) s = .next (s.issue sh ((List.range 16).map fun i => (i, decodeSlot i (bitsOf bundle (64 * i + 63) (64 * i)))))
      ∧ ((∀ i, i < 16 → s.rdNat (key i) 8 = 0) → s.issuesFree sh 0 = true →
        ∃ t, exec (.bundleIssue sh) s = .next t ∧ s.shadeBecomes sh { s.sh sh with lan := l.issued l none } t)
      ∧ ∀ ix psel o, ix < 16 → (∀ i, i < 16 → i ≠ ix → s.rdNat (key i) 8 = 0) → decodeSlot ix (s.rdNat (key ix) 8) = .ok psel o →
          exec (.bundleIssue sh) s = .next (s.issueOne sh ix psel o))
  ∧ ∀ (s : State) (sh : ShadeIx),
      let l := (s.sh sh).lan
      ((s.sh sh).issues = false → exec (.bundleIssue sh) s = .next s)
      ∧ ((s.sh sh).issues = true → l.frames[(l.pc.extractLsb' 8 6).toNat].valid = false →
        (l.frames[(l.pc.extractLsb' 8 6).toNat].loading = true →
          ∃ t, exec (.bundleIssue sh) s = .next t ∧ s.shadeBecomes sh (s.sh sh) t)
        ∧ (l.frames[(l.pc.extractLsb' 8 6).toNat].loading = false →
          ∃ t, exec (.bundleIssue sh) s = .next t ∧ (t.sh sh).lan = { l with halted := true, stopReq := false, waitSince := none }
            ∧ s.signals t (shadeSrc sh 0) ∧ s.reportsIn t ∧ s.otherShades t sh
            ∧ (s.bitR .lant (shInst sh) 0x10C 15 = false →
                t.getR .lant (shInst sh) 0x10C = 0x04 + 15 * 256 + 1 * 4096 + 2 ^ 15
                ∧ t.getR .lant (shInst sh) 0x110 = l.pc.toNat + s.leadP sh * 2 ^ 16)
            ∧ (s.bitR .lant (shInst sh) 0x10C 15 = true → t.getR .lant (shInst sh) 0x10C = s.getR .lant (shInst sh) 0x10C)))

/-- R216, R217, R219, R232, R239, R245, R246: the word that holds an operation's opcode, PSEL and fields at the places the tables give decodes to that
operation, for every operation of the slot's class and every operand that is not reserved. -/
def Obligations.SlotRoundTrip : Prop :=
  ∀ (ix : Nat) (psel : BitVec 4) (o : SlotOp), ix < 16 → o ≠ .hold → o.fits ix = true → o.rsvd = false → (ix = 15 → psel = 0) →
    slotWord psel o < 2 ^ 64 ∧ decodeSlot ix (slotWord psel o) = .ok psel o

/-- R228, R242: the command of a unit operation issues it in a bundle of its own: it joins its queue with the operands it captures, its token is
counted and the registers it will write are pending, and it starts at once if its unit can, as its command from the queue does. -/
def Obligations.UnitIssue : Prop :=
  ∀ (s : State) (i : Instr) (sh : ShadeIx) (psel : BitVec 4) (ix : Nat) (o : SlotOp), unitSlot i = some (sh, psel, ix, o) →
    let x := s.sh sh
    let slot : Slot := ⟨ix, psel, o⟩
    let q := s.mkQ sh x.nextId slot
    s.issuesFree sh psel = true → o.rsvd = false → s.opCheck sh (s.mkQ sh 0 slot) = none → (∀ g ∈ o.gAsync, x.lan.pendG.getLsbD g = false) →
    (∀ n, o.tok = some n → x.lan.tok[n.toNat].toNat < 63) → (∀ k ∈ unitKeys ix o, queueUse x.queue k < queueDepth k) →
    ∃ v, s.shadeBecomes sh { x with
        queue := x.queue ++ [q], nextId := x.nextId + 1
        lan := x.lan.issued { x.lan with
          tok := match o.tok with
            | none => x.lan.tok
            | some n => x.lan.tok.set n.toNat (x.lan.tok[n.toNat] + 1)
          pendG := (v.sh sh).lan.pendG } none } v
      ∧ (∀ n : Fin 64, (v.sh sh).lan.pendG.getLsbD n.val = (x.lan.pendG.getLsbD n.val || o.gAsync.contains n.val))
      ∧ exec i s = .next ((if q.isSeed = true then v.seedNow sh else v).startKind sh fun y => y.id == x.nextId)


/-! ## Tokens, START and STOP (R242 to R244, R249) -/

/-- R242: the release of the oldest complete operation writes its results, frees its registers and counts its token down; with none
complete nothing happens.
R244: when LANT_TMO.US has passed since a WAIT began to hold its bundle, TOKEN_TIMEOUT is a start fault of slot 0: the shade halts,
its queued operations are discarded and its arrays abandon their passes (R221); before that nothing happens. -/
def Obligations.Tokens : Prop :=
  (∀ (s : State) (sh : ShadeIx),
      let x := s.sh sh
      let l := x.lan
      ((∀ r ∈ x.running, r.done = false) → exec (.tokenRelease sh) s = .next s)
      ∧ ∀ (before after : List Running) (r : Running), x.running = before ++ r :: after → (∀ b ∈ before, b.done = false) → r.done = true →
        (∀ b ∈ before ++ after, b.q.id ≠ r.q.id) → (r.results.map Prod.fst).Nodup → (∀ v ∈ r.results, v.1 < 64) →
        ∃ t, exec (.tokenRelease sh) s = .next t
          ∧ t = s.modSh sh (fun _ => { x with running := before ++ after, lan := (t.sh sh).lan })
          ∧ (t.sh sh).lan = { l with g := (t.sh sh).lan.g, tok := (t.sh sh).lan.tok, pendG := (t.sh sh).lan.pendG }
          ∧ (∀ n : Fin 64, (∀ v, (n.val, v) ∈ r.results → (t.sh sh).lan.g[n.val] = v)
            ∧ ((∀ v, (n.val, v) ∉ r.results) → (t.sh sh).lan.g[n.val] = l.g[n.val])
            ∧ (t.sh sh).lan.tok[n.val] = (if r.q.op.tok = some (BitVec.ofNat 6 n.val) ∧ l.tok[n.val] ≠ 0 then l.tok[n.val] - 1 else l.tok[n.val])
            ∧ (t.sh sh).lan.pendG.getLsbD n.val = (l.pendG.getLsbD n.val && !r.q.op.gAsync.contains n.val)))
  ∧ ∀ (s : State) (sh : ShadeIx),
      let x := s.sh sh
      let us := s.getF .lant (shInst sh) 0x118 23 0
      ((∀ t0, x.lan.waitSince = some t0 → us = 0 ∨ s.tb.toNat ≤ t0 + us * 1000) → exec (.tokenTimeout sh) s = .next s)
      ∧ ∀ t0, x.issues = true → x.lan.waitSince = some t0 → us ≠ 0 → t0 + us * 1000 < s.tb.toNat →
        ∃ t, exec (.tokenTimeout sh) s = .next t ∧ (t.sh sh).lan.halted = true ∧ (t.sh sh).queue = []
          ∧ (t.sh sh).running = x.running.filter (fun r => !r.q.isArray) ∧ (t.sh sh).lan.pc = x.lan.pc ∧ (t.sh sh).lan.g = x.lan.g
          ∧ (s.bitR .lant (shInst sh) 0x10C 15 = false → t.getR .lant (shInst sh) 0x10C = 0x08 + 2 * 4096 + 2 ^ 15
            ∧ t.getR .lant (shInst sh) 0x110 = x.lan.pc.toNat + s.leadP sh * 2 ^ 16)
          ∧ s.signals t (shadeSrc sh 0) ∧ s.otherShades t sh ∧ t.mem = s.mem
          ∧ ∀ p ∈ s.prismsOf sh, ∀ u, u < 8 → ∀ i : Fin 4, let z := (t.tile p u).probs[i.val]
              z.opened = none ∧ z.closed = [] ∧ z.arm = none ∧ z.mms = none ∧ z.groups = []

/-- R249: a START that is taken clears HALTED and the yield spacing and the phase's time run from now; an ignored one sets RSVD_WR and changes
nothing of the shade. STOP of a running Lantern waits for the next bundle, which R237 halts after. -/
def Obligations.StartStop : Prop :=
  ∀ (s : State) (sh : ShadeIx),
    let x := s.sh sh
    let l := x.lan
    let lost : Prop := ∃ p, p < 52 ∧ s.ownerP p = sh.val ∧ s.prismState p = 2
    (x.life = 1 → x.rep.rolling = none → l.halted = true → s.bitR .lant (shInst sh) 0x10C 15 = false → ¬ lost →
      ∃ t, exec (.lantStart sh) s = .next t
        ∧ t = s.modSh sh (fun _ => { x with
          lan := { l with halted := false, stopReq := false, yieldAt := s.tb.toNat }
          saf := { x.saf with phaseAt := s.tb.toNat }
          rep := { x.rep with
            preempted := false, slot0 := (t.sh sh).rep.slot0, slot1 := (t.sh sh).rep.slot1, newest := (t.sh sh).rep.newest
            window := if s.stPaused = false ∧ (s.prismsOf sh).any s.testDue = true then s.prismsOf sh else x.rep.window } })
        ∧ (x.rep.record.isSome = true → (t.sh sh).rep.record = x.rep.record)
        ∧ (x.rep.record = none → x.rep.epoch = 0 → l.bundles = 0 → ∃ r, (t.sh sh).rep.record = some r ∧ r.epoch = 0 ∧ r.lan = l
          ∧ r.cursors = x.cursors ∧ r.masks = x.masks))
    ∧ ((x.life ≠ 1 ∨ x.rep.rolling ≠ none ∨ l.halted = false ∨ s.bitR .lant (shInst sh) 0x10C 15 = true ∨ lost) →
      ∃ t, exec (.lantStart sh) s = .next t ∧ t = { s with regs := t.regs } ∧ t.bitR .lant (s.leadP sh) 0x14 0 = true
        ∧ s.onlyRegs t fun k i o => (k = .lant ∧ i = s.leadP sh ∧ o = 0x14) ∨ eventCounter .device 0 k i o)
    ∧ (l.halted = false → exec (.lantStop sh) s = .next (s.modSh sh fun _ => { x with lan := { l with stopReq := true } }))
    ∧ (l.halted = true → exec (.lantStop sh) s = .next s)
    ∧ ∀ psel gd imm, (s.modSh sh fun _ => { x with lan := { l with stopReq := false } }).issuesFree sh psel = true → l.stopReq = true →
        l.pendG.getLsbD gd.toNat = false →
        ∃ t, exec (.movi sh psel gd imm) s = .next t
          ∧ (t.sh sh).lan = { l.issued (l.setG gd (imm.signExtend 64)) none with halted := true, stopReq := false }
          ∧ s.signals t (shadeSrc sh 0)

/-! ## Yield points and replay (R119, R236, R400 to R416) -/

/-- R236: at quiescence after a YIELD the yield point completes, in this order: mask commits (R119), with STEP_END the step boundary, and a record
of the next epoch; the logs are empty, the guard ranges clean (R409), and a PREEMPT takes effect after the record (R413). -/
def Obligations.YieldPoint : Prop :=
  ∀ (s : State) (sh : ShadeIx) (e : Bool),
    let x := s.sh sh
    x.lan.yielding = some e → x.issues = true → x.drained = true → s.arrayHeld sh = false →
    ∃ t, exec (.yieldPoint sh) s = .next t
      ∧ (∀ mo, mo < 64 → let m := x.masks.get maskDefault mo
          (t.sh sh).masks.get maskDefault mo = if m.pend = true
            then { m with epoch := m.epoch + 1, cur := !m.cur, pend := false, built := false, copy := true, edited := false,
                          present := m.presentNext, copyAddr := x.lan.yieldPc }
            else { m with edited := false })
      ∧ t.safeStep sh = (if e then (s.safeStep sh + 1) % 2 ^ 64 else s.safeStep sh)
      ∧ (t.sh sh).rep.epoch = x.rep.epoch + 1 ∧ (t.sh sh).rep.rbCount = 0 ∧ (t.sh sh).rep.replaying = false
      ∧ (∃ r, (t.sh sh).rep.record = some r ∧ r.epoch = x.rep.epoch + 1 ∧ r.masks = (t.sh sh).masks ∧ r.cursors = x.cursors
          ∧ r.lan = { x.lan with yielding := none, yieldAt := s.tb.toNat })
      ∧ (t.sh sh).dwrLog = [] ∧ (t.sh sh).saf.fresh = [] ∧ (t.sh sh).rep.streamLog = []
      ∧ (∀ n, n < 8 → t.bitR .replay sh.val (0x200 + 16 * n) 5 = false ∧ t.bitR .replay sh.val (0x200 + 16 * n) 6 = false)
      ∧ (t.sh sh).lan = { x.lan with
          yielding := none, yieldAt := s.tb.toNat, halted := x.rep.preemptReq, stopReq := x.lan.stopReq && !x.rep.preemptReq
          waitSince := if x.rep.preemptReq then none else x.lan.waitSince }
      ∧ (x.rep.preemptReq = true → (t.sh sh).rep.preempted = true ∧ s.signals t (shadeSrc sh 0))
      ∧ (e = false → t.mem = s.mem) ∧ t.tiles = s.tiles ∧ s.otherShades t sh

/-- R236, R80, R137, R271: a yield point does not complete while an operation of the shade waits or runs; one that only an open pass, an
arming or a combine slot holds up is a start fault of the YIELD.
R400: an interval of REPLAY_SPACE without a YIELD is reported as YIELD_LATE and REPLAY_ERR.LATE, a pending DVFS step is cancelled (R482),
and the shade goes on. -/
def Obligations.YieldLimits : Prop :=
  (∀ (s : State) (sh : ShadeIx) (e : Bool),
      let x := s.sh sh
      x.lan.yielding = some e → x.issues = true → s.bitR .lant (shInst sh) 0x10C 15 = false →
      (x.drained = false → s.combineStuck sh = false → exec (.yieldPoint sh) s = .next s)
      ∧ (x.drained = true → s.arrayHeld sh = true →
        ∃ t, exec (.yieldPoint sh) s = .next t ∧ (t.sh sh).lan.halted = true ∧ (t.sh sh).lan.yielding = none
          ∧ t.getR .lant (shInst sh) 0x10C = 0x02 + 2 * 4096 + 2 ^ 15
          ∧ (t.sh sh).combines = [] ∧ (t.sh sh).rep.epoch = x.rep.epoch ∧ t.mem = s.mem))
  ∧ ∀ (s : State) (sh : ShadeIx),
      let x := s.sh sh
      let n := s.getF .replay sh.val 0x108 13 0 * 1000
      x.life = 1 → x.lan.halted = false → x.lan.yielding = none →
      (s.tb.toNat < x.lan.yieldAt + n → exec (.yieldLate sh) s = .next s)
      ∧ (x.lan.yieldAt + n ≤ s.tb.toNat →
        ∃ t, exec (.yieldLate sh) s = .next t ∧ (t.sh sh).lan = { x.lan with yieldAt := x.lan.yieldAt + n }
          ∧ t.bitR .replay sh.val 0x118 0 = true ∧ s.signals t (shadeSrc sh 4) ∧ s.signals t (shadeSrc sh 0)
          ∧ (s.bitR .lant (shInst sh) 0x10C 15 = false → t.getR .lant (shInst sh) 0x10C = 0x09 + 15 * 256 + 5 * 4096 + 2 ^ 15)
          ∧ t.dim = { s.dim with target := none } ∧ (t.sh sh).queue = x.queue ∧ (t.sh sh).running = x.running ∧ t.mem = s.mem)

/-- R404, R413, R414, R416: PREEMPT waits for the next yield point and has no effect on a halted shade; FORCE stops the shade at once
and begins a rollback, or waits behind one; ROLLBACK begins one for a halted shade and is otherwise ignored with RSVD_WR. -/
def Obligations.ShadeStops : Prop :=
  ∀ (s : State) (sh : ShadeIx),
    let x := s.sh sh
    let stopped (t : State) (r : Rolling) : Prop :=
      (t.sh sh).rep = { x.rep with forceReq := (t.sh sh).rep.forceReq, rolling := some r, window := [], dvfs := false }
      ∧ (t.sh sh).queue = [] ∧ (t.sh sh).running = [] ∧ (t.sh sh).open_ = [] ∧ (t.sh sh).combines = []
      ∧ (t.sh sh).lan = { x.lan with tok := (t.sh sh).lan.tok, pendG := (t.sh sh).lan.pendG } ∧ s.otherShades t sh ∧ t.mem = s.mem
    x.life = 1 →
    (x.lan.halted = false → exec (.preempt sh) s = .next (s.modSh sh fun _ => { x with rep := { x.rep with preemptReq := true } }))
    ∧ (x.lan.halted = true → exec (.preempt sh) s = .next s)
    ∧ (x.rep.rolling ≠ none → exec (.force sh) s = .next (s.modSh sh fun _ => { x with rep := { x.rep with forceReq := true } }))
    ∧ (x.rep.rolling = none → x.rep.record ≠ none → x.tag = none → ∃ t, exec (.force sh) s = .next t ∧ (t.sh sh).rep.forceReq = true
        ∧ stopped t ⟨1, 0⟩)
    ∧ (x.rep.rolling = none → x.rep.record = none → x.tag = none → ∃ t, exec (.force sh) s = .next t ∧ (t.sh sh).lan.halted = true
        ∧ t.bitR .replay sh.val 0x118 3 = true ∧ (t.sh sh).rep.rolling = none)
    ∧ (x.rep.rolling = none → x.lan.halted = true → x.rep.record ≠ none → x.tag = none → ∃ t, exec (.rollback sh) s = .next t
        ∧ (t.sh sh).rep.forceReq = x.rep.forceReq ∧ stopped t ⟨2, 0⟩)
    ∧ (x.lan.halted = false → ∃ t, exec (.rollback sh) s = .next t ∧ t = { s with regs := t.regs } ∧ t.bitR .replay sh.val 0x14 0 = true
        ∧ s.onlyRegs t fun k i o => (k = .replay ∧ i = sh.val ∧ o = 0x14) ∨ eventCounter .device 0 k i o)

/-- R252, R405, R406, R409, R414: a rollback restores the Lantern, masks, cursors and safeguards its record holds, undoes the descriptor
log, taints the guard ranges that were written, counts one rollback and signals REPLAY; fetch resumes after a fault, and the Lantern
halts after FORCE and for the host. -/
def Obligations.RollbackRestore : Prop :=
  ∀ (s : State) (sh : ShadeIx) (r : Rolling) (rec : Record),
    let x := s.sh sh
    x.rep.rolling = some r → x.rep.record = some rec → framesToLoad x.lan rec.lan = [] → x.rep.forceReq = false ∨ r.trigger = 1 ∨ r.trigger = 2 →
    x.life = 1 → rec.regs.map Prod.fst = recordKeys sh → (∀ c ∈ rec.layers, maintainedWord c.1 = true) →
    ∃ t, exec (.rollbackRestore sh) s = .next t
      ∧ (t.sh sh).lan = { rec.lan with
          frames := (t.sh sh).lan.frames, bundles := x.lan.bundles, halted := r.trigger == 1 || r.trigger == 2, stopReq := false, waitSince := none
          yielding := none, rep := none, pendG := 0, yieldAt := s.tb.toNat }
      ∧ (t.sh sh).cursors = rec.cursors ∧ (t.sh sh).dwrLog = []
      ∧ (∀ k, maintainedWord k = false → (t.sh sh).desc.get descDefault k = (undoLog x.desc x.dwrLog).get descDefault k)
      ∧ (∀ c ∈ rec.regs, t.regs.get regDefault c.1 = c.2)
      ∧ (t.sh sh).saf.fresh = x.saf.fresh.map (fun f => { f with used := false }) ∧ (t.sh sh).saf.umbra = [] ∧ (t.sh sh).saf.rollbacks = x.saf.rollbacks + 1
      ∧ (t.sh sh).rep.rolling = none ∧ (t.sh sh).rep.replaying = true ∧ (t.sh sh).rep.rbCount = x.rep.rbCount + 1
      ∧ (t.sh sh).rep.forced = x.rep.forced + (if r.trigger = 1 then 1 else 0) ∧ (t.sh sh).rep.preempted = (x.rep.preempted || r.trigger == 1)
      ∧ (∀ n, n < 8 → s.bitR .replay sh.val (0x200 + 16 * n) 6 = true → t.bitR .replay sh.val (0x200 + 16 * n) 5 = true)
      ∧ s.signals t (shadeSrc sh 4) ∧ s.otherShades t sh ∧ t.mem = s.mem

/-- R390, R391, R393: in ordered mode a background access that expires counts a deferral, and a late delivery holds the shade until
it arrives; in throughput mode neither does anything. -/
def Obligations.OrderedMode : Prop :=
  ∀ (s : State) (sh : ShadeIx) (late : Bool),
    (s.bitR .replay sh.val 0x100 0 = false → exec (.backgroundDeferExpiry sh) s = .next s ∧ exec (.paddedDelivery sh late) s = .next s)
    ∧ (s.bitR .replay sh.val 0x100 0 = true →
      (∃ t, exec (.backgroundDeferExpiry sh) s = .next t ∧ t = { s with regs := t.regs, fresh := t.fresh }
        ∧ s.onlyRegs t fun k i o => eventCounter .replay sh.val k i o)
      ∧ exec (.paddedDelivery sh late) s = .next (s.modSh sh fun y => { y with rep := { y.rep with hold := late } }))

/-! ## The array (R55 to R83, R135, R229, R262, R268 to R271, R535) -/

/-- R60, R262: MM and DIST join the pass their problem has open (KEEP) or open a pass in a free bank, in every tile they name of every prism of the
shade, with the pass cursor captured; no other tile and nothing else of the device changes. -/
def Obligations.PassOpens : Prop :=
  ∀ (s u : State) (sh : ShadeIx) (i : Instr) (o : ArrayOpc) (q : QOp) (a : ArrayArgs),
    (i, o) ∈ [(Instr.mm sh .queued, ArrayOpc.mm), (.dist sh .queued, .dist)] →
    q.op = .array o a → s.startsAs sh (arrayKind o) q u → (u.prismsOf sh).Nodup → (u.prismsOf sh) ≠ [] → a.tiles ≠ 0 →
    ∃ t, exec i s = .next t
      ∧ (∀ p n, p ∈ u.prismsOf sh → n < 8 → a.tiles.getLsbD n = true →
        let nest := readNest q.desc n a.ld.toNat
        let j : Job := ⟨q, a.p.val, (u.sh sh).cursors.get curDefault (32 * n + a.ld.toNat), 0⟩
        let y := u.problem p n a.p.val
        (t.tile p n).pack = nest.pcw.pack
        ∧ (nest.pcw.keep = true → ∃ ps, y.opened = some ps ∧ t.problem p n a.p.val = { y with opened := some { ps with jobs := ps.jobs ++ [j] } })
        ∧ (nest.pcw.keep = false → ∃ b, y.freeBank = some b ∧ t.problem p n a.p.val = { y with opened := some (Pass.open b nest j) })
        ∧ ∀ m, m < 4 → m ≠ a.p.val → t.problem p n m = u.problem p n m)
      ∧ (∀ p n, p < 64 → n < 8 → ¬ (p ∈ u.prismsOf sh ∧ a.tiles.getLsbD n = true) → t.tile p n = u.tile p n)
      ∧ t = { u with tiles := t.tiles }

/-- R60, R262: STORE closes its problem's pass, whose bank waits for the drain port once its multiplies are over, and the pass cursors move on;
ZERO discards the newest closed bank and completes. -/
def Obligations.PassCloses : Prop :=
  ∀ (s u : State) (sh : ShadeIx) (q : QOp) (a : ArrayArgs), (u.prismsOf sh).Nodup → (u.prismsOf sh) ≠ [] → a.tiles ≠ 0 →
    (q.op = .array .store a → s.startsAs sh (arrayKind .store) q u →
      ∃ t, exec (.store sh .queued) s = .next t
        ∧ (∀ p n, p ∈ u.prismsOf sh → n < 8 → a.tiles.getLsbD n = true → let y := u.problem p n a.p.val
          ∃ ps, y.opened = some ps
            ∧ t.problem p n a.p.val = { y with
                opened := none, nextBank := !ps.bank
                closed := y.closed ++ [{ ps with store := some ⟨q, a.p.val, (u.sh sh).cursors.get curDefault (32 * n + a.ld.toNat), 0⟩ }] }
            ∧ (t.tile p n).drainQ = (u.tile p n).drainQ ++ (if ps.jobs = [] then [a.p.val] else []))
        ∧ (∀ n, n < 8 → (t.sh sh).cursors.get curDefault (32 * n + a.ld.toNat) = if a.tiles.getLsbD n
            then (readNest q.desc n a.ld.toNat).nextCursor ((u.sh sh).cursors.get curDefault (32 * n + a.ld.toNat))
            else (u.sh sh).cursors.get curDefault (32 * n + a.ld.toNat))
        ∧ t.sh sh = { u.sh sh with cursors := (t.sh sh).cursors } ∧ u.otherShades t sh ∧ t = { u with tiles := t.tiles, shades := t.shades })
    ∧ (q.op = .array .zero a → s.startsAs sh (arrayKind .zero) q u → u.arrayHolds sh q.id = false →
      ∃ t, exec (.zero sh .queued) s = .next t
        ∧ (∀ p n, p ∈ u.prismsOf sh → n < 8 → a.tiles.getLsbD n = true → let y := u.problem p n a.p.val
            t.problem p n a.p.val = { y with closed := y.closed.dropLast, nextBank := y.closed.getLast?.elim y.nextBank fun ps => ps.bank })
        ∧ (∀ r ∈ (t.sh sh).running, r.q.id = q.id → r.done = true)
        ∧ t.mem = u.mem ∧ u.otherShades t sh)

/-- R135, R137: an MMS gathers the blocks of its destination's column, 64 over the edge to a pass; each pass closes at once for the drain, and the
blocks not yet in a pass wait for a bank. An arming of its problem is consumed. -/
def Obligations.MmsPasses : Prop :=
  ∀ (s u : State) (sh : ShadeIx) (q : QOp) (a : ArrayArgs), (u.prismsOf sh).Nodup → q.op = .array .mms a → s.startsAs sh (arrayKind .mms) q u →
    (∀ n, n < 8 → a.tiles.getLsbD n = true → (readNest q.desc n a.ld.toNat).pcw.keep = false) →
    ∃ t, exec (.mms sh .queued) s = .next t
      ∧ ∀ p n, p ∈ u.prismsOf sh → n < 8 → a.tiles.getLsbD n = true →
        let y := u.problem p n a.p.val
        let z := t.problem p n a.p.val
        let nest := readNest q.desc n a.ld.toNat
        let edge := (readTD q.desc (readPass q.desc n nest.pld).tdc).edge
        let j : Job := ⟨q, a.p.val, (u.sh sh).cursors.get curDefault (32 * n + a.ld.toNat), 0⟩
        ∃ col l ps, u.mmsStart ⟨sh, p, n, q.g⟩ q a.ld.toNat j.cursor y.arm = .ok (col, l)
          ∧ z.closed = y.closed ++ ps ∧ z.opened = y.opened ∧ z.arm = none
          ∧ (ps.flatMap fun x => x.gather.getD []) ++ (z.mms.elim [] fun m => m.rest) = l
          ∧ ∀ x ∈ ps, x.jobs = [j] ∧ x.store = some j ∧ x.sil = y.arm ∧ x.acc = FMap.empty ∧ ∃ g, x.gather = some g ∧ g.length ≤ 64 / max edge 1

/-- R97, R535: the sequencer grants the next problem, round robin, that has a k-block to multiply, and the k-block enters its pass; the first
k-block that skip does not pass over. With nothing to multiply nothing happens. -/
def Obligations.KblockStart : Prop :=
  ∀ (s : State) (p : PPrism) (n : TileIx) (sh : ShadeIx), s.shadeOfPrism p.val = some sh →
    ((∀ k, k < 4 → (s.problem p.val n.val k).nextPass = none) → exec (.kblockStart p n) s = .next s)
    ∧ ∀ (k i : Nat) (ps : Pass) (j : Job) (rest : List Job) (w : KUnit) (y : UnitData),
      (∃ d, d < 4 ∧ k = ((s.tile p.val n.val).granted + 1 + d) % 4
        ∧ ∀ e, e < d → (s.problem p.val n.val (((s.tile p.val n.val).granted + 1 + e) % 4)).nextPass = none) →
      (s.problem p.val n.val k).nextPass = some (i, ps) → ps.jobs = j :: rest → jobUnit n.val j = some w →
      s.readUnit ⟨sh, p.val, n.val, j.q.g⟩ ps j w = .ok y → (y.issued = true ∨ skipEdge j.q.desc (j.q.nest n.val) = 0) →
      s.bitR .tile (8 * p.val + n.val) 0x20 2 = false → (jobUnit n.val (jobNext n.val j)).isSome = true →
      ∃ t, exec (.kblockStart p n) s = .next t ∧ (t.tile p.val n.val).granted = k
        ∧ t.problem p.val n.val k = (s.problem p.val n.val k).putPass i
            { ps.multiply (j.q.nest n.val) j.q.desc w y with jobs := jobNext n.val j :: rest }
        ∧ (∀ m, m < 4 → m ≠ k → t.problem p.val n.val m = s.problem p.val n.val m)
        ∧ (∀ x m, x < 64 → m < 8 → (x, m) ≠ (p.val, n.val) → t.tile x m = s.tile x m)
        ∧ t = { s with regs := t.regs, tiles := t.tiles }
        ∧ s.onlyRegs t fun r _ _ => r = .tile ∨ r = .stencil

/-- R76, R77, R268: the drain port takes the first waiting bank: a STORE with COMBINE sends its partial to the adder tree, any other goes
through the store pipeline. When the drain ends the bank is free, the next one is at the port, and a STORE of which nothing is left
completes. -/
def Obligations.DrainPort : Prop :=
  ∀ (s : State) (p : PPrism) (n : TileIx) (sh : ShadeIx) (k i : Nat) (ps : Pass) (j : Job), s.shadeOfPrism p.val = some sh →
    (s.tile p.val n.val).drainHead = some (k, i, ps) → ps.store = some j →
    let y := s.problem p.val n.val k
    (ps.draining = false → ps.gather = none → ∀ r, outRect j.q n.val j.q.ld j.cursor (s.tile p.val n.val).pack = some r →
      let marked := s.modTile p.val n.val fun ti => ti.modProb k fun x => { x with closed := x.closed.set i { ps with draining := true } }
      ((j.q.passEnt n.val).comb ≠ 0 → exec (.drain p n) s = .next (marked.modSh sh fun x => { x with
        partials := x.partials ++ [⟨p.val, n.val, j, ps.opmode, ps.acc, ps.k0, ps.k1⟩] }))
      ∧ ((j.q.passEnt n.val).comb = 0 →
        let out := marked.storeTail ⟨sh, p.val, n.val, j.q.g⟩ ⟨j.q, j.q.passEnt n.val, r, ps.acc, ps.opmode, ps.k0, ps.k1, k⟩
        out.err = none → exec (.drain p n) s = .next out.s))
    ∧ (ps.draining = false → exec (.drainComplete p n) s = .next s)
    ∧ (ps.draining = true → k < 4 → y.mms = none →
      ∃ t, exec (.drainComplete p n) s = .next t
        ∧ t.problem p.val n.val k = { y with closed := y.closed.eraseIdx i } ∧ (t.tile p.val n.val).drainQ = (s.tile p.val n.val).drainQ.tail
        ∧ (t.arrayHolds sh j.q.id = true → (t.sh sh).running = (s.sh sh).running)
        ∧ (t.arrayHolds sh j.q.id = false → s.completes t sh j.q [])
        ∧ t.mem = s.mem ∧ s.otherShades t sh)

/-- R268 to R270: a tile's partial enters the combine slot of its prism, destination and origin, promoted in after the first; when the last
tile named has delivered, a TILE combine is written by its writer and a PRISM one sends its prism partial on. A partial with no slot
free waits.
R268 to R270: at the root a prism partial is promoted into the slot; while a prism of the shade has not delivered the combine waits. -/
def Obligations.CombineTree : Prop :=
  (∀ (s : State) (sh : ShadeIx) (n : Nat) (w : Partial), (s.sh sh).partials[n]? = some w →
      let x := s.sh sh
      let e := w.job.q.passEnt w.tile
      let o := w.job.origin w.tile
      ((x.slotRoom w.prism e.tdc o = false) → exec (.combinePartial sh n) s = .next s)
      ∧ (x.slotRoom w.prism e.tdc o = true → s.ordered sh = false →
        let c := (x.slotOf w.prism e.tdc o).getD (openSlot w.prism e o w)
        c.ctiles = e.ctiles → c.croot = e.croot → c.opmode = w.opmode →
        let c' : CombineSlot := { c with
          acc := if c.gotTiles = [] then w.acc else mergeAcc c.opmode c.acc w.acc, gotTiles := c.gotTiles ++ [w.tile]
          k0 := min c.k0 w.k0, k1 := max c.k1 w.k1, writer := if w.tile = writerTile e.ctiles then some w.job else c.writer
          ids := c.ids ++ [w.job.q.id] }
        let x' := { x with partials := x.partials.eraseIdx n, combines := putSlot x.combines w.prism e.tdc o (some c') }
        (c'.tilesDone = false → exec (.combinePartial sh n) s = .next (s.modSh sh fun _ => x'))
        ∧ (c'.tilesDone = true → e.comb = 2 → exec (.combinePartial sh n) s = .next (s.modSh sh fun _ => { x' with
            prismPartials := x.prismPartials ++ [⟨w.prism, writerTile e.ctiles, c'.writer.getD w.job, c.opmode, c'.acc, c'.k0, c'.k1⟩] }))))
  ∧ ∀ (s : State) (sh : ShadeIx) (n : Nat) (w : Partial), (s.sh sh).prismPartials[n]? = some w →
      let x := s.sh sh
      let e := w.job.q.passEnt w.tile
      let o := w.job.origin w.tile
      let root := s.rootPrism sh e.croot
      x.slotRoom root e.tdc o = true → s.ordered sh = false →
      let c := (x.slotOf root e.tdc o).getD (openSlot root e o w)
      c.ctiles = e.ctiles → c.croot = e.croot → c.opmode = w.opmode → (∃ p ∈ s.prismsOf sh, p ∉ c.gotPrisms ++ [w.prism]) →
      exec (.prismPartial sh n) s = .next (s.modSh sh fun _ => { x with
        prismPartials := x.prismPartials.eraseIdx n
        combines := putSlot x.combines root e.tdc o (some { c with
          pacc := if c.gotPrisms = [] then w.acc else mergeAcc c.opmode c.pacc w.acc, gotPrisms := c.gotPrisms ++ [w.prism]
          k0 := min c.k0 w.k0, k1 := max c.k1 w.k1, writer := if w.prism = root then some w.job else c.writer }) })

/-- R158 to R160, R199: a step boundary leaves SKIP as the reduced flags say, clears the flags, lowers the loss scale by 1 (to no less than −8) on bit 0 and
restarts its run, restarts it on bits 1 and 2, and otherwise counts a clean step and raises the scale by 1 (to no more than 24) after GROWTH
of them; the sampling seed is the shade's seed, and no Umbra entry is left.
R143: it adds 1 to SAFE_STEP, of 64 bits; a shade reset leaves 0 there; a write of a half of it is taken while the shade's Lantern is halted,
and is otherwise ignored with RSVD_WR. -/
def Obligations.StepBoundary : Prop :=
  (∀ (s : State) (sh : ShadeIx),
      let x := s.sh sh
      let i := shInst sh
      let red := s.getF .safe i 0x108 2 0
      let e := sextN 6 (s.getF .safe i 0x10C 5 0)
      let run := min (s.getF .safe i 0x110 15 0 + 1) 0xFFFF
      let growth := s.getF .safe i 0x10C 23 8
      let ends : Int × Nat :=
        if bitOf red 0 then (max (e - 1) (-8), 0) else if bitOf red 1 || bitOf red 2 then (e, 0)
        else if growth ≠ 0 ∧ growth ≤ run then (min (e + 1) 24, 0) else (e, run)
      x.lan.yielding = some true → x.issues = true → x.drained = true → s.arrayHeld sh = false → -8 ≤ e → e ≤ 24 →
      ∃ t, exec (.yieldPoint sh) s = .next t ∧ t.safeStep sh = (s.safeStep sh + 1) % 2 ^ 64
        ∧ sextN 6 (t.getF .safe i 0x10C 5 0) = ends.1 ∧ t.getF .safe i 0x110 15 0 = ends.2
        ∧ t.bitR .safe i 0x128 0 = (bitOf red 0 || bitOf red 1)
        ∧ t.getR .safe i 0x104 = 0 ∧ t.getR .safe i 0x108 = 0 ∧ t.getR .safe i 0x11C = 0
        ∧ (t.sh sh).saf.umbra = [] ∧ (t.sh sh).saf.stepped = true
        ∧ (t.sh sh).saf.sampSeed = BitVec.ofNat 64 (s.getR64 .speckle i 0x100) ∧ (t.sh sh).saf.sampGen = s.gen sh)
  ∧ (∀ (s : State) (sh : ShadeIx), (s.sh sh).life = 2 → s.subHolds sh = false →
      ∃ t, exec (.shadeResetScrub sh) s = .next t ∧ t.safeStep sh = 0)
  ∧ ∀ (s : State) (sh : ShadeIx) (path : Path) (page : PageNo) (p : Nat) (v : W32), path ≠ .i3c → s.pathPage path page.toNat = some ⟨.safe, p⟩ →
      s.leads p = some sh →
      let wr (off : Nat) : Instr := .registerWrite path ⟨BitVec.ofNat 26 (4096 * page.toNat + off), .b4⟩ (v.setWidth 64)
      (∀ off new, (off, new) ∈ [(0x120, s.safeStep sh / 2 ^ 32 * 2 ^ 32 + v.toNat), (0x124, v.toNat * 2 ^ 32 + s.safeStep sh % 2 ^ 32)] →
        s.accepts path .safe p off →
        ((s.sh sh).lan.halted = true → ∃ t, exec (wr off) s = .next t ∧ t.safeStep sh = new ∧ t = { s with regs := t.regs, units := t.units })
        ∧ ((s.sh sh).lan.halted = false → ∃ t, exec (wr off) s = .next t ∧ t.safeStep sh = s.safeStep sh ∧ t.bitR .safe p 0x14 0 = true
          ∧ t = { s with regs := t.regs, units := t.units }))

/-! ## Masks (R117 to R138) -/

/-- R123, R127 to R129: PRUNE and GROW with K not 0 leave the next epoch of their object edited and not built, MIRROR.BUILD leaves it built with its
present blocks counted; each completes, and the masks of other objects, the tiles and what lies outside HBM are as they were. -/
def Obligations.MaskEdits : Prop :=
  ∀ (s u : State) (sh : ShadeIx) (q : QOp),
    let st (mo : BitVec 6) : MaskSt := (u.sh sh).masks.get maskDefault mo.toNat
    let done (i : Instr) (mo : BitVec 6) (y : MaskSt) : Prop := ∃ t, exec i s = .next t
      ∧ (∀ m, (t.sh sh).masks.get maskDefault m = if m = mo.toNat then y else (u.sh sh).masks.get maskDefault m) ∧ u.completes t sh q []
      ∧ t.sh sh = { u.sh sh with masks := (t.sh sh).masks, running := (t.sh sh).running } ∧ u.otherShades t sh
      ∧ u.worksOn t ∧ t.tiles = u.tiles ∧ t.glints = u.glints ∧ ∀ a, hbmTop ≤ a → t.rd a = u.rd a
    (u.sh sh).tag = none →
    (∀ mo g tok, q.op = .mask (.prune mo g tok) → s.startsAs sh (opKind 8 2) q u → (u.pruneRun sh q mo.toNat g).err = none →
      done (.prune sh .queued) mo (if (PGW.ofNat (q.greg g.toNat)).k = 0 then st mo else { st mo with built := false, edited := true }))
    ∧ (∀ mo g tok, q.op = .mask (.grow mo g tok) → s.startsAs sh (opKind 8 3) q u → (u.growRun sh q mo.toNat g).err = none →
      done (.grow sh .queued) mo (if (PGW.ofNat (q.greg g.toNat)).k = 0 then st mo else { st mo with built := false, edited := true }))
    ∧ ∀ mo tok td bs, q.op = .mask (.mirrorBuild mo tok td) → s.startsAs sh (opKind 8 5) q u → (u.mirrorRun sh q mo.toNat td.toNat).err = none →
        u.bmList (u.maskCtx sh q) (readMO q.desc mo.toNat) (if (st mo).cur = true then 0 else 1) true (List.range (readMO q.desc mo.toNat).nb) = .ok bs →
        done (.mirrorBuild sh .queued) mo { st mo with built := true, presentNext := BitVec.ofNat 32 bs.length }

/-- R128, R129: the selection takes blocks in order of their scores, the lower block index first among equals; for every order that a score can be
ranked by. -/
def Obligations.SelectionOrder : Prop :=
  ∀ (before : Val → Val → Bool) (xs : List (Nat × Val)),
    (∀ x y, before x y = true → before y x = false) → (∀ x y z, before x y = false → before y z = false → before x z = false) →
    xs.Pairwise (fun a b => a.1 < b.1) →
    ∃ ys : List (Nat × Val), orderBy before xs = ys.map Prod.fst ∧ ys.Perm xs
      ∧ ys.Pairwise fun a b => before a.2 b.2 = true ∨ (before b.2 a.2 = false ∧ a.1 < b.1)

/-- R118, R119, R137: MCOMMIT of a built next epoch waits for the yield point, and a second one has no effect; SILH arms its problem in every tile it
names; MASK_PLANE_COPY ends with the object built and the copy over, or does nothing when none is due. -/
def Obligations.MaskEpochs : Prop :=
  ∀ (s u : State) (sh : ShadeIx) (q : QOp),
    let st (v : State) (mo : BitVec 6) : MaskSt := (v.sh sh).masks.get maskDefault mo.toNat
    (∀ mo, q.op = .mask (.mcommit mo) → s.startsAs sh (opKind 8 4) q u → (u.sh sh).tag = none → (st u mo).pend = true ∨ (st u mo).built = true →
      ∃ t, exec (.mcommit sh .queued) s = .next t ∧ u.completes t sh q []
        ∧ (∀ m, (t.sh sh).masks.get maskDefault m = if m = mo.toNat then { st u mo with pend := true } else (u.sh sh).masks.get maskDefault m)
        ∧ t = u.modSh sh fun x => { x with masks := (t.sh sh).masks, running := (t.sh sh).running })
    ∧ (∀ mo g tiles p, q.op = .mask (.silh mo g tiles p) → s.startsAs sh (opKind 8 6) q u → (u.sh sh).tag = none → (u.prismsOf sh).Nodup →
      (∀ x n, x ∈ u.prismsOf sh → n < 8 → tiles.getLsbD n = true → (u.problem x n p.val).arm = none) →
      ∃ t, exec (.silh sh .queued) s = .next t
        ∧ (∀ x n m, x < 64 → n < 8 → m < 4 → t.problem x n m = if x ∈ u.prismsOf sh ∧ tiles.getLsbD n = true ∧ m = p.val
            then { u.problem x n m with arm := some ⟨mo.toNat, BitVec.ofNat 64 (q.greg g.toNat)⟩ } else u.problem x n m)
        ∧ t = { u with tiles := t.tiles, shades := t.shades } ∧ u.completes t sh q [] ∧ u.otherShades t sh)
    ∧ (∀ mo, (st s mo).copy = false ∨ (st s mo).retired = true ∨ s.enabled sh = false → exec (.maskPlaneCopy sh mo) s = .next s)
    ∧ ∀ mo, (st s mo).copy = true → (st s mo).retired = false → s.enabled sh = true → (s.planeCopy sh mo.toNat).err = none →
        ∃ t, exec (.maskPlaneCopy sh mo) s = .next t
          ∧ (t.sh sh).masks = (s.sh sh).masks.set maskDefault mo.toNat { st s mo with built := true, copy := false, presentNext := (st s mo).present }
          ∧ t.sh sh = { s.sh sh with masks := (t.sh sh).masks }
          ∧ s.otherShades t sh ∧ t = { s with regs := t.regs, mem := t.mem, ecc := t.ecc, shades := t.shades }
          ∧ ∀ a, hbmTop ≤ a → t.rd a = s.rd a

/-! ## Tensor units: Stencil, Lens, Focus, Speckle, Beams (chapters 03, 06, 07, 10) -/

/-- R150, R168, R186, R207, R242, R297 to R301, R533: an operation of the Stencil, the Lens, the Focus, Speckle or a Beam that meets no fault completes: it has
left its queue, its token waits to be released, and nothing of the shade but its descriptors' maintained fields, and nothing of another shade,
changes beside the data it writes.
R159, R322: under SKIP an UPDATE, and a COPY or SCRUB whose destination is a state region, complete and write nothing. -/
def Obligations.TensorUnits : Prop :=
  (∀ (s u : State) (sh : ShadeIx) (q : QOp),
      let done (i : Instr) (kind : QOp → Bool) (r : Res) : Prop := s.startsAs sh kind q u → r.err = none →
        ∃ t, exec i s = .next t ∧ t.mem = r.s.mem ∧ u.completes t sh q []
          ∧ t.sh sh = { u.sh sh with desc := (t.sh sh).desc, running := (t.sh sh).running, saf := (t.sh sh).saf }
          ∧ (∀ k, maintainedWord k = false → (t.sh sh).desc.get descDefault k = (u.sh sh).desc.get descDefault k)
          ∧ (t.sh sh).saf = { (u.sh sh).saf with umbra := (t.sh sh).saf.umbra, wsteps := (t.sh sh).saf.wsteps }
          ∧ u.otherShades t sh ∧ u.worksOn t
      (u.sh sh).tag = none → q.transfer = none →
      (∀ tok, q.op = .spk (.umbra tok) → (∀ e ∈ (u.sh sh).saf.umbra, e.layer < 256) → done (.umbra sh .queued) (opKind 13 4) (u.umbraRun sh q))
      ∧ (∀ g tok td tiles td2, q.op = .mask (.scomp g tok td tiles td2) → done (.scomp sh .queued) (opKind 8 1) (u.scompRun sh q g td.toNat td2.toNat tiles))
      ∧ (∀ a ctx, q.op = .lens .chain a → done (.chain sh ctx .queued) (lensKind ctx .chain) (u.lensRun sh q false a.cd.toNat a.g))
      ∧ (∀ a ctx, q.op = .lens .update a → done (.update sh ctx .queued) (lensKind ctx .update) (u.lensRun sh q true a.cd.toNat a.g))
      ∧ (∀ i o a, (i, o) ∈ [(Instr.argmax sh .queued, FocusOpc.argmax), (.argmin sh .queued, .argmin), (.topk sh .queued, .topk), (.sum sh .queued, .sum),
          (.norm2 sh .queued, .norm2)] → q.op = .focus o a → done i (focusKind o) (u.focusRun sh q o a))
      ∧ (∀ g td tok, q.op = .spk (.draw g td tok) → done (.draw sh .queued) (opKind 13 3) (u.drawRun sh q g td.toNat))
      ∧ (∀ i m b tds tdd g tok, (i, m) ∈ [(Instr.copy sh .queued, 0), (.gather sh .queued, 1), (.scatter sh .queued, 2)] →
          q.op = .beam (.copy b tds tdd g tok) → u.isCommit sh q = false → s.isCommit sh q = false →
          done i (s.copyKind sh m false) (u.copyRun sh q b.toNat tds.toNat tdd.toNat g))
      ∧ (∀ b tdd g tok, q.op = .beam (.scrub b tdd g tok) → done (.scrub sh .queued) scrubKind (u.scrubRun sh q b.toNat tdd.toNat g)))
  ∧ ∀ (s u : State) (sh : ShadeIx) (q : QOp), q.skip = true → (u.sh sh).tag = none → q.transfer = none →
      let done (i : Instr) (kind : QOp → Bool) : Prop := s.startsAs sh kind q u →
        ∃ t, exec i s = .next t ∧ u.completes t sh q [] ∧ t = { u with regs := t.regs, shades := t.shades } ∧ u.otherShades t sh
      (∀ a ctx, q.op = .lens .update a → done (.update sh ctx .queued) (lensKind ctx .update))
      ∧ (∀ i m b tds tdd g tok, (i, m) ∈ [(Instr.copy sh .queued, 0), (.gather sh .queued, 1), (.scatter sh .queued, 2)] →
          q.op = .beam (.copy b tds tdd g tok) → u.isRegionWrite sh q = true → u.isCommit sh q = false → done i (s.copyKind sh m false))
      ∧ ∀ b tdd g tok, q.op = .beam (.scrub b tdd g tok) → u.isRegionWrite sh q = true → done (.scrub sh .queued) scrubKind

/-- R199, R201 to R203, R211: SEED loads the shade's seed and generator, and until the first step boundary the sampling seed with them; SEED.FRESH waits
for the pool in its turn; its completion writes the pool's first seed to g[G] and to the shade's seed, logs it, and releases its token. -/
def Obligations.Seeds : Prop :=
  ∀ (s u : State) (sh : ShadeIx) (q : QOp), (u.sh sh).tag = none →
    (∀ g gen, q.op = .spk (.seed g gen) → s.startsAs sh (opKind 13 1) q u →
      ∃ t, exec (.seed sh .queued) s = .next t
        ∧ t.getR64 .speckle (shInst sh) 0x100 = q.greg g.toNat ∧ t.gen sh = gen
        ∧ t.sh sh = { u.sh sh with
            running := (u.sh sh).running.filterMap (Running.complete q.id [])
            saf := if (u.sh sh).saf.stepped then (u.sh sh).saf else { (u.sh sh).saf with sampSeed := BitVec.ofNat 64 (q.greg g.toNat), sampGen := gen } }
        ∧ u.otherShades t sh ∧ t = { u with regs := t.regs, shades := t.shades }
        ∧ u.onlyRegs t fun k i o => k = .speckle ∧ i = shInst sh ∧ (o = 0x100 ∨ o = 0x104 ∨ o = 0x108))
    ∧ (∀ g gen tok, q.op = .spk (.seedFresh g gen tok) → s.startsAs sh (opKind 13 2) q u →
      exec (.seedFresh sh .queued) s = .next { u with noise := { u.noise with waiting := u.noise.waiting ++ [sh] } })
    ∧ ∀ g seed rest, (s.sh sh).freshRunning = some (q, g) → takeLogged (s.sh sh).saf.fresh = none → (s.sh sh).tag = none →
        s.noise.pool = seed :: rest → rest.length < 16 → s.freshWaiting.head? = some sh → s.takesRecord sh 3 →
        ∃ t, exec (.seedFreshComplete sh) s = .next t
          ∧ (t.sh sh).lan.g = (s.sh sh).lan.g.set g.toNat seed ∧ t.getR64 .speckle (shInst sh) 0x100 = seed.toNat ∧ t.gen sh = s.gen sh
          ∧ t.noise = { s.noise with pool := rest, waiting := s.noise.waiting.erase sh } ∧ t.getF .noise 0 0x100 8 4 = rest.length
          ∧ (t.sh sh).saf.fresh = (s.sh sh).saf.fresh ++ [⟨seed, true⟩] ∧ (t.sh sh).saf.freshUsed = (s.sh sh).saf.freshUsed + 1
          ∧ (t.sh sh).running = (s.sh sh).running.filter (fun r => r.q.id != q.id)
          ∧ s.records t sh 0x02 [seed.toNat, s.safeStep sh, q.baddr % 16384] ∧ s.otherShades t sh ∧ t.mem = s.mem

/-- R397, R453, R458: GLINT gives g[G] the sum of an accumulator over every tile of the shade and clears it with CLR; MARK writes a record with its
code and bundle; CNT holds, releases, clears or snapshots the counters of the shade's pages. -/
def Obligations.Telemetry : Prop :=
  ∀ (s u : State) (sh : ShadeIx) (q : QOp), (u.sh sh).tag = none →
    let ended (t : State) : Prop := (t.sh sh) = { u.sh sh with running := (u.sh sh).running.filterMap (Running.complete q.id []) } ∧ u.otherShades t sh
    (∀ td g clr tok, q.op = .tel (.glint td g clr (some tok)) → s.startsAs sh (opKind 14 1) q u →
      let keys := (u.prismsOf sh).flatMap fun p => (List.range 8).map fun n => 256 * (8 * p + n) + td.toNat
      ∃ t, exec (.glint sh .queued) s = .next t
        ∧ u.completes t sh q [(g.toNat, (keys.map fun k => u.glints.get (fun _ => 0) k).foldl (· + ·) 0)]
        ∧ (∀ k, t.glints.get (fun _ => 0) k = if clr = true ∧ k ∈ keys then 0 else u.glints.get (fun _ => 0) k)
        ∧ t = { u with regs := t.regs, glints := t.glints, shades := t.shades } ∧ u.otherShades t sh)
    ∧ (∀ code, q.op = .tel (.mark code) → s.startsAs sh (opKind 14 2) q u → u.takesRecord sh 1 →
      ∃ t, exec (.mark sh .queued) s = .next t ∧ u.records t sh 0x07 [code.toNat + q.baddr % 16384 * 2 ^ 16] ∧ ended t
        ∧ t = { u with agq := t.agq, shades := t.shades })
    ∧ ∀ act, q.op = .tel (.cnt act) → s.startsAs sh (opKind 14 3) q u →
      ∃ t, exec (.cnt sh .queued) s = .next t ∧ ended t ∧ t = { u with regs := t.regs, agq := t.agq, shades := t.shades }
        ∧ (act = .freeze ∨ act = .thaw → t.regs = u.regs ∧ ∀ k i, i < 1024 → t.agq.shadeHold.get (fun _ => false) (k.ix * 1024 + i)
            = if (⟨k, i⟩ : PageId) ∈ u.shadePages sh then decide (act = .freeze) else u.agq.shadeHold.get (fun _ => false) (k.ix * 1024 + i))
        ∧ (act = .clear → u.agq.snaps = [] → t.agq = u.agq ∧ ∀ k i j, i < 1024 → j < 8 → t.getR64 k i (0x80 + 8 * j)
            = if (⟨k, i⟩ : PageId) ∈ u.shadePages sh then 0 else u.getR64 k i (0x80 + 8 * j))
        ∧ (act = .snapshot → u.agq.snaps.length < 4 → t.agq.snaps = u.agq.snaps ++ [⟨1, some sh, false, u.held (some sh)⟩])
        ∧ (act = .snapshot → 4 ≤ u.agq.snaps.length → t.agq = u.agq ∧ t.bitR .agqm 0 0x10C 0 = true)

/-! ## Training state (R322 to R325) -/

/-- R322 to R325: a commit write under SKIP, or one that a reduced FAULT flag refuses, completes and writes nothing; any other writes the 256 B
record, with its CRC, to the line that is due, and runs on. COMMIT_APPLY makes the written slots the committed ones, records the sequence
number, turns to the other line, clears TS_WRITTEN and releases the token. -/
def Obligations.CommitWrites : Prop :=
  ∀ (s : State) (sh : ShadeIx) (q : QOp),
    let seq (v : State) : Nat := v.safeStep sh
    let slots (v : State) : Nat := ((List.range 16).map fun n => b2n (let r := v.region sh n; if r.any then r.wslot else r.cslot) * 2 ^ n).foldl (· + ·) 0
    let valid (v : State) : Nat := ((List.range 16).map fun n => b2n (let r := v.region sh n; r.any || r.cvalid) * 2 ^ n).foldl (· + ·) 0
    (∀ u b tds tdd g tok, q.op = .beam (.copy b tds tdd g tok) → s.startsAs sh (s.copyKind sh 0 true) q u → u.isCommit sh q = true →
      (u.sh sh).tag = none → q.transfer = none →
      (q.skip = true → ∃ t, exec (.commitWrite sh .queued) s = .next t ∧ u.completes t sh q []
        ∧ t = { u with regs := t.regs, units := t.units, shades := t.shades } ∧ u.otherShades t sh ∧ u.onlyRegs t fun k _ o => k = .tstate ∧ eventReg o)
      ∧ ∀ bs, q.skip = false → u.commitSource ⟨sh, u.leadP sh, 0, q.g⟩ (readTD q.desc tds.toNat) = .ok bs →
        (u.bitR .safe (shInst sh) 0x108 2 = true → ∃ t, exec (.commitWrite sh .queued) s = .next t ∧ u.completes t sh q [] ∧ t.mem = u.mem
          ∧ t.bitR .tstate sh.val 0x118 6 = true ∧ ∀ n, n < 16 → t.getR .tstate sh.val (0x400 + 4 * n) = 0)
        ∧ (u.bitR .safe (shInst sh) 0x108 2 = false → (bs.getD 12 0).toNat ≤ 1 →
          (∀ n, n < 16 → (u.region sh n).any = true → (u.region sh n).count = (u.region sh n).units) →
          (∀ w ∈ (u.sh sh).saf.wsteps, (u.region sh w.1).any = true → w.2 = seq u) →
          let body := leBytes 8 (seq u) ++ leBytes 2 (slots u) ++ leBytes 2 (valid u) ++ leBytes 1 (bs.getD 12 0).toNat ++ leBytes 3 0
            ++ (bs.drop 16).take 48 ++ ((List.range 16).flatMap fun n => leBytes 8 (if (u.region sh n).any then seq u else (u.region sh n).rcseq))
            ++ leBytes 60 0
          let r := u.wrSN ⟨sh, u.leadP sh, 0, q.g⟩ 0xB (u.commitBase sh + 256 * u.getF .tstate sh.val 0x114 0 0) (body ++ leBytes 4 (crc32c body).toNat)
          r.err = none → exec (.commitWrite sh .queued) s = .next r.s))
    ∧ (s.commitRunning sh = none → exec (.commitApply sh) s = .next s)
    ∧ (s.commitRunning sh = some q → (s.sh sh).tag = none →
      ∃ t, exec (.commitApply sh) s = .next t
        ∧ t.getR .tstate sh.val 0x110 = slots s + valid s * 65536 ∧ t.getR64 .tstate sh.val 0x108 = seq s
        ∧ t.getF .tstate sh.val 0x114 0 0 = 1 - s.getF .tstate sh.val 0x114 0 0
        ∧ (∀ n, n < 16 → t.getR .tstate sh.val (0x400 + 4 * n) = 0
          ∧ t.getR64 .tstate sh.val (0x200 + 0x20 * n + 0x18) = if (s.region sh n).any then seq s else (s.region sh n).rcseq)
        ∧ (t.sh sh).running = (s.sh sh).running.filter (fun r => r.q.id != q.id) ∧ (t.sh sh).saf.wsteps = []
        ∧ t.mem = s.mem ∧ s.otherShades t sh ∧ s.onlyRegs t fun k i o => (k = .tstate ∧ i = sh.val) ∨ (k = .agqm ∧ i = 0 ∧ o = 0x108))

/-! ## Jorx: operations (R369 to R378) -/

/-- R361, R366, R370, R371: a PUT or GET whose part fits one message sends it to the remote device, takes the next SEQ of its stream (a GET the next tag) and
waits for the answer; from an isolated device, or to one recorded dead, it completes at once with DEST_DEAD. -/
def Obligations.RemoteTransfers : Prop :=
  ∀ (s u : State) (sh : ShadeIx) (q : QOp) (x : Transfer) (i : Instr) (n : Nat),
    (i, n) ∈ [(Instr.put sh .queued, 1), (.get sh .queued, 2)] → s.startsAs sh (opKind 12 n) q u → q.isJorx = true → q.transfer = some x →
    (u.sh sh).tag = none →
    ((u.isolated = true ∨ (x.dev ≠ u.devId ∧ u.deadDev x.dev = true)) →
      ∃ t, exec i s = .next t ∧ (t.sh sh).running = (u.sh sh).running.filter (fun r => r.q.id != q.id)
        ∧ t.bitR .jshade sh.val 0x184 1 = true ∧ u.signals t (shadeSrc sh 2) ∧ u.otherShades t sh)
    ∧ ∀ p, u.isolated = false → u.deadDev x.dev = false → x.dev ≠ u.devId → x.dev < 16384 → u.partPrisms sh x.part = [p] →
      let td := readTD q.desc x.td
      let r := u.tdPart sh x.part p td
      let m : MsgTD := ⟨x.rtd, tdWords q.desc x.td, BitVec.ofNat 2 x.part, u.posOf sh p, (u.prismsOf sh).length⟩
      let key := streamKey sh x.dev x.rsh
      let arg := if x.get then u.jorx.nextTag else u.nextSeq key
      0 < td.positions r → td.positions r ≤ td.perMsg → (u.route u.devId x.dev u.activeCopy none).isSome = true →
      ∀ items b len, (if x.get then b = .getReq m 0 (td.positions r) u.jorx.nextTag ∧ len = 0
          else (∃ v, u.lview ⟨sh, p, 0, q.g⟩ q x.td x.part r = .ok v ∧ v.t = td
            ∧ u.chunkItems ⟨sh, p, 0, q.g⟩ v r 0 (td.positions r) = .ok items) ∧ items ≠ [] ∧ b = .put m items ∧ len = itemBytes td.fmt items) →
        ∃ t, exec i s = .next t ∧ u.leaves t ⟨u.newHead x.dev x.rsh sh (u.nextSeq key) len, b⟩ none
          ∧ (t.sh sh).open_ = (u.sh sh).open_ ++ [⟨q.id, BitVec.ofNat 14 x.dev, x.rsh, x.get, arg, u.posOf sh p, u.tb.toNat, u.activeCopy⟩]
          ∧ (t.sh sh).running = (u.sh sh).running
          ∧ (∀ k, t.nextSeq k = if x.get = false ∧ k = key then (u.nextSeq key + 1) % 2 ^ 32 else u.nextSeq k)
          ∧ (x.get = true → t.jorx.nextTag = (u.jorx.nextTag + 1) % 2 ^ 64)
          ∧ t = { u with regs := t.regs, units := t.units, inCond := t.inCond, shades := t.shades, jorx := t.jorx } ∧ u.otherShades t sh
          ∧ u.onlyRegs t fun _ _ o => eventReg o

/-- R374, R375, R378: a collective takes the next number of its group. At a member that is not its pane's gatherer it is recorded and its contribution sent
to the gatherer (FLAGRED's with the low flags of SAFE_FLAGS); a BARRIER of the group that owns SYNC_N lets go of the line instead; one that has
been released before completes with the result that was kept. -/
def Obligations.Collectives : Prop :=
  ∀ (s u : State) (sh : ShadeIx) (q : QOp) (g : GroupIx) (i : Instr) (n : Nat),
    (i, n) ∈ [(Instr.barrier sh .queued, 3), (.flagred sh .queued, 4), (.smallred sh .queued, 5), (.bcast sh .queued, 6)] →
    s.startsAs sh (opKind 12 n) q u → q.group = some g → (u.sh sh).tag = none → u.isolated = false →
    let grp := u.grp sh g.val
    let num := (u.sh sh).colls.next.get (fun _ => 0) g.val
    let kept := (u.sh sh).colls.kept.find? fun k => k.group == g && k.number == num
    let gat := grp.gatherer (paneOf u.devId)
    let words : List W64 := match q.op with
      | .jorx (.flagred r _ _) => [BitVec.ofNat 64 (q.greg r.toNat / 512 * 512 + u.getF .safe (shInst sh) 0x104 7 0)]
      | .jorx (.smallred r _ _ _) => (List.range 8).map fun j => BitVec.ofNat 64 (q.greg (r.toNat + j))
      | _ => []
    let dest : List Nat := match q.op with
      | .jorx (.flagred r _ _) => [r.toNat]
      | .jorx (.smallred r _ _ _) => (List.range 8).map fun j => r.toNat + j
      | _ => []
    let numbered (t : State) : Prop := (t.sh sh).colls.next.get (fun _ => 0) g.val = num + 1 ∧ u.otherShades t sh ∧ t.mem = u.mem
    (∀ k, kept = some k → k.dead = false → ∃ t, exec i s = .next t ∧ numbered t ∧ u.completes t sh q (dest.zip k.words)
      ∧ t.getR .jshade sh.val (0x10C + 0x10 * g.val) = (u.getR .jshade sh.val (0x10C + 0x10 * g.val) + 1) % 2 ^ 32)
    ∧ (kept = none → grp.broken = false → u.memberOf sh g num = none → u.onLine sh q g = false → gat ≠ u.devId → gat < 16384 →
      (u.route u.devId gat u.activeCopy none).isSome = true →
      ∃ t m, exec i s = .next t ∧ numbered t ∧ (t.sh sh).running = (u.sh sh).running
        ∧ (t.sh sh).colls.members = (u.sh sh).colls.members ++ [m] ∧ m.group = g ∧ m.number = num ∧ m.q = q ∧ m.release = none
        ∧ u.leaves t ⟨u.newHead gat 0 sh (u.nextSeq (streamKey sh gat 0)) (8 * words.length),
            .arrive ⟨BitVec.ofNat 16 grp.gid, num⟩ (BitVec.ofNat 14 u.devId) words false⟩ none)
    ∧ (kept = none → grp.broken = false → u.memberOf sh g num = none → u.onLine sh q g = true →
      ∃ t m, exec i s = .next t ∧ numbered t ∧ (t.sh sh).running = (u.sh sh).running ∧ t.regs = u.regs
        ∧ (t.sh sh).colls.members = (u.sh sh).colls.members ++ [m] ∧ m.group = g ∧ m.number = num ∧ m.q = q ∧ m.release = none
        ∧ t.jorx = { u.jorx with sync := if u.jorx.sync.low = true ∧ u.jorx.sync.since + 100 ≤ u.tb.toNat then ⟨false, u.tb.toNat, false⟩
            else { u.jorx.sync with want := u.jorx.sync.low } })

/-! ## Jorx: ports (R355 to R358, R362, R379, R380) -/

/-- R355, R357, R362, R372: a trained port sends its HELLO, and a port that fails to train or loses lock goes DOWN with what it held lost; a DOWN port trains
again 1 s later; a partner's HELLO makes the port UP, or HELD where the wiring does not fit, and first makes the partner known. -/
def Obligations.PortStates : Prop :=
  ∀ (s : State) (i : PortIx),
    let st := s.portState i.val
    let frame (t : State) : Prop := s.linksIn t ∧ (∀ j, j ≠ i → t.port j = s.port j) ∧ s.onlyRegs t (portReg i)
    let goesDown (ins : Instr) : Prop := ∃ t, exec ins s = .next t ∧ frame t ∧ t.portState i.val = 0
      ∧ t.port i = { PortSt.reset with since := s.tb.toNat } ∧ t.bitR .jport i.val 0x108 0 = true ∧ s.signals t 0x002
    (s.portEn i = true → st = 1 → ∃ t, exec (.portTraining i true) s = .next t ∧ frame t ∧ t.portState i.val = 1
      ∧ t.port i = (s.port i).push 0 none 1)
    ∧ (s.portEn i = true → st = 1 → goesDown (.portTraining i false))
    ∧ (∀ ok, s.portEn i = false ∨ st ≠ 1 → exec (.portTraining i ok) s = .next s)
    ∧ (st ≠ 0 → goesDown (.portLockLoss i)) ∧ (st = 0 → exec (.portLockLoss i) s = .next s)
    ∧ (s.portEn i = true → st = 0 → (s.port i).since + 10 ^ 9 ≤ s.tb.toNat →
      ∃ t, exec (.portRetryTimer i) s = .next t ∧ frame t ∧ t.portState i.val = 1 ∧ t.port i = { s.port i with since := s.tb.toNat })
    ∧ (s.portEn i = false ∨ st ≠ 0 ∨ s.tb.toNat < (s.port i).since + 10 ^ 9 → exec (.portRetryTimer i) s = .next s)
    ∧ ∀ h : HelloFlit, s.portEn i = true → st = 1 ∨ st = 3 →
      let d := h.dev.toNat
      let pos := if i.val < s.devId % 16 then i.val else i.val + 1
      let fits : Prop := s.idValid = true ∧ d ≠ s.devId
        ∧ (if i.val < 15 then d / 16 = s.devId / 16 ∧ d % 16 = pos else d / 16 ≠ s.devId / 16)
      (fits → ∃ t, exec (.hello i h) s = .next t ∧ frame t ∧ t.portState i.val = 2 ∧ t.portPeer i.val = d
        ∧ t.port i = { s.port i with rx := ((s.port i).rx + 1) % 4096, missed := 0, replied := false }
        ∧ ∀ x, t.peer x = if x = d ∧ s.peer d = none then some ⟨h.epoch, true⟩ else s.peer x)
      ∧ (¬ fits → ∃ t, exec (.hello i h) s = .next t ∧ frame t ∧ t.portState i.val = 3 ∧ t.bitR .jport i.val 0x108 1 = true ∧ s.signals t 0x002
        ∧ t.port i = { s.port i with rx := ((s.port i).rx + 1) % 4096 } ∧ t.jorx.peers = s.jorx.peers)

/-- R357, R379, R380: an UP port sends heartbeats; one received proves its partner alive, and from the parent sets the slew; the first that is missed sends
a PROBE another way. A NAK sends the flits behind its number again, the eighth for the same flit retrains the port; a bad flit is answered
by a NAK. -/
def Obligations.PortTraffic : Prop :=
  ∀ (s : State) (i : PortIx),
    let st := s.portState i.val
    let others (t : State) : Prop := ∀ j, j ≠ i → t.port j = s.port j
    (st = 2 → s.bitR .health 0 0x204 0 = false → ∃ t, exec (.heartbeat i) s = .next t ∧ s.linksIn t ∧ others t
      ∧ t.port i = (s.port i).push 0 none 1
      ∧ s.onlyRegs t fun k n o => eventReg o ∨ (k = .jorx ∧ n = 0 ∧ o = 0x118 ∧ s.getF .jorx 0 0x114 4 0 = 0x1F))
    ∧ (st ≠ 2 → exec (.heartbeat i) s = .next s)
    ∧ (∀ down up, st = 2 → i.val ≠ s.getF .jorx 0 0x114 4 0 → ∃ t, exec (.heartbeatReceive i down up) s = .next t ∧ s.linksIn t ∧ others t
      ∧ t.port i = { s.port i with rx := ((s.port i).rx + 1) % 4096, missed := 0, replied := false }
      ∧ t.jorx = { s.jorx with ports := t.jorx.ports } ∧ s.onlyRegs t fun _ _ o => eventReg o)
    ∧ (∀ down up, st = 2 → i.val = s.getF .jorx 0 0x114 4 0 →
      let off : Int := ((down.toNat : Int) - up.toNat) / 2
      ∃ t, exec (.heartbeatReceive i down up) s = .next t ∧ t.jorx.slew = -off ∧ t.jorx.slewTicks = 0 ∧ t.tb = s.tb
        ∧ (-32768 ≤ off → off < 32768 → (t.getF .jorx 0 0x118 31 16 : Int) = off % 65536)
        ∧ t.bitR .jorx 0 0x118 0 = (decide (off.natAbs ≤ 128) && s.inTime)
        ∧ t = { s with regs := t.regs, units := t.units, jorx := t.jorx, fresh := s.fresh + 1 })
    ∧ (st = 2 → (s.port i).missed = 0 → (s.route s.devId (s.portPeer i.val) s.activeCopy (some i)).isSome = true →
      ∃ t, exec (.heartbeatMiss i) s = .next t ∧ s.linksIn t ∧ t.bitR .jport i.val 0x108 3 = true
        ∧ (s.modPort i fun p => { p with missed := 1 }).leaves t ⟨s.newHead (s.portPeer i.val) 0 0 0 0, .probe false⟩ (some i))
    ∧ (∀ (k : Nat) (before : List Flit) (g f : Flit) (rest : List Flit) (lseq : BitVec 12), 2 ≤ st →
      (s.port i).buf = before ++ g :: f :: rest → g.lseq = lseq.toNat → (∀ b ∈ before, b.lseq ≠ lseq.toNat) →
      k = (if (s.port i).resendFrom = f.lseq ∧ 0 < (s.port i).resends then (s.port i).resends + 1 else 1) →
      (k < 8 → ∃ t, exec (.nak i lseq) s = .next t ∧ s.linksIn t ∧ others t
        ∧ t.port i = { s.port i with buf := f :: rest, resends := k, resendFrom := f.lseq } ∧ s.onlyRegs t fun _ _ o => eventReg o)
      ∧ (8 ≤ k → ((s.port i).retrains.filter fun t => s.tb.toNat < t + 10 ^ 9).length < 7 →
        ∃ t, exec (.nak i lseq) s = .next t ∧ s.linksIn t ∧ others t ∧ t.portState i.val = 1 ∧ t.bitR .jport i.val 0x108 2 = true
          ∧ (t.port i).buf = f :: rest ∧ (t.port i).resends = 0))
    ∧ (∀ why, 2 ≤ st → ∃ t, exec (.flitCrcFailure i why) s = .next t ∧ s.linksIn t ∧ others t ∧ t.port i = (s.port i).push 0 none 1
      ∧ s.onlyRegs t fun _ _ o => eventReg o)
    ∧ (∀ why, st < 2 → exec (.flitCrcFailure i why) s = .next s)

/-! ## Jorx: messages (R359 to R361, R366, R370, R371, R374, R375) -/

/-- R359, R360, R363, R366: of every message command: nothing arrives on a port that is not UP; without an ID nothing goes further than the port; a message for
another device leaves by its route, its head changed only in its last dimension and channel; a stale one, and one of a reserved type,
is dropped and counted. -/
def Obligations.MessagesRouted : Prop :=
  ∀ (s : State) (c : Instr) (i : PortIx) (m : Msg), commandMessage c = some (i, m) →
    let u := s.rxFlits i (1 + bodyFlits m.head.len.toNat)
    let elsewhere : Prop := m.head.dst.toNat ≠ s.devId ∧ Body.neighbour m.body = false
    let exempt : Bool := match m.body with
      | .dead _ _ | .alive _ _ | .join _ | .probe _ | .marrive _ _ | .mrelease _ _ _ => true
      | _ => false
    let stale : Prop := (∃ e, s.peer m.head.src.toNat = some ⟨e, false⟩)
      ∨ (∃ e a, s.peer m.head.src.toNat = some ⟨e, a⟩ ∧ m.head.sepoch ≠ e) ∨ m.head.depoch.toNat ≠ s.devEpoch
    (s.portUp i.val = false → exec c s = .next s)
    ∧ (s.portUp i.val = true → s.idValid = false → exec c s = .next u)
    ∧ (s.portUp i.val = true → s.idValid = true → elsewhere →
      ((s.route m.head.src.toNat m.head.dst.toNat m.head.tsel none).isSome = true →
        ∃ t, exec c s = .next t ∧ u.leaves t m none ∧ u.linksIn t ∧ u.onlyRegs t fun _ _ o => eventReg o)
      ∧ (s.route m.head.src.toNat m.head.dst.toNat m.head.tsel none = none → exec c s = .next (u.count .jorx 0 9 1)))
    ∧ (s.portUp i.val = true → s.idValid = true → ¬ elsewhere → exempt = false → stale →
      exec c s = .next ((u.count .jport i.val 6 1).count .jorx 0 6 1))
    ∧ (s.stale m = true ↔ exempt = false ∧ stale)
    ∧ (∀ typ, m.body = .reserved typ → (∀ m', c ≠ .messageRoute i m') → s.takesIn i m u →
      exec c s = .next ((u.count .jport i.val 0xA 1).count .jorx 0 0xA 1))

/-- R361, R370, R371: a PUT in sequence is written and acknowledged, a repeated one acknowledged and not written; a GET request is answered with its data; an
ACK and a GET's data close the message they answer and, with the last one, complete the operation; a NACK ends it with BOUND; with no
answer in time it completes with LINK_DOWN. -/
def Obligations.TransferMessages : Prop :=
  ∀ (s u : State) (i : PortIx) (h : Head),
    let sh := h.dshade
    let key := streamKey sh h.src.toNat h.sshade
    let back (len : Nat) : Head := u.newHead h.src.toNat h.sshade sh 0 len
    let routed : Prop := (u.route u.devId h.src.toNat u.activeCopy none).isSome = true ∧ u.isolated = false
    let closed (t : State) (o : OpenMsg) (q : QOp) : Prop := (t.sh sh).open_ = (u.sh sh).open_.erase o ∧ u.otherShades t sh
      ∧ ((∃ o' ∈ (u.sh sh).open_.erase o, o'.opId = o.opId) → (t.sh sh).running = (u.sh sh).running)
      ∧ ((∀ o' ∈ (u.sh sh).open_.erase o, o'.opId ≠ o.opId) → (u.sh sh).tag = none → u.completes t sh q [])
    (∀ td items, s.takesIn i ⟨h, .put td items⟩ u → routed →
      (h.seq.toNat < u.jorx.inSeq.get (fun _ => 0) key → ∃ t, exec (.putMsg i h td items) s = .next t ∧ t.mem = u.mem
        ∧ u.leaves t ⟨back 0, .ack h.seq⟩ none)
      ∧ (h.seq.toNat = u.jorx.inSeq.get (fun _ => 0) key →
        let v := u.modJorx fun j => { j with inSeq := j.inSeq.set (fun _ => 0) key (h.seq.toNat + 1) }
        let z := v.acceptItems sh h.src.toNat h.sshade td items
        (z.2 = true → ∃ t, exec (.putMsg i h td items) s = .next t ∧ t.mem = z.1.mem ∧ t.jorx.inSeq = v.jorx.inSeq
          ∧ z.1.leaves t ⟨back 0, .ack h.seq⟩ none)
        ∧ (v.remotePlan sh h.src.toNat h.sshade td false = none → ∃ t, exec (.putMsg i h td items) s = .next t ∧ t.mem = u.mem
          ∧ v.leaves t ⟨back 0, .nack false (BitVec.ofNat 64 h.seq.toNat)⟩ none)))
    ∧ (∀ td first n tag v l, s.takesIn i ⟨h, .getReq td first n tag⟩ u → routed → u.serveItems sh h.src.toNat h.sshade td first n = (v, some l) →
      ∃ t, exec (.getReqMsg i h td first n tag) s = .next t ∧ u.linksIn t
        ∧ u.leaves t ⟨back (itemBytes (tdOfWords td.words).fmt l), .getData tag l⟩ none)
    ∧ (∀ seq o q, s.takesIn i ⟨h, .ack seq⟩ u → u.openFor ⟨h, .ack seq⟩ false seq.toNat = some o → u.openOp sh o = some q → q.id = o.opId →
      ∃ t, exec (.ackMsg i h seq) s = .next t ∧ closed t o q ∧ t.mem = u.mem)
    ∧ (∀ tag items o q x, s.takesIn i ⟨h, .getData tag items⟩ u → u.openFor ⟨h, .getData tag items⟩ true tag = some o → u.openOp sh o = some q →
      q.id = o.opId → q.transfer = some x →
      let p := ((u.prismsOf sh)[o.pos]?).getD 0
      let td := readTD q.desc x.td
      let r := u.tdPart sh x.part p td
      (∀ y ∈ items, td.itemFits r y = true) →
      let z := resFold (fun (s : State) y => s.putItem ⟨sh, p, 0, q.g⟩ q x.td x.part r y) u items
      z.err = none → ∃ t, exec (.getDataMsg i h tag items) s = .next t ∧ t.mem = z.s.mem ∧ (t.sh sh).open_ = (z.s.sh sh).open_.erase o)
    ∧ (∀ get arg o q, s.takesIn i ⟨h, .nack get arg⟩ u → u.openFor ⟨h, .nack get arg⟩ get arg.toNat = some o → u.openOp sh o = some q → q.id = o.opId →
      q.isJorx = true → ∃ t, exec (.nackMsg i h get arg) s = .next t ∧ (t.sh sh).lan.halted = true
        ∧ (∀ r ∈ (t.sh sh).running, r.q.id ≠ q.id) ∧ (∀ o' ∈ (t.sh sh).open_, o'.opId ≠ q.id) ∧ t.bitR .jshade sh.val 0x184 0 = true)
    ∧ ∀ (z : ShadeIx),
      ((∀ o ∈ (s.sh z).open_, s.tb.toNat < o.sentAt + max 1 (s.getF .jorx 0 0x11C 15 0) * 1000) → exec (.ackTimeout z) s = .next s)
      ∧ ∀ before o after q, (s.sh z).open_ = before ++ o :: after →
        (∀ b ∈ before, s.tb.toNat < b.sentAt + max 1 (s.getF .jorx 0 0x11C 15 0) * 1000) →
        o.sentAt + max 1 (s.getF .jorx 0 0x11C 15 0) * 1000 ≤ s.tb.toNat → s.openOp z o = some q → q.id = o.opId → (s.sh z).tag = none → (s.sh z).life < 2 →
        ∃ t, exec (.ackTimeout z) s = .next t ∧ (t.sh z).running = (s.sh z).running.filter (fun r => r.q.id != q.id)
          ∧ (t.sh z).open_ = (s.sh z).open_.filter (fun x => x.opId != q.id) ∧ t.bitR .jshade z.val 0x184 2 = true
          ∧ s.signals t (shadeSrc z 2) ∧ s.otherShades t z

/-- R374, R375, R378: an ARRIVE that opens a gathering is kept; the one that fills it at the root of a one-pane group releases the group at a time after now,
with the contributions combined in ascending order; a RELEASE is kept until its time, when the operation completes with its result and
the group counts it; broadcast data is written as it comes; SYNC_N releases a BARRIER by rising. -/
def Obligations.CollectiveMessages : Prop :=
  ∀ (s u : State) (i : PortIx) (h : Head) (sh : ShadeIx) (g : GroupIx) (c : CollId),
    let grp := u.grp sh g.val
    let mine (m : Member) : Bool := m.group == g && m.number == c.number
    let same (x : Gathering) : Bool := x.group == g && x.number == c.number
    let key := streamKey h.dshade h.src.toNat h.sshade
    let here : Prop := u.groupOf c.gid.toNat = some (sh, g) ∧ (u.sh sh).life < 2 ∧ grp.broken = false
    (∀ d words, s.takesIn i ⟨h, .arrive c d words false⟩ u → here → h.seq.toNat = u.jorx.inSeq.get (fun _ => 0) key →
      ((u.sh sh).colls.gathers.find? same = none → u.memberOf sh g c.number = none →
        ∃ t, exec (.arriveMsg i h c d words false) s = .next t ∧ t.jorx = { u.jorx with inSeq := t.jorx.inSeq }
          ∧ t.jorx.inSeq.get (fun _ => 0) key = h.seq.toNat + 1
          ∧ t = { (u.modSh sh fun y => { y with colls := { y.colls with gathers := y.colls.gathers ++ [⟨g, c.number, [(d, words)], false, false⟩] } })
              with jorx := t.jorx })
      ∧ ∀ x m o ls, (u.sh sh).colls.gathers = [x] → same x = true → u.memberOf sh g c.number = some m → m.release = none → m.q.jorxOp = some o →
        (∀ td r gr tok, o ≠ .bcast td r gr tok) → u.devId = grp.rootDev → grp.panes = [grp.root] → paneOf u.devId = grp.root →
        arrivedOf x.arrived d.toNat = none → arrivedAll (x.arrived ++ [(d, words)]) (grp.inPane grp.root) = some ls →
        ∃ t, exec (.arriveMsg i h c d words false) s = .next t ∧ (t.sh sh).colls.gathers = []
          ∧ ((t.sh sh).colls.members.find? mine).map (fun m => m.release)
            = some (some (u.tb.toNat + 125 + 160 * groupH grp.lo grp.hi grp.root, collCombineAll o ls, false))
          ∧ (t.sh sh).running = (u.sh sh).running ∧ t.mem = u.mem ∧ u.otherShades t sh)
    ∧ (∀ time words m, s.takesIn i ⟨h, .release c time words false⟩ u → here → u.memberOf sh g c.number = some m → m.release = none →
      (∀ o, m.q.jorxOp = some o → ∀ td r gr tok, o ≠ .bcast td r gr tok) → u.tb.toNat < time.toNat →
      ∃ t, exec (.releaseMsg i h c time words false) s = .next t
        ∧ (t.sh sh).colls.members.find? mine = some { m with release := some (time.toNat, words, false) }
        ∧ (t.sh sh).running = (u.sh sh).running ∧ t.mem = u.mem ∧ u.otherShades t sh)
    ∧ (∀ before m after time words, (s.sh sh).colls.members = before ++ m :: after → (∀ b ∈ before, b.group ≠ g) → m.group = g →
      m.release = some (time, words, false) → time ≤ s.tb.toNat → m.need = 0 → s.collLive sh m = true → (s.sh sh).tag = none →
      ∃ t, exec (.releaseTime (.group sh g)) s = .next t ∧ s.completes t sh m.q ((collRegs m.q).zip words)
        ∧ t.getR .jshade sh.val (0x10C + 0x10 * g.val) = (s.getR .jshade sh.val (0x10C + 0x10 * g.val) + 1) % 2 ^ 32
        ∧ (∀ f gr tok, m.q.jorxOp = some (.flagred f gr tok) →
          t.getR .safe (shInst sh) 0x108 = s.getR .safe (shInst sh) 0x108 ||| (words.headD 0).toNat % 8)
        ∧ ⟨g, m.number, words, false⟩ ∈ (t.sh sh).colls.kept ∧ t.mem = s.mem ∧ s.otherShades t sh)
    ∧ (∀ td items m a r gr tok p, s.takesIn i ⟨h, .bcastData c td items⟩ u → here → h.seq.toNat = u.jorx.inSeq.get (fun _ => 0) key →
      u.memberOf sh g c.number = some m → m.release = none → u.collLive sh m = true → m.q.op = .jorx (.bcast a r gr tok) →
      let w := RemoteWord.ofNat (m.q.greg r.toNat)
      let b := readTD m.q.desc a.toNat
      let part := u.tdPart sh w.part p b
      u.servingPrism sh { td with part := BitVec.ofNat 2 w.part } = some p → plainBad (tdOfWords td.words) b = false →
      (∀ y ∈ items, b.itemFits part y = true) →
      let z := resFold (fun (s : State) y => s.putItem ⟨sh, p, 0, m.q.g⟩ m.q a.toNat w.part part y)
        (u.modJorx fun j => { j with inSeq := j.inSeq.set (fun _ => 0) key (h.seq.toNat + 1) }) items
      z.err = none → ∃ t, exec (.bcastDataMsg i h c td items) s = .next t ∧ t.mem = z.s.mem
        ∧ (t.sh sh).colls.members.find? mine = some { m with need := m.need - 1 } ∧ (t.sh sh).running = (u.sh sh).running)
    ∧ (∀ before m after, s.syncGroup = some (sh, g) → s.jorx.sync.low = false → (s.sh sh).colls.members = before ++ m :: after →
      (∀ b ∈ before, b.group ≠ g) → m.group = g → s.onLine sh m.q g = true → s.collLive sh m = true → (s.sh sh).tag = none →
      ∃ t, exec .syncNHigh s = .next t ∧ s.completes t sh m.q [] ∧ t.jorx = { s.jorx with sync := ⟨true, s.tb.toNat, false⟩ }
        ∧ t.getR .jshade sh.val (0x10C + 0x10 * g.val) = (s.getR .jshade sh.val (0x10C + 0x10 * g.val) + 1) % 2 ^ 32 ∧ t.mem = s.mem)
    ∧ (s.syncGroup = none ∨ s.jorx.sync.low = true → exec .syncNHigh s = .next s)
    ∧ exec .syncNRelease s = .next (if s.jorx.sync.low = true ∧ s.jorx.sync.want = true ∧ s.jorx.sync.since + 100 ≤ s.tb.toNat
        then s.modJorx fun j => { j with sync := ⟨false, s.tb.toNat, false⟩ } else s)

/-! ## Jorx: liveness, management, enumeration (R363, R364, R367, R374, R380 to R385) -/

/-- R360, R361, R380, R381: DEAD about another device records it dead and goes on to every other UP port; about this one it isolates the device. ALIVE and JOIN
record the new epoch and begin the streams with the device again; a PROBE is answered, and a reply is noted at the silent ports of its
sender; JORX_CTRL.JOIN raises the device's epoch, begins its streams again and asks every partner. -/
def Obligations.Liveness : Prop :=
  ∀ (s u : State) (i : PortIx) (h : Head),
    let fresh (t : State) (x : Nat) : Prop := ∀ k, streamDev k = x → t.nextSeq k = 0 ∧ t.jorx.inSeq.get (fun _ => 0) k = 0
    let told (t : State) (f : PortIx → Bool) (b : Body) : Prop := ∀ j, t.port j = if f j = true ∧ u.portUp j.val = true
        then (u.port j).push 0 (some ⟨u.newHead (u.portPeer j.val) 0 0 0 0, b⟩) 1 else u.port j
    (∀ x e, s.takesIn i ⟨h, .dead x e⟩ u → x.toNat ≠ u.devId → u.peer x.toNat = none ∨ u.peer x.toNat = some ⟨e, true⟩ →
      (∀ z, ∀ o ∈ (u.sh z).open_, o.dev ≠ x) → u.groupsWith x.toNat = [] →
      ∃ t, exec (.deadMsg i h x e) s = .next t ∧ t.peer x.toNat = some ⟨e, false⟩ ∧ told t (fun j => j != i) (.dead x e)
        ∧ (∀ y, y ≠ x.toNat → t.peer y = u.peer y) ∧ u.linksIn t)
    ∧ (∀ x e, s.takesIn i ⟨h, .dead x e⟩ u → x.toNat ≠ u.devId → u.peer x.toNat = some ⟨e, false⟩ → exec (.deadMsg i h x e) s = .next u)
    ∧ (∀ x e, s.takesIn i ⟨h, .dead x e⟩ u → x.toNat = u.devId → e.toNat = u.devEpoch → u.isolated = false →
      ∃ t, exec (.deadMsg i h x e) s = .next t ∧ t.isolated = true ∧ t.bitR .jorx 0 0x134 2 = true)
    ∧ (∀ x e, s.takesIn i ⟨h, .alive x e⟩ u → x.toNat ≠ u.devId → u.peer x.toNat ≠ some ⟨e, true⟩ →
      ∃ t, exec (.aliveMsg i h x e) s = .next t ∧ t.peer x.toNat = some ⟨e, true⟩ ∧ fresh t x.toNat ∧ told t (fun j => j != i) (.alive x e)
        ∧ (∀ y, y ≠ x.toNat → t.peer y = u.peer y) ∧ u.linksIn t)
    ∧ (∀ e, s.takesIn i ⟨h, .join e⟩ u →
      ∃ t, exec (.joinMsg i h e) s = .next t ∧ t.peer h.src.toNat = some ⟨e, true⟩ ∧ fresh t h.src.toNat
        ∧ ((∀ p, u.peer h.src.toNat = some p → p.alive = true → p.epoch = e) → told t (fun _ => true) (.alive h.src e) ∧ u.linksIn t))
    ∧ (s.takesIn i ⟨h, .probe false⟩ u → (u.route u.devId h.src.toNat u.activeCopy none).isSome = true →
      ∃ t, exec (.probeMsg i h false) s = .next t ∧ u.leaves t ⟨u.newHead h.src.toNat 0 0 0 0, .probe true⟩ none ∧ u.linksIn t)
    ∧ (s.takesIn i ⟨h, .probe true⟩ u → (∀ j, (u.port j).missed < 3) →
      ∃ t, exec (.probeMsg i h true) s = .next t ∧ t = { u with jorx := t.jorx }
        ∧ ∀ j, t.port j = if u.portUp j.val = true ∧ u.portPeer j.val = h.src.toNat ∧ 1 ≤ (u.port j).missed
            then { u.port j with replied := true } else u.port j)
    ∧ ∀ path, s.accepts path .jorx 0 0x110 →
      ∃ t, exec (.join path) s = .next t ∧ t.devEpoch = (s.devEpoch + 1) % 65536 ∧ t.isolated = false ∧ t.bitR .jorx 0 0x110 0 = true
        ∧ t.jorx.outSeq = FMap.empty ∧ t.jorx.inSeq = FMap.empty
        ∧ ∀ j, if s.portUp j.val = true
            then ∃ hd, hd.dst = BitVec.ofNat 14 (s.portPeer j.val) ∧ hd.sepoch = BitVec.ofNat 16 t.devEpoch
              ∧ t.port j = (s.port j).push 0 (some ⟨hd, .join (BitVec.ofNat 16 t.devEpoch)⟩) 1
            else t.port j = s.port j

/-- R367, R374, R383, R384: SWAP and SNAP at the root call its children, and elsewhere are ignored; a child's arrival is noted, and the last lets the root release
for a time after now; a release from the parent goes on to the children and waits for its time. Then a SWAP every device was armed for
turns the active routing copy and clears ARM, one that was not is reported, and a SNAP holds injection; 2 µs later the counters are
snapshot and injection resumes. ARESET releases at once. -/
def Obligations.ManagementTree : Prop :=
  ∀ (s u : State) (i : PortIx) (h : Head),
    let root (v : State) : Prop := v.getF .jorx 0 0x114 4 0 = 0x1F
    let due (v : State) : Nat := v.tb.toNat + 125 + 160 * Config.mgmtHops.toNat
    (∀ c k path, (c, k) ∈ [(Instr.swap path, MgmtKind.swap), (.snap path, .snap)] → s.accepts path .jorx 0 0x110 →
      (root s → s.jorx.mgmt.running = none → s.children ≠ [] →
        ∃ t, exec c s = .next t ∧ s.linksIn t ∧ t.jorx.mgmt = { s.jorx.mgmt with running := some k, arrived := [] }
          ∧ ∀ j, if j ∈ s.children ∧ s.portUp j.val = true
            then ∃ hd, t.port j = (s.port j).push 0 (some ⟨hd, .marrive k false⟩) 1 else t.port j = s.port j)
      ∧ (¬ root s → ∃ t, exec c s = .next t ∧ t.jorx = s.jorx ∧ t.bitR .jorx 0 0x14 0 = true))
    ∧ (∀ path, s.accepts path .jorx 0 0x110 → root s → ∃ t, exec (.areset path) s = .next t ∧ s.linksIn t
        ∧ t.jorx.mgmt = { s.jorx.mgmt with running := none, arrived := [], release := some (.areset, due s, true) })
    ∧ (∀ k a, s.takesIn i ⟨h, .marrive k a⟩ u → root u → i ∈ u.children → u.jorx.mgmt.running = some k →
      let got := (u.jorx.mgmt.arrived.filter fun x => x.1 != i) ++ [(i, a)]
      ((∃ c ∈ u.children, c ∉ got.map Prod.fst) → ∃ t, exec (.marriveMsg i h k a) s = .next t
        ∧ t = { u with jorx := { u.jorx with mgmt := { u.jorx.mgmt with arrived := got } } })
      ∧ ((∀ c ∈ u.children, c ∈ got.map Prod.fst) → ∃ t, exec (.marriveMsg i h k a) s = .next t ∧ u.linksIn t
        ∧ t.jorx.mgmt = ⟨none, [], some (k, due u, k != .swap || (u.bitR .jorx 0 0x110 4 && got.all fun x => x.2))⟩))
    ∧ (∀ k time ok, s.takesIn i ⟨h, .mrelease k time ok⟩ u → i.val = u.getF .jorx 0 0x114 4 0 → u.tb.toNat < time.toNat →
      ∃ t, exec (.mreleaseMsg i h k time ok) s = .next t ∧ u.linksIn t ∧ t.jorx.mgmt = ⟨none, [], some (k, time.toNat, ok)⟩
        ∧ ∀ j, if j ∈ u.children ∧ u.portUp j.val = true
          then ∃ hd, t.port j = (u.port j).push 0 (some ⟨hd, .mrelease k time ok⟩) 1 else t.port j = u.port j)
    ∧ (∀ k time ok, s.jorx.mgmt.release = some (k, time, ok) → time ≤ s.tb.toNat →
      (k = .swap → ok = true → ∃ t, exec (.releaseTime .mgmt) s = .next t ∧ t.activeCopy = !s.activeCopy ∧ t.bitR .jorx 0 0x110 4 = false
        ∧ t.jorx.mgmt.release = none ∧ s.onlyRegs t fun r n o => r = .jorx ∧ n = 0 ∧ o = 0x110)
      ∧ (k = .swap → ok = false → ∃ t, exec (.releaseTime .mgmt) s = .next t ∧ t.activeCopy = s.activeCopy ∧ t.bitR .jorx 0 0x134 4 = true
        ∧ t.jorx.mgmt.release = none)
      ∧ (k = .snap → exec (.releaseTime .mgmt) s = .next { s with jorx := { s.jorx with
          mgmt := { s.jorx.mgmt with release := none }, holdFrom := some time } }))
    ∧ (∀ time, s.jorx.holdFrom = some time → s.tb.toNat < time + 2000 → exec .snapshotFreezeTime s = .next s)
    ∧ ∀ time, s.jorx.holdFrom = some time → time + 2000 ≤ s.tb.toNat → s.agq.snaps.length < 4 →
      ∃ t, exec .snapshotFreezeTime s = .next t ∧ t.jorx = { s.jorx with holdFrom := none } ∧ t.agq.snaps.length = s.agq.snaps.length + 1
        ∧ (t.bitR .jorx 0 0x134 5 = true ∨ ∀ z, (s.sh z).open_ = [])

/-- R363, R364: with no position yet, two identical frames in a row give it and the head of the chain is position 0, a frame of 16 or more fails, and so does
20 ms without either; the ID is valid from then if the pane was written before; a positioned device sends the frame on. -/
def Obligations.Enumeration : Prop :=
  ∀ (s : State), s.clocked = true →
    let st (v : State) : Nat := v.getF .jorx 0 0x108 5 4
    let fails (c : Instr) : Prop := ∃ t, exec c s = .next t ∧ st t = 2 ∧ t.bitR .jorx 0 0x134 0 = true ∧ t.idValid = s.idValid ∧ t.jorx = s.jorx
    let takes (c : Instr) (p : Nat) (head : Bool) : Prop := ∃ t, exec c s = .next t ∧ t = { s with regs := t.regs } ∧ st t = 1
      ∧ t.getF .jorx 0 0x108 3 0 = p ∧ t.bitR .jorx 0 0x108 6 = head
      ∧ (s.jorx.paneWritten = true → t.idValid = true ∧ t.devId = s.getF .jorx 0 0x104 9 0 * 16 + p)
      ∧ (s.jorx.paneWritten = false → t.getR .jorx 0 0x100 = s.getR .jorx 0 0x100)
      ∧ s.onlyRegs t fun k n o => k = .jorx ∧ n = 0 ∧ (o = 0x100 ∨ o = 0x108)
    (st s = 0 → (∀ v : BitVec 5, 16 ≤ v.toNat → fails (.enumFrame v))
      ∧ (∀ v : BitVec 5, v.toNat < 16 → s.jorx.enumLast = some v.toNat → takes (.enumFrame v) v.toNat false)
      ∧ (∀ v : BitVec 5, v.toNat < 16 → s.jorx.enumLast ≠ some v.toNat →
          exec (.enumFrame v) s = .next { s with jorx := { s.jorx with enumLast := some v.toNat } })
      ∧ takes .enumHead 0 true
      ∧ (s.jorx.enumFrom + 20000000 ≤ s.tb.toNat → fails .enumTimeout)
      ∧ (s.tb.toNat < s.jorx.enumFrom + 20000000 → exec .enumTimeout s = .next s) ∧ exec .enumSend s = .next s)
    ∧ (st s = 1 → exec .enumSend s = .next { s with jorx := { s.jorx with enumSent := s.jorx.enumSent + 1 } })
    ∧ (st s ≠ 0 → (∀ v, exec (.enumFrame v) s = .next s) ∧ exec .enumHead s = .next s ∧ exec .enumTimeout s = .next s)

/-! ## Noise, errors, self-test (R210 to R212, R276, R464 to R471) -/

/-- R210 to R212: a raw bit of each oscillator that is used and passes its tests joins the conditioning block; one that fails the repetition count or the
adaptive proportion test is excluded and says so in NOISE_ERR, and seeds in the pool stay. -/
def Obligations.NoiseSamples : Prop :=
  ∀ (s : State) (bits : BitVec 4), s.clocked = true →
    let osc (v : State) (i : Fin 4) : Osc := v.noise.osc[i.val]
    let b (i : Fin 4) : Bool := bits.getLsbD i.val
    let rct (i : Fin 4) : Bool := (osc s i).run != 0 && (osc s i).last == b i && decide (40 ≤ (osc s i).run)
    let apt (i : Fin 4) : Bool := (osc s i).pos != 0 && decide (795 ≤ (osc s i).same + b2n (b i == (osc s i).first))
    ((∀ i, (osc s i).used = true ∧ (osc s i).excl = false ∧ (osc s i).fails < 3 ∧ rct i = false ∧ apt i = false) → s.noise.bits + 4 < 1024 →
      ∃ t, exec (.noiseSample bits) s = .next t ∧ t.noise.block = s.noise.block + bits.toNat * 2 ^ s.noise.bits ∧ t.noise.bits = s.noise.bits + 4
        ∧ t.noise.pool = s.noise.pool ∧ t.noise.waiting = s.noise.waiting ∧ t = { s with noise := t.noise, regs := t.regs }
        ∧ s.onlyRegs t fun k n o => k = .noise ∧ n = 0 ∧ o = 0x100)
    ∧ ∀ i, (osc s i).fails < 3 → rct i = true ∨ apt i = true →
      ∃ t, exec (.noiseSample bits) s = .next t ∧ (osc t i).used = false ∧ (osc t i).excl = true ∧ (osc t i).fails = (osc s i).fails + 1
        ∧ (rct i = true → t.bitR .noise 0 0x104 i.val = true) ∧ (apt i = true → t.bitR .noise 0 0x104 (4 + i.val) = true)
        ∧ s.noise.pool <+: t.noise.pool

/-- R276, R466 to R469, R471: a patrol read of a clean word changes nothing but its count, of a correctable one leaves it to be written back and counts it, of
another is a machine fault of its prism; a scrub of isolation state that meets an uncorrectable error makes the device fatal and halts
its shades; a self-test window leaves its result, a failure fences the prism; packets of a fenced prism are dropped. -/
def Obligations.MachineHealth : Prop :=
  ∀ (s : State), s.clocked = true →
    (∀ w k (flips : BitVec 2), sramKey w = some k →
      let p := (keyPlace k).1
      let e := max (s.eccAt k) flips.toNat
      (e = 0 → exec (.patrolRead w flips) s = .next (s.count .scratch p 8 1))
      ∧ (e = 1 → ∃ t, exec (.patrolRead w flips) s = .next t ∧ t = { s with regs := t.regs, ecc := t.ecc } ∧ t.eccAt k = 1
        ∧ (∀ j, j ≠ k / 8 → t.eccAt (8 * j) = s.eccAt (8 * j))
        ∧ t.getF .scratch p 0x10C 15 0 = min 0xFFFF (s.getF .scratch p 0x10C 15 0 + 1))
      ∧ (2 ≤ e → s.prismState p ≠ 2 → ∃ t, exec (.patrolRead w flips) s = .next t ∧ t.eccAt k = 2 ∧ t.mem = s.mem
        ∧ t.getF .health 0 (0x100 + 4 * p) 19 12 = 0x10)
      ∧ (s.eccAt k = 1 → ∃ t, exec (.eccWriteback w) s = .next t ∧ t.eccAt k = 0 ∧ (∀ j, j ≠ k / 8 → t.eccAt (8 * j) = s.eccAt (8 * j))
        ∧ t = { s with ecc := t.ecc })
      ∧ (s.eccAt k ≠ 1 → exec (.eccWriteback w) s = .next s))
    ∧ exec (.isolationScrub .clean) s = .next s
    ∧ (∃ t, exec (.isolationScrub .corrected) s = .next t ∧ t = { s with regs := t.regs }
      ∧ (s.bitR .mem 0 0x1C 1 = false → t.bitR .mem 0 0x18 1 = true) ∧ s.onlyRegs t fun k n o => k = .mem ∧ n = 0 ∧ o = 0x18)
    ∧ (s.bitR .health 0 0x204 0 = false → ∃ t, exec (.isolationScrub .uncorrectable) s = .next t ∧ t.bitR .health 0 0x204 0 = true
      ∧ t.bitR .boot 0 0x104 2 = true ∧ ∀ sh, (s.sh sh).life = 1 → (t.sh sh).lan.halted = true ∧ (t.sh sh).queue = [] ∧ (t.sh sh).running = [])
    ∧ (∀ (p : PPrism) r, (∃ sh, s.shadeOfPrism p.val = some sh ∧ p.val ∈ (s.sh sh).rep.window) ∨ (s.shadeOfPrism p.val = none ∧ s.stPaused = false ∧ s.warden = true) →
      ∃ t, exec (.selftestWindow p r) s = .next t ∧ t.health.tested.get (fun _ => 0) p.val = s.tb.toNat
        ∧ t.bitR .health 0 (0x100 + 4 * p.val) 20 = decide (r = .pass)
        ∧ (r = .pass → t.prismState p.val = s.prismState p.val) ∧ (r ≠ .pass → s.prismState p.val < 2 → t.prismState p.val = 2)
        ∧ (∀ sh, p.val ∈ (s.sh sh).rep.window → s.shadeOfPrism p.val = some sh → p.val ∉ (t.sh sh).rep.window))
    ∧ (∀ (p : PPrism) sh r, s.shadeOfPrism p.val = some sh → p.val ∉ (s.sh sh).rep.window → exec (.selftestWindow p r) s = .next s)
    ∧ (∀ (p : PPrism), s.prismState p.val = 0 → s.health.tested.get (fun _ => 0) p.val + 25000000 < s.tb.toNat →
      ∃ t, exec (.selftestStale p) s = .next t ∧ t.bitR .health 0 0x214 1 = true ∧ t = { s with regs := t.regs }
        ∧ s.onlyRegs t fun k n o => k = .health ∧ n = 0 ∧ o = 0x214)
    ∧ ∀ (p : PPrism), (s.prismState p.val = 2 → ∃ t, exec (.fencedPrismPacket p) s = .next t ∧ t = { s with regs := t.regs, units := t.units }
        ∧ t.getR .health 0 0x208 = min (2 ^ 32 - 1) (s.getR .health 0 0x208 + 1)
        ∧ s.onlyRegs t fun k n o => k = .health ∧ n = 0 ∧ (o = 0x208 ∨ eventReg o))
      ∧ (s.prismState p.val ≠ 2 → exec (.fencedPrismPacket p) s = .next s)

/-! ## The maintenance token (R472 to R478, R503, R528) -/

/-- R472, R474, R475, R503, R528: an activity that is asked for while the token is free takes it, and begins: a retraining of its controllers, a flash
activity with a good buffer by erasing its target, a substitution or an UNFENCE by moving a logical number; one asked for while it is held
is answered MAINT_BUSY. The release shows the result and completes what was held. -/
def Obligations.Maintenance : Prop :=
  ∀ (s : State),
    let asks (who : MaintWho) : Prop := match who with
      | .firmware => s.warden = true
      | .pf => s.accepts .pf .maint 0 0x100 ∧ s.warden = true
      | .i3c => s.accepts .i3c .maint 0 0x100 ∧ s.warden = true
    let holds (t : State) (who : MaintWho) (act arg : Nat) : Prop := t.bitR .maint 0 0x104 0 = true ∧ t.getF .maint 0 0x104 4 1 = act
      ∧ t.getF .maint 0 0x104 6 5 = whoCode who ∧ t.getF .maint 0 0x104 11 9 = arg ∧ s.signals t 0x005
    let busy : Prop := s.bitR .maint 0 0x104 0 = true
    let turnedAway (c : Instr) (who : MaintWho) : Prop := ∃ t, exec c s = .next t ∧ t = { s with regs := t.regs, units := t.units }
      ∧ (who = .pf → t.getF .maint 0 0x104 19 12 = 0x40) ∧ (who = .i3c → t.getF .maint 0 0x104 27 20 = 0x40)
      ∧ t.getF .maint 0 0x104 11 0 = s.getF .maint 0 0x104 11 0
    (∀ who c act arg, (c, act, arg) ∈ ((List.finRange 8).map fun i => (Instr.hbmRetrain who i, 3, i.val)) ++ [(.deepRetrain who 0, 4, 0), (.deepRetrain who 1, 4, 1),
        (.fullScrub who, 5, 0)] → asks who →
      (¬ busy → ∃ t, exec c s = .next t ∧ holds t who act arg ∧ (act = 3 → t.bitR .memctl arg 0x100 1 = true)
        ∧ (act = 4 → t.bitR .memctl (8 + arg) 0x100 1 = true) ∧ t.mem = s.mem ∧ t.shades = s.shades)
      ∧ (busy → turnedAway c who))
    ∧ (∀ who c act bs o body, (c, act) ∈ [(Instr.flashWrite who (some bs), 1), (.fwUpdate who (some bs), 6)] → who ≠ .i3c → asks who → ¬ busy →
      bs.length = s.getF .maint 0 0x110 21 0 → 16 ≤ bs.length → bs.length ≤ 2097168 → s.getF .maint 0 0x108 2 0 = 0 →
      (if act = 1 then s.flashPlan bs else s.imagePlan bs) = some (o, body) →
      ∃ t, exec c s = .next t ∧ holds t who act 0 ∧ t.maint.flash = [(o, body)] ∧ t.maint.refused = false
        ∧ s.stored t (flashKey o) (List.replicate 16 0xFF))
    ∧ (busy → s.warden = true → s.health.subs = [] → ∀ r, (r = .ok → s.activityOver = true ∧ s.maint.refused = false) →
      ∃ t, exec (.maintRelease r) s = .next t ∧ t.bitR .maint 0 0x104 0 = false ∧ s.signals t 0x005
        ∧ t.getF .maint 0 0x104 8 7 = (match r with
          | .ok => 1
          | .failed => 2
          | .aborted => 3) ∧ t.maint = MaintSt.reset)
    ∧ (busy → s.warden = true → s.health.subs = [] → s.activityOver = true → s.maint.refused = false →
      ∃ t, exec (.maintRelease .ok) s = .next t
        ∧ (∀ o body, s.activity = 1 ∨ s.activity = 6 → s.maint.flash = [(o, body)] → s.stored t (flashKey o) body ∧ s.signals t 0x00B)
        ∧ (s.activity = 3 → ∀ i, i < 8 → t.bitR .memctl i 0x100 1 = false)
        ∧ (s.activity = 4 → t.bitR .memctl 8 0x100 1 = false ∧ t.bitR .memctl 9 0x100 1 = false))
    ∧ (∀ (p : PPrism) q rest others, s.warden = true → ¬ busy → s.health.subs = p.val :: rest → s.goodSpares = q :: others → q ≠ p.val →
      let n := s.getF .health 0 (0x100 + 4 * p.val) 7 2
      n < 48 → ∃ t, exec (.spareSub p .pass) s = .next t ∧ t.l2p n = some q ∧ t.prismState q = 0 ∧ t.ownerP q = s.ownerP p.val ∧ t.ownerP p.val = 0xFF
        ∧ t.getF .health 0 (0x100 + 4 * p.val) 7 2 = 0x3F ∧ p.val ∉ t.health.subs ∧ holds t .firmware 2 0)
    ∧ ∀ (p : PPrism) n, s.accepts .pf .health 0 0x20C → s.warden = true → ¬ busy → s.bitR .health 0 0x20C 6 = false → s.unfenceNumber p.val = some n → n < 48 →
      ∃ t, exec (.unfence p .pass) s = .next t ∧ t.l2p n = some p.val ∧ t.prismState p.val = 0 ∧ t.getF .health 0 0x20C 9 8 = 1
        ∧ t.bitR .health 0 0x20C 6 = false ∧ holds t .firmware 2 0

/-! ## The Dimmer (R479 to R484) -/

/-- R479 to R483, R490, R507: a sample moves the thermal demand up by 1 at or above THROT and down by 1 below it less HYST, and the power and current demands
up by 2 above a limit and down by 1 once 5% below both, within 0 to 15; a DVFS step is taken once every enabled shade holds or is halted; polls keep the stack
temperatures with their refresh, and the failures of each VRM in a row; droop adds 4 to the current demand. -/
def Obligations.Dimmer : Prop :=
  ∀ (s : State),
    let d := s.dim
    let up (x n : Nat) : Nat := min 15 (x + n)
    (∀ (x : DimmerSample) (tm : Int), s.warden = true → (∃ a ∈ sampleValid x, a.2 = tm) → (∀ a ∈ sampleValid x, a.2 ≤ tm) →
      let throt : Int := s.getF .dimmer 0 0x100 6 0
      let hyst : Int := s.getF .dimmer 0 0x100 10 7
      let pl1 := s.getF .dimmer 0 0x104 10 0
      let pl2 := s.getF .dimmer 0 0x104 21 11
      let hot : Prop := (∃ i, i < 8 ∧ 95 < d.stackTemp.get (fun _ => 0) i) ∨ 4 * throt ≤ tm
      ∃ t, exec (.dimmerTick x) s = .next t
        ∧ (hot → t.dim.thermal = up d.thermal 1)
        ∧ (¬ hot → t.dim.thermal = if tm < 4 * (throt - hyst) then d.thermal - 1 else d.thermal)
        ∧ t.dim.power = (if pl2 < x.watts ∨ pl1 < x.wattsAvg then up d.power 2
            else if 100 * x.watts ≤ 95 * pl2 ∧ 100 * x.wattsAvg ≤ 95 * pl1 then d.power - 1 else d.power)
        ∧ t.dim.current = (if 2300 < x.amps ∨ 2000 < x.ampsAvg then up d.current 2
            else if 100 * x.amps ≤ 95 * 2300 ∧ 100 * x.ampsAvg ≤ 95 * 2000 then d.current - 1 else d.current)
        ∧ (4 * 103 ≤ tm → t.bitR .dimmer 0 0x118 3 = true) ∧ t.mem = s.mem)
    ∧ (d.target = none → exec .dvfsSwitch s = .next s)
    ∧ (∀ k, d.target = some k → k < 32 →
      ((∃ sh, s.enabled sh = true ∧ (s.sh sh).lan.halted = false ∧ (s.sh sh).rep.dvfs = false) → exec .dvfsSwitch s = .next s)
      ∧ (s.clocked = true → (∀ sh, s.enabled sh = true → (s.sh sh).lan.halted = true ∨ (s.sh sh).rep.dvfs = true) →
        ∃ t, exec .dvfsSwitch s = .next t ∧ t.getF .dimmer 0 0x108 4 0 = k ∧ t.dim = { d with target := none } ∧ s.signals t 0x004
          ∧ ∀ sh, t.sh sh = { s.sh sh with rep := { (s.sh sh).rep with dvfs := false } }))
    ∧ (∀ ts : List Nat, s.warden = true → ts.length ≤ 8 → ∃ t, exec (.hbmTempPoll ts) s = .next t ∧ t = { s with regs := t.regs, dim := t.dim }
        ∧ ∀ i, t.dim.stackTemp.get (fun _ => 0) i = ts.getD i (d.stackTemp.get (fun _ => 0) i)
          ∧ (i < ts.length → t.bitR .memctl i 0x100 2 = decide (85 < ts.getD i 0)))
    ∧ (∀ ok : List Bool, s.warden = true → ∃ t, exec (.vrmPoll ok) s = .next t ∧ t.mem = s.mem ∧ t.shades = s.shades
        ∧ ∀ i, i < s.config.vrm.length →
          ((∀ j, j < 3 → ok.getD (3 * i + j) true = true) → t.dim.vrmFails.get (fun _ => 0) i = 0)
          ∧ ((∀ j, j < 3 → ok.getD (3 * i + j) true = false) → t.dim.vrmFails.get (fun _ => 0) i = d.vrmFails.get (fun _ => 0) i + 3
            ∧ (d.vrmFails.get (fun _ => 0) i < 3 → t.bitR .dimmer 0 0x118 1 = true)))
    ∧ (∀ ok : List Bool, s.warden = true → ∃ t, exec (.pmbusAlert ok) s = .next t ∧ s.signals t 0x00A ∧ t.mem = s.mem ∧ t.shades = s.shades
        ∧ ∀ i, i < s.config.vrm.length → t.dim.vrmFails.get (fun _ => 0) i = if ok.getD i true = true then 0 else d.vrmFails.get (fun _ => 0) i + 1)
    ∧ (s.clocked = true → exec .droop s = .next { s with dim := { d with stretch := true } }
      ∧ exec .droopEnd s = .next { s with dim := { d with stretch := false } }
      ∧ (d.stretch = true → ∃ t, exec .droopPersist s = .next t ∧ t.dim = { d with current := up d.current 4 } ∧ s.signals t 0x00A
        ∧ t = { s with dim := t.dim, regs := t.regs, bcn := t.bcn, host := t.host }))

/-! ## Power, reset and boot (R384, R440, R484, R488, R493 to R501) -/

/-- R384, R440, R493, R495, R496, R498: each trigger of a device reset puts its cause and TIME in front of the reset log, and leaves the device as after reset:
every register at its reset value but the reset log, the BOOT page's counters and alerts and the device epoch, the shades off, SRAM zero;
HBM, the deep tier and the flash keep their bytes. A function-level reset and RESET(T) go on to boot at once. -/
def Obligations.DeviceResets : Prop :=
  ∀ (s : State),
    let isReset (t : State) (cause : Nat) : Prop :=
      t.getR .boot 0 0x120 = cause + 16 ∧ t.getR64 .boot 0 0x140 = s.tb.toNat
      ∧ (∀ n, n < 3 → t.getR .boot 0 (0x124 + 4 * n) = s.getR .boot 0 (0x120 + 4 * n)
        ∧ t.getR64 .boot 0 (0x148 + 8 * n) = s.getR64 .boot 0 (0x140 + 8 * n))
      ∧ (∀ k i o, i < 1024 → o < 4096 → k ≠ .boot → k ≠ .jorx → k ≠ .scrub → t.getR k i o = State.reset.getR k i o)
      ∧ t.shades = State.reset.shades ∧ t.tb = s.tb ∧ t.config = s.config
      ∧ ∀ a, t.rd a = if 2 ^ 50 ≤ a ∧ a < 2 ^ 52 + 64 * 2 ^ 21 then 0 else s.rd a
    (∀ p, s.power.noRef = false → s.pinLow p = false →
      ∃ t, exec (.resetAssert p) s = .next t ∧ isReset t (if p = .rst then 1 else 2) ∧ t.power.inReset = true ∧ t.pinLow p = true ∧ t.devEpoch = s.devEpoch)
    ∧ (s.power.noRef = false → s.power.rstLow = false →
      ∃ t, exec .brownout s = .next t ∧ isReset t 5 ∧ t.power.inReset = true ∧ t.power.railLow = true ∧ t.devEpoch = s.devEpoch
        ∧ t.bitR .boot 0 0x104 3 = true)
    ∧ (s.pathUp .pf .device = true → s.mayBoot = true →
      ∃ t, exec .pfFlr s = .next t ∧ isReset t 3 ∧ t.power.inReset = false ∧ t.power.booting = true ∧ t.pcie = s.pcie ∧ t.devEpoch = s.devEpoch)
    ∧ (∀ time ok, s.jorx.mgmt.release = some (.areset, time, ok) →
      (s.tb.toNat < time → exec .arrayResetTime s = .next s)
      ∧ (time ≤ s.tb.toNat → s.mayBoot = true →
        ∃ t, exec .arrayResetTime s = .next t ∧ isReset t 4 ∧ t.power.booting = true ∧ t.devEpoch = (s.devEpoch + 1) % 65536))
    ∧ (∃ t, exec .powerOn s = .next t ∧ t.regs = State.reset.regs ∧ t.shades = State.reset.shades ∧ t.power = State.reset.power ∧ t.tb = 0
      ∧ ∀ a, t.rd a = if a < 2 ^ 53 then 0 else s.rd a)

/-- R484, R488, R495, R497, R499, R501, R513: what the pins and clocks do beside a reset, and boot: both pins high, boot begins; it ends in RECOVERY without a
valid image and in FAILED without HBM or a PLL; otherwise prisms that pass their test and are not retired take logical numbers in
order, up to 48, and the rest become spares; READY comes with the end of the boot scrub. -/
def Obligations.Boots : Prop :=
  ∀ (s : State),
    (s.power.noRef = false → s.power.tripped = false → s.power.inReset = true →
      ∃ t, exec .resetRelease s = .next t ∧ t.power = { s.power with
          rstLow := false, perstLow := false, heldSaid := false, inReset := false, booting := true, railLow := false }
        ∧ t.jorx = { s.jorx with enumFrom := s.tb.toNat } ∧ t.regs = s.regs ∧ t.mem = s.mem)
    ∧ (∀ p, s.power.noRef = false → s.pinLow p = false → exec (.resetPinPulse p) s = .next (s.count .boot 0 2 1))
    ∧ (∀ p, s.power.noRef = false → s.pinLow p = true → s.power.heldSaid = false →
      ∃ t, exec (.rstheld p) s = .next t ∧ t.bitR .boot 0 0x104 0 = true ∧ t.power = { s.power with heldSaid := true }
        ∧ t = { s with regs := t.regs, i3c := t.i3c, power := t.power })
    ∧ (s.power.noRef = false → ∃ t, exec .thermtrip s = .next t ∧ t.power.tripped = true ∧ t.power.inReset = true ∧ t.clocked = false)
    ∧ (∃ t, exec .refclkStop s = .next t ∧ t.power.noRef = true ∧ t.power.inReset = true ∧ t.clocked = false)
    ∧ (∀ i : BitVec 4, s.power.booting = true → s.stage = 0 → i.toNat < 11 →
      ∃ t, exec (.pllFail i) s = .next t ∧ t.getR .boot 0 0x108 = 0x7FF - 2 ^ i.toNat ∧ t.stage = 8 ∧ t.getF .boot 0 0x100 8 5 = 3
        ∧ t.power = { s.power with booting := false } ∧ t = { s with regs := t.regs, power := t.power })
    ∧ (∀ b : BootIn, s.power.booting = true → s.power.railLow = false → s.stage = 0 →
      (s.areaPick false = none → ∃ t, exec (.boot b) s = .next t ∧ t.stage = 7 ∧ t.getF .boot 0 0x100 8 5 = 1 ∧ t.power.booting = false)
      ∧ ∀ i, s.areaPick false = some i → b.vrmSilent = false →
        (b.hbmFails = true → ∃ t, exec (.boot b) s = .next t ∧ t.stage = 8 ∧ t.getF .boot 0 0x100 8 5 = 2 ∧ t.power.booting = false)
        ∧ (b.hbmFails = false → ∃ t, exec (.boot b) s = .next t ∧ t.stage = 5 ∧ t.power.booting = true ∧ t.getF .boot 0 0x100 11 11 = i
          ∧ t.getR .boot 0 0x10C = (s.areaHdr false i).seq
          ∧ let usable := (List.range 52).filter fun p => decide (bootTest b.tests p = .pass) && !bitOf t.config.repair.toNat p
            ∀ n p, usable[n]? = some p → (n < 48 → t.l2p n = some p ∧ t.prismState p = 0 ∧ t.getF .health 0 (0x100 + 4 * p) 7 2 = n)
              ∧ (48 ≤ n → t.prismState p = 1)))
    ∧ (s.power.booting = true → s.stage = 5 → ∃ t, exec .bootReady s = .next t ∧ t.ready = true ∧ t.stage = 6 ∧ t.power = { s.power with booting := false }
        ∧ (∀ a, t.rd a = if a < 288 * 2 ^ 30 then 0 else s.rd a) ∧ (∀ u, u < 288 → t.dirty false u = false)
        ∧ ∀ n, n < 8 → t.bulkOwner n = if n < 6 then 0xFF else 0xFE)

/-! ## Shades (R418 to R425, R440 to R443) -/

/-- R420, R421, R440 to R443: enabling an OFF shade with its lead prism, and a reset, make it reset: its Lantern halts and its units stop. The scrub then
zeroes its prisms and returns its state and registers to reset, and it is enabled and idle; after a kill it is OFF and its prisms, units,
Beams and queues are released. A VF that goes takes its enabled shade with it. -/
def Obligations.ShadeLife : Prop :=
  ∀ (s : State) (sh : ShadeIx),
    let x := s.sh sh
    let stopped (t : State) (life : Nat) : Prop := (t.sh sh).life = life ∧ (t.sh sh).lan.halted = true ∧ (t.sh sh).queue = [] ∧ (t.sh sh).running = []
      ∧ s.otherShades t sh ∧ t.mem = s.mem
    (∀ path, s.accepts path .shcfg sh.val 0x100 → x.life = 0 → s.enabled sh = false →
      (s.leadL sh ∈ s.logicalOf sh → s.bitR .shcfg sh.val 0x100 3 = true ∨ bitOf s.host.vfs sh.val = true →
        ∃ t, exec (.shadeEnable path sh) s = .next t ∧ stopped t 2 ∧ t.enabled sh = true)
      ∧ (s.leadL sh ∉ s.logicalOf sh → ∃ t, exec (.shadeEnable path sh) s = .next t ∧ t.sh sh = x ∧ t.enabled sh = false
        ∧ t.bitR .shcfg sh.val 0x124 0 = true ∧ t.bitR .shcfg sh.val 0x14 0 = true))
    ∧ (∀ path, s.accepts path .shcfg sh.val 0x100 → x.life < 2 → ∃ t, exec (.shadeReset path sh) s = .next t ∧ stopped t 2 ∧ t.bitR .shcfg sh.val 0x100 1 = true)
    ∧ (∀ path, s.accepts path .shcfg sh.val 0x100 → x.life = 1 → ∃ t, exec (.shadeKill path sh) s = .next t ∧ stopped t 3)
    ∧ (∀ path, s.accepts path .shcfg sh.val 0x100 → x.life = 0 → ∃ t, exec (.shadeKill path sh) s = .next t ∧ t = { s with regs := t.regs, units := t.units })
    ∧ (s.pathUp (.vf sh) .device = true → x.life < 2 → ∃ t, exec (.vfFlr sh) s = .next t ∧ stopped t 2 ∧ t.pwin sh = 0)
    ∧ (∀ n : Fin 17, s.pathUp .pf .device = true → (∀ z, bitOf s.host.vfs z.val = true → n.val ≤ z.val → s.enabled z = true → s.bitR .shcfg z.val 0x100 3 = true) →
      ∃ t, exec (.vfGone n) s = .next t ∧ t.host.vfs = 2 ^ n.val - 1 ∧ t = { s with host := t.host })
    ∧ (∀ n : Fin 17, s.pathUp .pf .device = true → bitOf s.host.vfs sh.val = true → n.val ≤ sh.val → s.enabled sh = true → s.bitR .shcfg sh.val 0x100 3 = false →
      x.life = 1 → ∃ t, exec (.vfGone n) s = .next t ∧ (t.sh sh).life = 3 ∧ t.bitR .shcfg sh.val 0x124 3 = true)
    ∧ (x.life < 2 → exec (.shadeResetScrub sh) s = .next s)
    ∧ (x.life = 2 → s.subHolds sh = false → ∃ t, exec (.shadeResetScrub sh) s = .next t
      ∧ t.sh sh = { ShadeSt.reset with life := if s.enabled sh then 1 else 0 } ∧ s.otherShades t sh ∧ t.bitR .shcfg sh.val 0x100 1 = false
      ∧ t.getF .shcfg sh.val 0x104 31 16 = (s.getF .shcfg sh.val 0x104 31 16 + 1) % 65536 ∧ t.owner = s.owner
      ∧ (∀ k o, o < 4096 → k = .tstate ∨ k = .pattern ∨ k = .replay ∨ k = .jshade → t.getR k sh.val o = State.reset.getR k sh.val o)
      ∧ (∀ q, q < 256 → s.ownerQ q = sh.val → (t.agQ q).packets = [] ∧ t.getR .agq q 0x110 = 0)
      ∧ s.signals t 0x007
      ∧ (∀ a, a < 2 ^ 50 ∨ 2 ^ 53 ≤ a → t.rd a = s.rd a)
      ∧ ∀ p a, p ∈ s.prismsOf sh → a < 2 ^ 23 → t.rd (2 ^ 51 + p * 2 ^ 23 + a) = 0 ∧ (a < 2 ^ 21 → t.rd (2 ^ 52 + p * 2 ^ 21 + a) = 0))
    ∧ (x.life = 3 → s.subHolds sh = false → ∃ t, exec (.shadeResetScrub sh) s = .next t ∧ (t.sh sh).life = 0 ∧ t.enabled sh = false
      ∧ (∀ p, p < 52 → s.ownerP p = sh.val → t.ownerP p = 0xFF) ∧ (∀ q, q < 256 → s.ownerQ q = sh.val → t.ownerQ q = 0xFF)
      ∧ (∀ deep u, u < unitCount deep → s.unitOwner deep u = sh.val → t.unitOwner deep u = 0xFF ∧ t.dirty deep u = true)
      ∧ (∀ b, b < 8 → s.bulkOwner b = sh.val → t.bulkOwner b = 0xFF) ∧ s.otherShades t sh)

/-- R419, R422, R423, R456, R339: a released prism is unassigned and scrubbed, an unassigned one takes the owner that is written; a clean unassigned unit goes
to a shade within its quota, a released one becomes DIRTY, the scrubber takes the lowest DIRTY unit and leaves it zero and clean; a
retained deep unit is given up; binding a pattern entry gives its mask object its first epoch. -/
def Obligations.Ownership : Prop :=
  ∀ (s : State) (path : Path),
    (∀ (p : PPrism) (sh : ShadeIx) n, path = .pf → s.accepts .pf .lant p.val 0xC → s.getF .health 0 (0x100 + 4 * p.val) 7 2 = n → n < 48 → s.l2p n = some p.val →
      s.enabled sh = false →
      (s.ownerP p.val = 0xFF → ∃ t, exec (.blkOwnerWrite .pf (BitVec.ofNat 14 (0x1000 + 0x40 * p.val + 16)) (BitVec.ofNat 8 sh.val)) s = .next t
        ∧ t.ownerP p.val = sh.val ∧ t = { s with regs := t.regs, units := t.units, owner := t.owner })
      ∧ (s.ownerP p.val = sh.val → ∃ t, exec (.blkOwnerWrite .pf (BitVec.ofNat 14 (0x1000 + 0x40 * p.val + 16)) 0xFF) s = .next t
        ∧ t.ownerP p.val = 0xFF ∧ t.shades = s.shades ∧ ∀ a, a < 2 ^ 23 → t.rd (2 ^ 51 + p.val * 2 ^ 23 + a) = 0))
    ∧ (∀ (deep : Bool) (n : BitVec 8) (w : W32) u, s.accepts path .mem 0 ((if deep then 0x600 else 0x400) + 4 * n.toNat) →
      n.toNat < (if deep then 240 else 72) → u / 4 = n.toNat →
      (∀ v, v / 4 = n.toNat → v ≠ u → bitsOf w.toNat (8 * (v % 4) + 7) (8 * (v % 4)) = s.unitOwner deep v) →
      let o := bitsOf w.toNat (8 * (u % 4) + 7) (8 * (u % 4))
      let done (t : State) : Prop := t.unitOwner deep u = o ∧ (∀ v, v < unitCount deep → v ≠ u → t.unitOwner deep v = s.unitOwner deep v)
        ∧ t = { s with regs := t.regs, units := t.units }
      (∀ sh : ShadeIx, o = sh.val → s.unitOwner deep u = 0xFF → s.dirty deep u = false → (s.unitsOf deep sh.val).length < s.quota sh deep →
        ∃ t, exec (.memOwnerWrite path deep n w) s = .next t ∧ done t ∧ (deep = true → t.retained u = false))
      ∧ (∀ sh : ShadeIx, o = 0xFF → s.unitOwner deep u = sh.val → s.quiet sh = true →
        ∃ t, exec (.memOwnerWrite path deep n w) s = .next t ∧ done t ∧ t.dirty deep u = true))
    ∧ (∀ (n : BitVec 5) (w : W32), s.accepts path .scrub 0 (0x200 + 4 * n.toNat) → n.toNat < 30 →
      ∃ t, exec (.retainClear path n w) s = .next t ∧ t = { s with regs := t.regs, units := t.units }
        ∧ ∀ u, u < 960 → t.retained u = (s.retained u && !(u / 32 == n.toNat && w.getLsbD (u % 32)))
          ∧ (s.retained u = true → t.retained u = false → t.dirty true u = true))
    ∧ (∀ b : Fin 8, s.clocked = true → s.bulkOwner b.val = 0xFE → s.bulkBusy b.val = false →
      (∀ u, u < 288 → s.dirty false u = true → (∀ v, v < u → s.dirty false v = false) → (∀ x ∈ s.scrubs, x.2 ≠ (false, u)) →
        exec (.unitScrubStart b) s = .next { s with scrubs := s.scrubs ++ [(b.val, false, u)] })
      ∧ ((∀ u, u < 288 → s.dirty false u = false) → (∀ u, u < 960 → s.dirty true u = false) → exec (.unitScrubStart b) s = .next s))
    ∧ (∀ (b : Fin 8) deep u, s.clocked = true → s.scrubs = [(b.val, deep, u)] → u < unitCount deep →
      ∃ t, exec (.unitScrubComplete b) s = .next t ∧ t.scrubs = [] ∧ t.dirty deep u = false
        ∧ (∀ a, t.rd a = if unitBase deep u ≤ a ∧ a < unitBase deep (u + 1) then 0 else s.rd a) ∧ t.shades = s.shades
        ∧ ((∀ v d, v < unitCount d → (d, v) ≠ (deep, u) → s.dirty d v = false) → s.signals t 0x006))
    ∧ ∀ (sh : ShadeIx) (n : BitVec 4) (w : W32), s.accepts path .pattern sh.val (0x100 + 0x20 * n.toNat) → (s.sh sh).haltedIdle = true →
      bitOf w.toNat 0 = true → bitOf w.toNat 12 = false → w.toNat < 2 ^ 25 → s.patOther sh n.toNat (bitsOf w.toNat 6 1) = false → bitOf (s.pat sh n.toNat 0) 0 = false →
      ∃ t, exec (.patternBind path sh n w) s = .next t ∧ t.getR .pattern sh.val (0x100 + 0x20 * n.toNat) = w.toNat
        ∧ (∀ m, (t.sh sh).masks.get maskDefault m = if m = bitsOf w.toNat 6 1 then { MaskSt.reset with epoch := 1, built := true }
            else (s.sh sh).masks.get maskDefault m)
        ∧ t.sh sh = { s.sh sh with masks := (t.sh sh).masks, genTab := (t.sh sh).genTab } ∧ s.otherShades t sh
        ∧ t = { s with regs := t.regs, units := t.units, shades := t.shades }

/-! ## Beacon (R431 to R437, R505) -/

/-- R431 to R437, R505: activating a source that is pending at its target makes it active with its priority, completing an active one ends it, and either for
another is counted as spurious; a held rise is sent when its moderation time is over; PRIO and TARGET of a source, and THRESH of a
target, take what is written, a VF's alias leaving TARGET; unmasking an MSI-X entry sends its held message; link events reach the host source. -/
def Obligations.Beacon : Prop :=
  ∀ (s : State),
    let quiet (t : State) : Prop := t = { s with regs := t.regs, units := t.units, bcn := t.bcn, host := t.host }
    (∀ path (t : Fin 19) (v : W32), s.accepts path .bcnTgt t.val 0x108 →
      let n := v.toNat % 1024
      (n ∈ s.bcn.pend → s.bcnTarget n = t.val → ∃ u, exec (.bcnActivate path t v) s = .next u ∧ quiet u ∧ u.bcn.pend = s.bcn.pend.filter (fun m => m != n)
        ∧ (n, s.bcnPrio n) ∈ u.bcn.act ∧ ∀ a, a.1 ≠ n → (a ∈ u.bcn.act ↔ a ∈ s.bcn.act))
      ∧ (n ∉ s.bcn.pend ∨ s.bcnTarget n ≠ t.val → ∃ u, exec (.bcnActivate path t v) s = .next u ∧ quiet u ∧ u.bcn = s.bcn))
    ∧ (∀ path (t : Fin 19) (v : W32), s.accepts path .bcnTgt t.val 0x10C →
      let n := v.toNat % 1024
      ((∃ a ∈ s.bcn.act, a.1 = n) → s.bcnTarget n = t.val → ∃ u, exec (.bcnComplete path t v) s = .next u ∧ quiet u
        ∧ u.bcn.act = s.bcn.act.filter (fun a => a.1 != n) ∧ u.bcn.pend = s.bcn.pend)
      ∧ ((∀ a ∈ s.bcn.act, a.1 ≠ n) ∨ s.bcnTarget n ≠ t.val → ∃ u, exec (.bcnComplete path t v) s = .next u ∧ quiet u ∧ u.bcn = s.bcn
        ∧ u.getF .bcnTgt t.val 0x118 15 0 = min 0xFFFF (s.getF .bcnTgt t.val 0x118 15 0 + 1)))
    ∧ (∀ t : Fin 19, let m := s.bcn.held.get (fun _ => none) t.val
      (m = none → exec (.moderationTimer t) s = .next s)
      ∧ ∀ h, m = some h →
        (s.tb.toNat < h.since + s.getF .bcnTgt t.val 0x110 15 0 * 100 → exec (.moderationTimer t) s = .next s)
        ∧ ∀ f, h.since + s.getF .bcnTgt t.val 0x110 15 0 * 100 ≤ s.tb.toNat → s.bcnFunction t.val = some f →
          ∃ u, exec (.moderationTimer t) s = .next u ∧ quiet u ∧ u.bcn.held.get (fun _ => none) t.val = none ∧ u.bitR .bcnTgt t.val 0x114 0 = false
            ∧ (s.host.msixMask.get maskReset (64 * f + s.bcnD t.val) = false → u.host.msixSent.get (fun _ => 0) (64 * f + s.bcnD t.val)
              = s.host.msixSent.get (fun _ => 0) (64 * f + s.bcnD t.val) + 1)
            ∧ (s.host.msixMask.get maskReset (64 * f + s.bcnD t.val) = true → u.host.msixPba.get (fun _ => false) (64 * f + s.bcnD t.val) = true))
    ∧ (∀ path (n : BitVec 10) (v : W32), (∀ w, path ≠ .vf w) → s.accepts path .beacon 0 (0x100 + 4 * n.toNat) → bcnValid n.toNat = true → v.toNat < 2 ^ 15 →
      (∀ a ∈ s.bcn.act, a.1 ≠ n.toNat) → bitsOf v.toNat 8 4 < 19 →
      ∃ u, exec (.bcnSrcWrite path n v) s = .next u ∧ quiet u ∧ u.bcnPrio n.toNat = bitsOf v.toNat 3 0 ∧ u.bcnTarget n.toNat = bitsOf v.toNat 8 4
        ∧ u.bcn.act = s.bcn.act ∧ u.bcn.pend = if bitsOf v.toNat 3 0 = 0 then s.bcn.pend.filter (fun m => m != n.toNat) else s.bcn.pend)
    ∧ (∀ w (n : BitVec 10) (v : W32), 0x020 + 16 * w.val ≤ n.toNat → n.toNat < 0x030 + 16 * w.val → s.accepts (.vf w) .bcnTgt (3 + w.val) (0x300 + 4 * (n.toNat % 16)) →
      bcnValid n.toNat = true → ∃ u, exec (.bcnSrcWrite (.vf w) n v) s = .next u ∧ quiet u ∧ u.bcnPrio n.toNat = bitsOf v.toNat 3 0
        ∧ u.bcnTarget n.toNat = s.bcnTarget n.toNat)
    ∧ (∀ path (t : Fin 19) (v : W32), s.accepts path .bcnTgt t.val 0x100 → ∃ u, exec (.bcnThreshWrite path t v) s = .next u ∧ quiet u
        ∧ u.getR .bcnTgt t.val 0x100 = v.toNat % 16 ∧ u.bcn.pend = s.bcn.pend ∧ u.bcn.act = s.bcn.act)
    ∧ (∀ (f : Fin 17) (e : BitVec 6), s.pathUp .pf .device = true → f.val = 0 ∨ bitOf s.host.vfs (f.val - 1) = true →
      let k := 64 * f.val + e.toNat
      ∃ u, exec (.msixUnmask f e) s = .next u ∧ u.host.msixMask.get maskReset k = false ∧ u.host.msixPba.get (fun _ => false) k = false
        ∧ u.host.msixSent.get (fun _ => 0) k = s.host.msixSent.get (fun _ => 0) k + (if s.host.msixPba.get (fun _ => false) k = true then 1 else 0)
        ∧ u = { s with host := u.host })
    ∧ (s.clocked = true →
      (s.pcie.l0 = true → ∃ u, exec (.hostLinkEvent .leftL0) s = .next u ∧ u.pcie = { s.pcie with l0 := false } ∧ s.signals u 0x008
        ∧ u = { s with regs := u.regs, bcn := u.bcn, host := u.host, pcie := u.pcie })
      ∧ (∀ rate width, ∃ u, exec (.hostLinkEvent (.retrained rate width)) s = .next u ∧ u.pcie = ⟨true, rate, width⟩
        ∧ u.bitR .boot 0 0x100 9 = (decide (rate < 16) || decide (width < 4)) ∧ (rate ≠ s.pcie.rate ∨ width ≠ s.pcie.width → s.signals u 0x008)
        ∧ u = { s with regs := u.regs, bcn := u.bcn, host := u.host, pcie := u.pcie })
      ∧ ∃ u, exec (.hostLinkEvent .aerUncorrectable) s = .next u ∧ s.signals u 0x008 ∧ u = { s with regs := u.regs, bcn := u.bcn, host := u.host })

/-! ## Afterglow and counters (R446 to R459, R523) -/

/-- R446 to R459, R523: the oldest staged record joins its queue where its cells are found, and is lost where MAX is 0; a pop with the oldest packet's
sequence number frees it, and another is an error; CNT_CTRL holds, releases, snapshots and clears the device's counters; the collector
takes the oldest request; a select starts its counter from 0. -/
def Obligations.AfterglowCounters : Prop :=
  ∀ (s : State),
    (∀ r rest, s.clocked = true → s.agq.staged = r :: rest →
      let x := s.agQ r.queue
      let n := cellsOf r.len
      (s.agMax r.queue ≠ 0 → x.held + n ≤ s.agMin r.queue → n ≤ s.agFree → r.queue < 256 →
        ∃ t, exec .recordWrite s = .next t ∧ t.agq.staged = rest ∧ s.signals t (0x120 + r.queue)
          ∧ (∀ q, t.agQ q = if q = r.queue then ⟨x.packets ++ [⟨x.nextSeq, n, lengthWord r x.nextSeq :: r.words, true⟩], x.nextSeq + 1⟩ else s.agQ q)
          ∧ t = { s with regs := t.regs, units := t.units, bcn := t.bcn, host := t.host, agq := t.agq })
      ∧ (s.agMax r.queue = 0 → r.queue < 256 → ∃ t, exec .recordWrite s = .next t ∧ t.agq = { s.agq with staged := rest }
        ∧ t.getR .agq r.queue 0x110 = min (2 ^ 32 - 1) (s.getR .agq r.queue 0x110 + 1) ∧ t.bitR .agq r.queue 0x114 1 = true
        ∧ t = { s with regs := t.regs, units := t.units, agq := t.agq }))
    ∧ (s.agq.staged = [] → exec .recordWrite s = .next s)
    ∧ (∀ path (q : BitVec 8) (pseq : W32) p rest, s.accepts path .agq q.toNat 0x10C → (s.agQ q.toNat).packets = p :: rest →
      (p.pseq = pseq → ∃ t, exec (.agqPop path q pseq) s = .next t ∧ t.agQ q.toNat = ⟨rest, (s.agQ q.toNat).nextSeq⟩ ∧ (∀ y, y ≠ q.toNat → t.agQ y = s.agQ y)
        ∧ t = { s with regs := t.regs, units := t.units, agq := t.agq })
      ∧ (p.pseq ≠ pseq → ∃ t, exec (.agqPop path q pseq) s = .next t ∧ t.bitR .agq q.toNat 0x114 0 = true ∧ t = { s with regs := t.regs, units := t.units }))
    ∧ (∀ path, s.accepts path .agqm 0 0x104 →
      (∀ c v, (c, v) ∈ [(Instr.cntCtrlFreeze path, true), (.cntCtrlThaw path, false)] →
        ∃ t, exec c s = .next t ∧ t.bitR .agqm 0 0x104 4 = v ∧ t = { s with regs := t.regs, units := t.units, agq := { s.agq with devThaw := FMap.empty } })
      ∧ (s.agq.snaps.length < 4 → ∃ t, exec (.cntCtrlSnapshot path) s = .next t ∧ t.bitR .agqm 0 0x104 4 = true
        ∧ t.agq.snaps = s.agq.snaps ++ [⟨0, none, false, s.bitR .agqm 0 0x104 4⟩])
      ∧ (4 ≤ s.agq.snaps.length → ∃ t, exec (.cntCtrlSnapshot path) s = .next t ∧ t.bitR .agqm 0 0x10C 0 = true ∧ t.agq = s.agq)
      ∧ (s.agq.snaps = [] → ∃ t, exec (.cntCtrlClear path) s = .next t ∧ t = { s with regs := t.regs, units := t.units }
        ∧ (∀ k i j, i < 1024 → j < 8 → t.getR64 k i (0x80 + 8 * j) = 0) ∧ s.onlyRegs t fun _ _ o => eventReg o))
    ∧ (∀ r rest, s.clocked = true → s.agq.snaps = r :: rest →
      ∃ t, exec .snapshotCollect s = .next t ∧ t.agq.snaps = rest ∧ t.agq.snapCount = s.agq.snapCount + 1 ∧ t.mem = s.mem ∧ t.shades = s.shades
        ∧ (r.shade = none → r.wasHeld = false → t.bitR .agqm 0 0x104 4 = false))
    ∧ ∀ path (page : PageNo) pg, s.pathPage path page.toNat = some pg → path ≠ .i3c → pg.inst < 1024 →
      (∀ (i : Fin 8) (v : W32), s.accepts path pg.kind pg.inst (0x40 + 4 * i.val) → v.toNat < 2 ^ 19 → bitsOf v.toNat 15 8 = 0 → bitOf v.toNat 17 = false →
        ∃ t, exec (.counterSelectWrite path page i v) s = .next t ∧ t.getR pg.kind pg.inst (0x40 + 4 * i.val) = v.toNat
          ∧ t.getR64 pg.kind pg.inst (0x80 + 8 * i.val) = 0 ∧ t = { s with regs := t.regs, units := t.units })
      ∧ (s.accepts path pg.kind pg.inst 0x10 →
        (∃ t, exec (.rsvdClr path page) s = .next t ∧ t.bitR pg.kind pg.inst 0x14 0 = false ∧ t = { s with regs := t.regs, units := t.units }
          ∧ s.onlyRegs t fun k n o => (k = pg.kind ∧ n = pg.inst ∧ o = 0x14) ∨ (k = .device ∧ eventReg o))
        ∧ ∃ t, exec (.cntClr path page) s = .next t ∧ (∀ j, j < 8 → t.getR64 pg.kind pg.inst (0x80 + 8 * j) = 0)
          ∧ t = { s with regs := t.regs, units := t.units }
          ∧ s.onlyRegs t fun k n o => (k = pg.kind ∧ n = pg.inst ∧ eventReg o) ∨ (k = .device ∧ eventReg o))

/-! ## Register accesses (R15, R506, R514 to R526) -/

/-- R15, R506, R514 to R526: a write of an error status, mask or injection register of a page clears the bits written as 1, takes the value, or
arms the injections written as 1; a reserved bit written as 1 shows in RSVD_WR; a read gives the register's value and clears its read-to-clear fields; TB_LO latches
TB_HI; I3C reads the same registers, and an unknown page is refused. An access of a wrong size, or to a page that is not there, is counted and does nothing else. -/
def Obligations.RegisterAccess : Prop :=
  ∀ (s : State) (path : Path) (pg : PageId),
    let addr (off : Nat) : RegAddr := ⟨BitVec.ofNat 26 off, .b4⟩
    (∀ (page : PageNo) (v : W32), s.pathPage path page.toNat = some pg → path ≠ .i3c → pg.inst < 1024 →
      (s.accepts path pg.kind pg.inst 0x18 → bitsOf v.toNat 31 5 = 0 →
        ∃ t, exec (.registerWrite path (addr (4096 * page.toNat + 0x18)) (v.setWidth 64)) s = .next t
          ∧ t.getR pg.kind pg.inst 0x18 = s.getR pg.kind pg.inst 0x18 - (s.getR pg.kind pg.inst 0x18 &&& v.toNat)
          ∧ s.onlyRegs t fun k n o => (k = pg.kind ∧ n = pg.inst ∧ o = 0x18) ∨ (k = .device ∧ eventReg o))
      ∧ (s.accepts path pg.kind pg.inst 0x1C → ∃ t, exec (.registerWrite path (addr (4096 * page.toNat + 0x1C)) (v.setWidth 64)) s = .next t
          ∧ bitsOf (t.getR pg.kind pg.inst 0x1C) 3 0 = bitsOf v.toNat 3 0 ∧ (16 ≤ v.toNat → t.bitR pg.kind pg.inst 0x14 0 = true)
          ∧ t = { s with regs := t.regs, units := t.units })
      ∧ (s.accepts path pg.kind pg.inst 0x20 → ∃ t, exec (.errInject path page v) s = .next t
          ∧ (∀ f ∈ pg.kind.inject, f.acc = .rw → bitsOf (t.getR pg.kind pg.inst 0x20) f.hi f.lo = bitsOf v.toNat f.hi f.lo)
          ∧ t = { s with regs := t.regs, units := t.units }))
    ∧ (∀ a : RegAddr, ∀ v, path ≠ .i3c → s.pathPage path (a.off.toNat / 4096) = some pg → s.pathUp path pg.kind = true → accWide a = none →
      exec (.registerWrite path a v) s = .next ((s.satAdd .device 0 0x11C 31 0 1).count .device 0 3 1))
    ∧ (∀ a : RegAddr, ∀ v, path ≠ .i3c → s.pathPage path (a.off.toNat / 4096) = none → s.pathUp path .device = true →
      exec (.registerWrite path a v) s = .next ((s.satAdd .device 0 0x11C 31 0 1).count .device 0 3 1))
    ∧ (∀ (a : RegAddr) fs, path ≠ .i3c → s.pathPage path (a.off.toNat / 4096) = some pg → s.pathUp path pg.kind = true → a.size = .b4 → a.off.toNat % 4 = 0 →
      pg.kind ≠ .device → s.answers path pg.kind = true → s.pageResets pg = false → fieldsAt pg.kind (a.off.toNat % 4096) = some fs →
      let w := s.count .device 0 1 1
      let off := a.off.toNat % 4096
      let m := ((fs.filter fun f => f.acc == .rc).map Field.mask).foldl (· + ·) 0
      ∃ t, exec (.readToClear path a) s = .next t ∧ t.host = { s.host with readData := BitVec.ofNat 64 (w.regValue path pg off), readUR := false }
        ∧ t.getR pg.kind ((w.view pg off).home pg.inst) off
          = w.getR pg.kind ((w.view pg off).home pg.inst) off - (w.getR pg.kind ((w.view pg off).home pg.inst) off &&& m)
        ∧ t = { w with regs := t.regs, host := t.host, fresh := t.fresh })
    ∧ (path ≠ .i3c → s.pathUp path .device = true → s.answers path .device = true → ∃ t, exec (.tbLoRead path) s = .next t ∧ t.host.readData.toNat = s.tb.toNat % 2 ^ 32
        ∧ t.host.tbLatch.get noLatch (latchKey path) = some (BitVec.ofNat 32 (s.tb.toNat / 2 ^ 32))
        ∧ t = { s with regs := t.regs, units := t.units, host := t.host })
    ∧ ∀ (b : Byte) (off : BitVec 16), s.pathUp .i3c .boot = true →
      (5 ≤ b.toNat → ∀ d, exec (.i3cTransfer b off d) s = .next ((s.count .boot 0 3 1).count .boot 0 4 1))
      ∧ (i3cPage b.toNat = some pg → s.pathUp .i3c pg.kind = true → off.toNat % 4 = 0 → off.toNat < 4096 →
        ∃ t, exec (.i3cTransfer b off none) s = .next t ∧ t.host.readUR = false
          ∧ t.host.readData = BitVec.ofNat 64 (((s.count .boot 0 3 1).count .device 0 1 1).regValue .i3c pg off.toNat))

/-! ## The mailbox, the test access port and I3C addressing (R506, R508, R529 to R531) -/

/-- R506, R508, R529 to R531: a mailbox command with GO is captured with its arguments and makes the mailbox busy, and is ignored while it is; the answer has
the code and the bytes of its operation. A TAP instruction takes effect, the ones that drive pins only while RST_N is low. The dynamic
address of I3C is assigned, changed and given up. -/
def Obligations.Sideband : Prop :=
  ∀ (s : State),
    (∀ path c op, (c, op) ∈ [(Instr.nop path, 0), (.version path, 1), (.readRecord path, 2), (.readFlash path, 3), (.selftest path, 4)] →
      s.accepts path .mailbox 0 0x100 →
      (s.bitR .mailbox 0 0x104 0 = false → ∃ t, exec c s = .next t ∧ t.bitR .mailbox 0 0x104 0 = true ∧ t.getR .mailbox 0 0x100 = op
        ∧ t.mbx = some ⟨op, (List.range 8).map fun n => BitVec.ofNat 32 (s.getR .mailbox 0 (0x110 + 4 * n))⟩
        ∧ t = { s with regs := t.regs, units := t.units, mbx := t.mbx })
      ∧ (s.bitR .mailbox 0 0x104 0 = true → ∃ t, exec c s = .next t ∧ t.bitR .mailbox 0 0x14 0 = true ∧ t.mbx = s.mbx
        ∧ t = { s with regs := t.regs, units := t.units }))
    ∧ (s.mbx = none → exec .mbxDone s = .next s)
    ∧ (∀ m rsp bytes, s.mbx = some m → s.warden = true → s.stage ≠ 7 → bytes.length ≤ 256 →
      let arg (n : Nat) : Nat := (m.args.getD n 0).toNat
      ((m.op = 0 ∧ rsp = 0 ∧ bytes = [])
        ∨ (m.op = 2 ∧ rsp = 0 ∧ s.config.bodyOf (arg 0 % 65536) = some bytes) ∨ (m.op = 2 ∧ rsp = 2 ∧ bytes = [] ∧ s.config.bodyOf (arg 0 % 65536) = none)
        ∨ (m.op = 3 ∧ rsp = 0 ∧ 0 < arg 1 ∧ arg 1 ≤ 256 ∧ 0x1000000 ≤ arg 0 ∧ arg 0 + arg 1 ≤ 0x1080000
          ∧ bytes = (List.range (arg 1)).map fun i => s.rd (2 ^ 53 + arg 0 + i))
        ∨ (m.op = 4 ∧ rsp = 0 ∧ arg 0 < 52
          ∧ bytes = leBytes 8 (s.health.tested.get (fun _ => 0) (arg 0)) ++ leBytes 4 (s.health.result.get (fun _ => 0) (arg 0)))
        ∨ (5 ≤ m.op ∧ rsp = 1 ∧ bytes = [])) →
      ∃ t, exec .mbxDone s = .next t ∧ t.mbx = none ∧ t.getR .mailbox 0 0x104 = 2 + rsp * 2 ^ 8 + bytes.length * 2 ^ 16 ∧ s.signals t 0x009
        ∧ (∀ i, i < 64 → t.getR .mailbox 0 (0x200 + 4 * i) = leNat (((bytes ++ List.replicate (256 - bytes.length) 0).drop (4 * i)).take 4))
        ∧ t = { s with regs := t.regs, units := t.units, bcn := t.bcn, host := t.host, mbx := none })
    ∧ exec .bypass s = .next { s with tap := { s.tap with instr := .bypass } }
    ∧ (∀ c i, (c, i) ∈ [(Instr.extest, TapInstr.extest), (.clamp, .clamp), (.highz, .highz)] →
      exec c s = .next { s with tap := { s.tap with instr := if s.power.rstLow then i else .bypass } })
    ∧ (∃ t, exec .idcode s = .next t ∧ t = { s with tap := t.tap } ∧ t.tap.instr = .idcode ∧ t.tap.out.toNat % 2 ^ 28 = 0x96000B7)
    ∧ (∀ pins cells, exec (.samplePreload pins cells) s = .next { s with tap := { s.tap with instr := .samplePreload, sampled := pins, cells := cells } })
    ∧ (s.power.tripped = false → s.power.noRef = false →
      let put (a : Option (BitVec 7)) : State := { s with i3c := { s.i3c with addr := a } }
      (∀ a, s.i3c.addr = none → exec (.i3cCcc (.entdaa a)) s = .next (put (some a)))
      ∧ (∀ a, s.i3c.addr = none → exec (.i3cCcc (.setdasa s.config.i3cAddr a)) s = .next (put (some a)))
      ∧ (∀ a, s.i3c.addr ≠ none → exec (.i3cCcc (.setnewda a)) s = .next (put (some a))) ∧ exec (.i3cCcc .rstdaa) s = .next (put none)
      ∧ exec (.i3cCcc .other) s = .next s)

/-! ## Numbers (chapter 01) -/

/-- R22: an E8M0 code c stands for 2^(c − 127), and 0xFF is NaN.
R36: round to nearest even takes an integer nearest to the fraction, the even one on a tie. R37: stochastic rounding goes up when the
floor of 2^16 times the fraction's part above its lower neighbour, plus R, reaches 2^16, and an integer stays. R319: an empty unit's CRC is 0. -/
def Obligations.NumberRules : Prop :=
  (∀ c : Nat, c < 255 → e8m0 c = .fin false 1 ((c : Int) - 127)) ∧ e8m0 255 = .nan
  ∧ (∀ num den : Nat, 0 < den →
    let n := roundRat .rne num den
    2 * (n * den) ≤ 2 * num + den ∧ 2 * num ≤ 2 * (n * den) + den ∧ (2 * (n * den) = 2 * num + den ∨ 2 * num = 2 * (n * den) + den → n % 2 = 0))
  ∧ (∀ num den r : Nat, 0 < den → r < 65536 →
    (num % den = 0 → roundRat (.sr r) num den * den = num)
    ∧ (num % den ≠ 0 → roundRat (.sr r) num den = num / den + (if 65536 ≤ (num % den) * 65536 / den + r then 1 else 0)))
  ∧ crc32c [] = 0

/-! ## The whole machine -/

/-- The step takes the command at the front of the queue and runs it with the queue's rest; on an empty queue time goes on by a nanosecond
(the model's choice, log entry 1). -/
def Obligations.StepRunsFront : Prop :=
  ∀ (s : State), (∀ c rest, s.pending = c :: rest → step s = exec c { s with pending := rest }) ∧ (s.pending = [] → step s = .next s.elapse)

/-- After reset no command waits, both reset pins are low, memory is zero, every shade is off with its Lantern halted and its queues empty, every
prism is unassigned, and what holds of every state of a run holds (R249, R418, R419, R440, R495; memory and the pins: the model's choice, log
entries 2 and 3). -/
def Obligations.ResetHolds : Prop :=
  State.reset.Inv ∧ State.reset.pending = [] ∧ (∀ p, State.reset.pinLow p = true) ∧ (∀ a, State.reset.rd a = 0)
  ∧ (∀ sh, State.reset.enabled sh = false ∧ (State.reset.sh sh).life = 0 ∧ (State.reset.sh sh).lan.halted = true ∧ (State.reset.sh sh).queue = []
    ∧ (State.reset.sh sh).running = [])
  ∧ ∀ p, p < 52 → State.reset.ownerP p = 0xFF

/-- Every step of every state answers a next state, takes exactly the command at the front from the queue, and keeps the invariant: memory in its
canonical form, and the modes of power and reset (R493, R495, R499): boot goes on only outside reset, a rail is low only in reset, and
outside reset both pins are high and every clock has its reference. -/
def Obligations.StepKeeps : Prop :=
  ∀ (s : State), ∃ t, step s = .next t ∧ t.pending = s.pending.tail ∧ (s.Inv → t.Inv)
end

