-- ==== Sys2Proof/Laws/FMap.lean ====
section
/-! SUPPORT. The laws of sparse maps: a read after a write, a write elsewhere, and that every operation keeps the canonical form. -/

namespace Sys2Proof.Machine

variable {V : Type}

theorem cellsGet_ins_same (d : Nat → V) (m : List (Nat × V)) (k : Nat) (v : V) :
    cellsGet d (cellsIns m k v) k = v := by
  induction m with
  | nil => simp [cellsIns, cellsGet]
  | cons c m ih =>
    obtain ⟨a, w⟩ := c
    simp only [cellsIns]
    split
    · simp [cellsGet]
    · split
      · simp [cellsGet]
      · rename_i h1 h2; simp [cellsGet, h2, ih]

theorem cellsGet_ins_other (d : Nat → V) (m : List (Nat × V)) (k j : Nat) (v : V) (h : j ≠ k) :
    cellsGet d (cellsIns m k v) j = cellsGet d m j := by
  induction m with
  | nil => simp [cellsIns, cellsGet, Ne.symm h]
  | cons c m ih =>
    obtain ⟨a, w⟩ := c
    simp only [cellsIns]
    split
    · simp [cellsGet, Ne.symm h]
    · split
      · rename_i h2; subst h2; simp [cellsGet, Ne.symm h]
      · simp [cellsGet, ih]

theorem cellsGet_del_same (d : Nat → V) (m : List (Nat × V)) (k : Nat) :
    cellsGet d (cellsDel m k) k = d k := by
  induction m with
  | nil => simp [cellsDel, cellsGet]
  | cons c m ih =>
    obtain ⟨a, w⟩ := c
    simp only [cellsDel]
    split
    · exact ih
    · rename_i h; simp [cellsGet, h, ih]

theorem cellsGet_del_other (d : Nat → V) (m : List (Nat × V)) (k j : Nat) (h : j ≠ k) :
    cellsGet d (cellsDel m k) j = cellsGet d m j := by
  induction m with
  | nil => simp [cellsDel, cellsGet]
  | cons c m ih =>
    obtain ⟨a, w⟩ := c
    simp only [cellsDel]
    split
    · rename_i h2; subst h2; simp [cellsGet, Ne.symm h, ih]
    · simp [cellsGet, ih]

@[simp] theorem FMap.get_empty (d : Nat → V) (k : Nat) : (FMap.empty : FMap V).get d k = d k := rfl

/-- A read after a write to the same key gives the value written. -/
@[simp] theorem FMap.get_set_same [DecidableEq V] (m : FMap V) (d : Nat → V) (k : Nat) (v : V) :
    (m.set d k v).get d k = v := by
  unfold FMap.set FMap.get
  split
  · rename_i h; simp [cellsGet_del_same, h]
  · simp [cellsGet_ins_same]

/-- A write leaves every other key alone. -/
theorem FMap.get_set_other [DecidableEq V] (m : FMap V) (d : Nat → V) (k j : Nat) (v : V) (h : j ≠ k) :
    (m.set d k v).get d j = m.get d j := by
  unfold FMap.set FMap.get
  split
  · simp [cellsGet_del_other, h]
  · simp [cellsGet_ins_other, h]

theorem cellsWf_weaken [DecidableEq V] (d : Nat → V) (m : List (Nat × V)) (l : Nat) (o : Option Nat)
    (ho : ∀ x, o = some x → x ≤ l) (h : cellsWf d (some l) m = true) : cellsWf d o m = true := by
  cases m with
  | nil => simp [cellsWf]
  | cons c m =>
    obtain ⟨a, v⟩ := c
    simp only [cellsWf, Bool.and_eq_true, decide_eq_true_eq] at h ⊢
    refine ⟨⟨?_, h.1.2⟩, h.2⟩
    cases o with
    | none => rfl
    | some x => have := ho x rfl; simp only [decide_eq_true_eq]; omega

theorem cellsWf_ins [DecidableEq V] (d : Nat → V) (m : List (Nat × V)) (k : Nat) (v : V) (hv : v ≠ d k) :
    ∀ o : Option Nat, (∀ x, o = some x → x < k) → cellsWf d o m = true → cellsWf d o (cellsIns m k v) = true := by
  induction m with
  | nil =>
    intro o ho _
    cases o with
    | none => simp [cellsIns, cellsWf, hv]
    | some x => simp [cellsIns, cellsWf, hv, ho x rfl]
  | cons c m ih =>
    obtain ⟨a, w⟩ := c
    intro o ho h
    simp only [cellsIns]
    simp only [cellsWf, Bool.and_eq_true, decide_eq_true_eq] at h
    split
    · rename_i hk
      simp only [cellsWf, Bool.and_eq_true, decide_eq_true_eq]
      refine ⟨⟨?_, hv⟩, ⟨hk, h.1.2⟩, h.2⟩
      cases o with
      | none => rfl
      | some x => simp [ho x rfl]
    · rename_i hk
      split
      · rename_i ha; subst ha
        simp only [cellsWf, Bool.and_eq_true, decide_eq_true_eq]
        exact ⟨⟨h.1.1, hv⟩, h.2⟩
      · rename_i ha
        simp only [cellsWf, Bool.and_eq_true, decide_eq_true_eq]
        refine ⟨h.1, ih (some a) ?_ h.2⟩
        intro x hx; cases hx; omega

theorem cellsWf_del [DecidableEq V] (d : Nat → V) (m : List (Nat × V)) (k : Nat) :
    ∀ o : Option Nat, cellsWf d o m = true → cellsWf d o (cellsDel m k) = true := by
  induction m with
  | nil => intro o h; simpa [cellsDel] using h
  | cons c m ih =>
    obtain ⟨a, w⟩ := c
    intro o h
    simp only [cellsWf, Bool.and_eq_true, decide_eq_true_eq] at h
    simp only [cellsDel]
    split
    · refine cellsWf_weaken d _ a o ?_ (ih (some a) h.2)
      intro x hx; subst hx
      have := h.1.1; simp only [decide_eq_true_eq] at this; omega
    · simp only [cellsWf, Bool.and_eq_true, decide_eq_true_eq]
      exact ⟨h.1, ih (some a) h.2⟩

/-- A write keeps the canonical form. -/
theorem FMap.wf_set [DecidableEq V] (m : FMap V) (d : Nat → V) (k : Nat) (v : V) (h : m.wf d = true) :
    (m.set d k v).wf d = true := by
  unfold FMap.set FMap.wf at *
  split
  · exact cellsWf_del d _ k none h
  · rename_i hv; exact cellsWf_ins d _ k v hv none (by simp) h

@[simp] theorem FMap.wf_empty [DecidableEq V] (d : Nat → V) : (FMap.empty : FMap V).wf d = true := rfl

theorem cellsWf_filter [DecidableEq V] (d : Nat → V) (p : Nat × V → Bool) (m : List (Nat × V)) :
    ∀ o : Option Nat, cellsWf d o m = true → cellsWf d o (m.filter p) = true := by
  induction m with
  | nil => intro o h; simpa using h
  | cons c m ih =>
    obtain ⟨a, w⟩ := c
    intro o h
    simp only [cellsWf, Bool.and_eq_true, decide_eq_true_eq] at h
    simp only [List.filter_cons]
    split
    · simp only [cellsWf, Bool.and_eq_true, decide_eq_true_eq]
      exact ⟨h.1, ih (some a) h.2⟩
    · refine cellsWf_weaken d _ a o ?_ (ih (some a) h.2)
      intro x hx; subst hx
      have := h.1.1; simp only [decide_eq_true_eq] at this; omega

/-- Clearing a range keeps the canonical form. -/
theorem FMap.wf_clearRange [DecidableEq V] (m : FMap V) (d : Nat → V) (lo hi : Nat) (h : m.wf d = true) :
    (m.clearRange lo hi).wf d = true := cellsWf_filter d _ _ none h

/-- Writing consecutive keys keeps the canonical form. -/
theorem FMap.wf_setList [DecidableEq V] (m : FMap V) (d : Nat → V) (k : Nat) (vs : List V) (h : m.wf d = true) :
    (m.setList d k vs).wf d = true := by
  induction vs generalizing m k with
  | nil => exact h
  | cons v vs ih => exact ih _ _ (m.wf_set d k v h)

/-- Writing consecutive keys leaves every key outside them alone. -/
theorem FMap.get_setList_other [DecidableEq V] (m : FMap V) (d : Nat → V) (k j : Nat) (vs : List V)
    (h : j < k ∨ k + vs.length ≤ j) : (m.setList d k vs).get d j = m.get d j := by
  induction vs generalizing m k with
  | nil => rfl
  | cons v vs ih =>
    simp only [List.length_cons] at h
    rw [FMap.setList, ih _ _ (by omega), FMap.get_set_other _ _ _ _ _ (by omega)]

end Sys2Proof.Machine
end

