-- ==== Sys2Proof/Laws/Keeps.lean ====
section
/-! SUPPORT. What every operation but those of power and reset keeps: the queue of commands, the pins and power modes, and the canonical
form of memory. One lemma an operation; the base ones here. -/

set_option linter.unusedTactic false
set_option linter.unreachableTactic false
set_option linter.unusedVariables false

namespace Sys2Proof.Machine

/-- s has the queue and the power state of z, and its memory is in canonical form if z's is. -/
structure Keeps (z s : State) : Prop where
  pending : s.pending = z.pending
  power : s.power = z.power
  wf : Memory.wf z.mem = true → Memory.wf s.mem = true

theorem Keeps.refl (s : State) : Keeps s s := ⟨rfl, rfl, id⟩

theorem Keeps.trans {s t u : State} (h1 : Keeps s t) (h2 : Keeps t u) : Keeps s u :=
  ⟨h2.pending.trans h1.pending, h2.power.trans h1.power, fun h => h2.wf (h1.wf h)⟩

/-- A state whose queue, power and memory are another's. -/
theorem Keeps.same {z s t : State} (h : Keeps z s) (h1 : t.pending = s.pending) (h2 : t.power = s.power) (h3 : t.mem = s.mem) : Keeps z t :=
  ⟨h1.trans h.pending, h2.trans h.power, fun hz => by rw [h3]; exact h.wf hz⟩

theorem Keeps.foldl {z : State} {α : Type} (f : State → α → State) (l : List α) (s : State) (h : Keeps z s)
    (hf : ∀ y x, Keeps z y → Keeps z (f y x)) : Keeps z (l.foldl f s) := by
  induction l generalizing s with
  | nil => exact h
  | cons a l ih => exact ih _ (hf _ _ h)

/-- The state a fold carries beside something else. -/
theorem Keeps.foldlPair {z : State} {α β : Type} (f : State × β → α → State × β) (l : List α) (s : State × β) (h : Keeps z s.1)
    (hf : ∀ y x, Keeps z y.1 → Keeps z (f y x).1) : Keeps z (l.foldl f s).1 := by
  induction l generalizing s with
  | nil => exact h
  | cons a l ih => exact ih _ (hf _ _ h)

theorem Keeps.memSet {z s : State} (h : Keeps z s) (k : Nat) (b : Byte) : Memory.wf z.mem = true → Memory.wf (s.mem.set memDefault k b) = true :=
  fun hz => FMap.wf_set _ _ _ _ (h.wf hz)

theorem Keeps.memSetList {z s : State} (h : Keeps z s) (k : Nat) (bs : List Byte) :
    Memory.wf z.mem = true → Memory.wf (s.mem.setList memDefault k bs) = true := fun hz => FMap.wf_setList _ _ _ _ (h.wf hz)

theorem Keeps.memClear {z s : State} (h : Keeps z s) (lo hi : Nat) : Memory.wf z.mem = true → Memory.wf (s.mem.clearRange lo hi) = true :=
  fun hz => FMap.wf_clearRange _ _ _ _ (h.wf hz)

/-- The state an answer carries. -/
def Ready.st : Ready → State
  | .wait s => s
  | .fault s _ => s
  | .go s => s

def Sent.st : Sent → State
  | .ok s => s
  | .over s => s

def CommitStart.st : CommitStart → State
  | .over s => s
  | .written r => r.s

theorem Keeps.ofCommitOver {z s : State} {p : CommitStart} (h : Keeps z p.st) (e : p = .over s) : Keeps z s := by subst e; exact h
theorem Keeps.ofWritten {z : State} {r : Res} {p : CommitStart} (h : Keeps z p.st) (e : p = .written r) : Keeps z r.s := by subst e; exact h
theorem CommitStart.over_keeps {z s : State} (h : Keeps z s) : Keeps z (CommitStart.over s).st := h
theorem CommitStart.written_keeps {z : State} {r : Res} (h : Keeps z r.s) : Keeps z (CommitStart.written r).st := h
theorem Start.ready_keeps {z s : State} (x : Start) (h : Keeps z s) : Keeps z (x.ready s).st := by cases x <;> exact h

theorem Keeps.ofPair {z s : State} {α : Type} {a : α} {p : State × α} (h : Keeps z p.1) (e : p = (s, a)) : Keeps z s := by subst e; exact h
theorem Keeps.ofOk {z s : State} {p : Sent} (h : Keeps z p.st) (e : p = .ok s) : Keeps z s := by subst e; exact h
theorem Keeps.ofOver {z s : State} {p : Sent} (h : Keeps z p.st) (e : p = .over s) : Keeps z s := by subst e; exact h
theorem Keeps.ofWait {z s : State} {p : Ready} (h : Keeps z p.st) (e : p = .wait s) : Keeps z s := by subst e; exact h
theorem Keeps.ofFault {z s : State} {f : OpFault} {p : Ready} (h : Keeps z p.st) (e : p = .fault s f) : Keeps z s := by subst e; exact h
theorem Keeps.ofGo {z s : State} {p : Ready} (h : Keeps z p.st) (e : p = .go s) : Keeps z s := by subst e; exact h

theorem Ready.wait_keeps {z s : State} (h : Keeps z s) : Keeps z (Ready.wait s).st := h
theorem Ready.fault_keeps {z s : State} (f : OpFault) (h : Keeps z s) : Keeps z (Ready.fault s f).st := h
theorem Ready.go_keeps {z s : State} (h : Keeps z s) : Keeps z (Ready.go s).st := h
theorem Sent.ok_keeps {z s : State} (h : Keeps z s) : Keeps z (Sent.ok s).st := h
theorem Sent.over_keeps {z s : State} (h : Keeps z s) : Keeps z (Sent.over s).st := h

theorem Keeps.with_fresh {z s : State} (x : Nat) (h : Keeps z s) : Keeps z { s with fresh := x } := ⟨h.1, h.2, h.3⟩
theorem Keeps.with_tb {z s : State} (x : W64) (h : Keeps z s) : Keeps z { s with tb := x } := ⟨h.1, h.2, h.3⟩
theorem Keeps.with_regs {z s : State} (x : FMap W32) (h : Keeps z s) : Keeps z { s with regs := x } := ⟨h.1, h.2, h.3⟩
theorem Keeps.with_ecc {z s : State} (x : FMap Nat) (h : Keeps z s) : Keeps z { s with ecc := x } := ⟨h.1, h.2, h.3⟩
theorem Keeps.with_tiles {z s : State} (x : FMap TileSt) (h : Keeps z s) : Keeps z { s with tiles := x } := ⟨h.1, h.2, h.3⟩
theorem Keeps.with_glints {z s : State} (x : FMap W64) (h : Keeps z s) : Keeps z { s with glints := x } := ⟨h.1, h.2, h.3⟩
theorem Keeps.with_units {z s : State} (x : FMap Nat) (h : Keeps z s) : Keeps z { s with units := x } := ⟨h.1, h.2, h.3⟩
theorem Keeps.with_owner {z s : State} (x : FMap Nat) (h : Keeps z s) : Keeps z { s with owner := x } := ⟨h.1, h.2, h.3⟩
theorem Keeps.with_shades {z s : State} (x : Vector ShadeSt 16) (h : Keeps z s) : Keeps z { s with shades := x } := ⟨h.1, h.2, h.3⟩
theorem Keeps.with_bcn {z s : State} (x : BeaconSt) (h : Keeps z s) : Keeps z { s with bcn := x } := ⟨h.1, h.2, h.3⟩
theorem Keeps.with_agq {z s : State} (x : AfterglowSt) (h : Keeps z s) : Keeps z { s with agq := x } := ⟨h.1, h.2, h.3⟩
theorem Keeps.with_host {z s : State} (x : HostSt) (h : Keeps z s) : Keeps z { s with host := x } := ⟨h.1, h.2, h.3⟩
theorem Keeps.with_health {z s : State} (x : HealthSt) (h : Keeps z s) : Keeps z { s with health := x } := ⟨h.1, h.2, h.3⟩
theorem Keeps.with_noise {z s : State} (x : NoiseSt) (h : Keeps z s) : Keeps z { s with noise := x } := ⟨h.1, h.2, h.3⟩
theorem Keeps.with_jorx {z s : State} (x : JorxSt) (h : Keeps z s) : Keeps z { s with jorx := x } := ⟨h.1, h.2, h.3⟩
theorem Keeps.with_maint {z s : State} (x : MaintSt) (h : Keeps z s) : Keeps z { s with maint := x } := ⟨h.1, h.2, h.3⟩
theorem Keeps.with_dim {z s : State} (x : DimmerSt) (h : Keeps z s) : Keeps z { s with dim := x } := ⟨h.1, h.2, h.3⟩
theorem Keeps.with_config {z s : State} (x : ConfigSt) (h : Keeps z s) : Keeps z { s with config := x } := ⟨h.1, h.2, h.3⟩
theorem Keeps.with_i3c {z s : State} (x : I3cSt) (h : Keeps z s) : Keeps z { s with i3c := x } := ⟨h.1, h.2, h.3⟩
theorem Keeps.with_tap {z s : State} (x : TapSt) (h : Keeps z s) : Keeps z { s with tap := x } := ⟨h.1, h.2, h.3⟩
theorem Keeps.with_pcie {z s : State} (x : PcieSt) (h : Keeps z s) : Keeps z { s with pcie := x } := ⟨h.1, h.2, h.3⟩
theorem Keeps.with_mbx {z s : State} (x : Option MbxSt) (h : Keeps z s) : Keeps z { s with mbx := x } := ⟨h.1, h.2, h.3⟩
theorem Keeps.with_scrubs {z s : State} (x : List (Nat × Bool × Nat)) (h : Keeps z s) : Keeps z { s with scrubs := x } := ⟨h.1, h.2, h.3⟩
theorem Keeps.with_coreFrac {z s : State} (x : Nat) (h : Keeps z s) : Keeps z { s with coreFrac := x } := ⟨h.1, h.2, h.3⟩
theorem Keeps.with_inCond {z s : State} (x : FMap Bool) (h : Keeps z s) : Keeps z { s with inCond := x } := ⟨h.1, h.2, h.3⟩

/-! ## Ops -/

theorem State.setR_keeps {z₀ : State} (s : State) (k : PageKind) (inst off v : Nat) (h_s : Keeps z₀ s) : Keeps z₀ (State.setR s k inst off v) := by
  unfold State.setR
  repeat' first
    | with_reducible assumption
    | with_reducible first | apply Keeps.foldl
    | split
    | dsimp only
    | (intro)
    | (constructor <;> dsimp only <;> first | with_reducible rfl | with_reducible apply Keeps.pending | with_reducible apply Keeps.power | with_reducible apply Keeps.wf | with_reducible apply Keeps.memSet | with_reducible apply Keeps.memSetList | with_reducible apply Keeps.memClear)

theorem State.setF_keeps {z₀ : State} (s : State) (k : PageKind) (inst off hi lo v : Nat) (h_s : Keeps z₀ s) :
    Keeps z₀ (State.setF s k inst off hi lo v) := by
  unfold State.setF
  repeat' with_reducible first | assumption | apply State.setR_keeps

theorem State.orR_keeps {z₀ : State} (s : State) (k : PageKind) (inst off m : Nat) (h_s : Keeps z₀ s) : Keeps z₀ (State.orR s k inst off m) := by
  unfold State.orR
  repeat' with_reducible first | assumption | apply State.setR_keeps

theorem State.clrR_keeps {z₀ : State} (s : State) (k : PageKind) (inst off m : Nat) (h_s : Keeps z₀ s) : Keeps z₀ (State.clrR s k inst off m) := by
  unfold State.clrR
  repeat' with_reducible first | assumption | apply State.setR_keeps

theorem State.satAdd_keeps {z₀ : State} (s : State) (k : PageKind) (inst off hi lo n : Nat) (h_s : Keeps z₀ s) :
    Keeps z₀ (State.satAdd s k inst off hi lo n) := by
  unfold State.satAdd
  repeat' with_reducible first | assumption | apply State.setF_keeps

theorem State.setR64_keeps {z₀ : State} (s : State) (k : PageKind) (inst off v : Nat) (h_s : Keeps z₀ s) :
    Keeps z₀ (State.setR64 s k inst off v) := by
  unfold State.setR64
  repeat' with_reducible first | assumption | apply State.setR_keeps

theorem State.addCounter_keeps {z₀ : State} (s : State) (k : PageKind) (inst i n : Nat) (h_s : Keeps z₀ s) :
    Keeps z₀ (State.addCounter s k inst i n) := by
  unfold State.addCounter
  repeat' with_reducible first | assumption | apply State.setR64_keeps | split | dsimp only | (intro)

theorem State.countAs_keeps {z₀ : State} (s : State) (k : PageKind) (inst ev q n e : Nat) (h_s : Keeps z₀ s) :
    Keeps z₀ (State.countAs s k inst ev q n e) := by
  unfold State.countAs
  repeat' with_reducible first | assumption | apply State.addCounter_keeps | apply Keeps.foldl | split | (intro)

theorem State.countQ_keeps {z₀ : State} (s : State) (k : PageKind) (inst ev q n : Nat) (h_s : Keeps z₀ s) :
    Keeps z₀ (State.countQ s k inst ev q n) := by
  unfold State.countQ
  repeat' with_reducible first | assumption | apply State.countAs_keeps

theorem State.count_keeps {z₀ : State} (s : State) (k : PageKind) (inst ev n : Nat) (h_s : Keeps z₀ s) : Keeps z₀ (State.count s k inst ev n) := by
  unfold State.count
  repeat' with_reducible first | assumption | apply State.countQ_keeps

theorem State.countSpan_keeps {z₀ : State} (s : State) (k : PageKind) (inst ev n : Nat) (h_s : Keeps z₀ s) :
    Keeps z₀ (State.countSpan s k inst ev n) := by
  unfold State.countSpan
  repeat' with_reducible first | assumption | apply State.countAs_keeps

theorem State.cycleEv_keeps {z₀ : State} (s : State) (k : PageKind) (inst ev : Nat) (on : Bool) (h_s : Keeps z₀ s) :
    Keeps z₀ (State.cycleEv s k inst ev on) := by
  unfold State.cycleEv
  repeat' first
    | with_reducible assumption
    | with_reducible first | apply State.countAs_keeps | apply Keeps.foldl
    | split
    | dsimp only
    | (intro)
    | (constructor <;> dsimp only <;> first | with_reducible rfl | with_reducible apply Keeps.pending | with_reducible apply Keeps.power | with_reducible apply Keeps.wf | with_reducible apply Keeps.memSet | with_reducible apply Keeps.memSetList | with_reducible apply Keeps.memClear)

theorem State.countUnits_keeps {z₀ : State} (s : State) (k : PageKind) (inst ev n : Nat) (h_s : Keeps z₀ s) :
    Keeps z₀ (State.countUnits s k inst ev n) := by
  unfold State.countUnits
  repeat' first
    | with_reducible assumption
    | with_reducible first | apply State.count_keeps | apply Keeps.foldl
    | split
    | dsimp only
    | (intro)
    | (constructor <;> dsimp only <;> first | with_reducible rfl | with_reducible apply Keeps.pending | with_reducible apply Keeps.power | with_reducible apply Keeps.wf | with_reducible apply Keeps.memSet | with_reducible apply Keeps.memSetList | with_reducible apply Keeps.memClear)

theorem State.setOwnerP_keeps {z₀ : State} (s : State) (p v : Nat) (h_s : Keeps z₀ s) : Keeps z₀ (State.setOwnerP s p v) := by
  unfold State.setOwnerP
  repeat' first
    | with_reducible assumption
    | with_reducible first | apply Keeps.foldl
    | split
    | dsimp only
    | (intro)
    | (constructor <;> dsimp only <;> first | with_reducible rfl | with_reducible apply Keeps.pending | with_reducible apply Keeps.power | with_reducible apply Keeps.wf | with_reducible apply Keeps.memSet | with_reducible apply Keeps.memSetList | with_reducible apply Keeps.memClear)

theorem State.setOwnerQ_keeps {z₀ : State} (s : State) (q v : Nat) (h_s : Keeps z₀ s) : Keeps z₀ (State.setOwnerQ s q v) := by
  unfold State.setOwnerQ
  repeat' first
    | with_reducible assumption
    | with_reducible first | apply Keeps.foldl
    | split
    | dsimp only
    | (intro)
    | (constructor <;> dsimp only <;> first | with_reducible rfl | with_reducible apply Keeps.pending | with_reducible apply Keeps.power | with_reducible apply Keeps.wf | with_reducible apply Keeps.memSet | with_reducible apply Keeps.memSetList | with_reducible apply Keeps.memClear)

theorem State.modSh_keeps {z₀ : State} (s : State) (sh : ShadeIx) (f : ShadeSt → ShadeSt) (h_s : Keeps z₀ s) : Keeps z₀ (State.modSh s sh f) := by
  unfold State.modSh
  repeat' first
    | with_reducible assumption
    | with_reducible first | apply Keeps.foldl
    | split
    | dsimp only
    | (intro)
    | (constructor <;> dsimp only <;> first | with_reducible rfl | with_reducible apply Keeps.pending | with_reducible apply Keeps.power | with_reducible apply Keeps.wf | with_reducible apply Keeps.memSet | with_reducible apply Keeps.memSetList | with_reducible apply Keeps.memClear)

theorem State.modLan_keeps {z₀ : State} (s : State) (sh : ShadeIx) (f : Lantern → Lantern) (h_s : Keeps z₀ s) : Keeps z₀ (State.modLan s sh f) := by
  unfold State.modLan
  repeat' with_reducible first | assumption | apply State.modSh_keeps

theorem State.countLant_keeps {z₀ : State} (s : State) (sh : ShadeIx) (ev n : Nat) (h_s : Keeps z₀ s) : Keeps z₀ (State.countLant s sh ev n) := by
  unfold State.countLant
  repeat' with_reducible first | assumption | apply State.count_keeps

theorem State.blkErr_keeps {z₀ : State} (s : State) (k : PageKind) (page i : Nat) (h_s : Keeps z₀ s) : Keeps z₀ (State.blkErr s k page i) := by
  unfold State.blkErr
  repeat' with_reducible first | assumption | apply State.orR_keeps | split

theorem State.setErr_keeps {z₀ : State} (s : State) (k : PageKind) (inst page off m : Nat) (h_s : Keeps z₀ s) :
    Keeps z₀ (State.setErr s k inst page off m) := by
  unfold State.setErr
  repeat' with_reducible first | assumption | apply State.orR_keeps | apply State.blkErr_keeps

theorem State.rsvdWr_keeps {z₀ : State} (s : State) (k : PageKind) (page : Nat) (h_s : Keeps z₀ s) : Keeps z₀ (State.rsvdWr s k page) := by
  unfold State.rsvdWr
  repeat' with_reducible first | assumption | apply State.orR_keeps | apply State.count_keeps

theorem State.msixSend_keeps {z₀ : State} (s : State) (f e : Nat) (h_s : Keeps z₀ s) : Keeps z₀ (State.msixSend s f e) := by
  unfold State.msixSend
  repeat' first
    | with_reducible assumption
    | with_reducible first | apply Keeps.foldl
    | split
    | dsimp only
    | (intro)
    | (constructor <;> dsimp only <;> first | with_reducible rfl | with_reducible apply Keeps.pending | with_reducible apply Keeps.power | with_reducible apply Keeps.wf | with_reducible apply Keeps.memSet | with_reducible apply Keeps.memSetList | with_reducible apply Keeps.memClear)

theorem State.bcnUnhold_keeps {z₀ : State} (s : State) (t : Nat) (h_s : Keeps z₀ s) : Keeps z₀ (State.bcnUnhold s t) := by
  unfold State.bcnUnhold
  repeat' first
    | with_reducible assumption
    | with_reducible first | apply State.count_keeps | apply Keeps.foldl
    | split
    | dsimp only
    | (intro)
    | (refine Keeps.ofPair ?_ (by with_reducible assumption))
    | (refine Keeps.ofOk ?_ (by with_reducible assumption))
    | (refine Keeps.ofOver ?_ (by with_reducible assumption))
    | (refine Keeps.ofWait ?_ (by with_reducible assumption))
    | (refine Keeps.ofFault ?_ (by with_reducible assumption))
    | (refine Keeps.ofGo ?_ (by with_reducible assumption))
    | (refine Keeps.ofCommitOver ?_ (by with_reducible assumption))
    | (refine Keeps.ofWritten ?_ (by with_reducible assumption))
    | (constructor <;> dsimp only <;> first | with_reducible rfl | with_reducible apply Keeps.pending | with_reducible apply Keeps.power | with_reducible apply Keeps.wf | with_reducible apply Keeps.memSet | with_reducible apply Keeps.memSetList | with_reducible apply Keeps.memClear)

theorem State.bcnSend_keeps {z₀ : State} (s : State) (t : Nat) (h_s : Keeps z₀ s) : Keeps z₀ (State.bcnSend s t) := by
  unfold State.bcnSend
  repeat' with_reducible first
        | assumption | apply State.clrR_keeps | apply State.count_keeps | apply State.msixSend_keeps | apply State.bcnUnhold_keeps | split
        | dsimp only | (intro)

theorem State.bcnAfter_keeps {z₀ : State} (s : State) (t d0 : Nat) (h_s : Keeps z₀ s) : Keeps z₀ (State.bcnAfter s t d0) := by
  unfold State.bcnAfter
  repeat' first
    | with_reducible assumption
    | with_reducible first | apply State.count_keeps | apply State.bcnUnhold_keeps | apply State.bcnSend_keeps | apply Keeps.foldl
    | split
    | dsimp only
    | (intro)
    | (constructor <;> dsimp only <;> first | with_reducible rfl | with_reducible apply Keeps.pending | with_reducible apply Keeps.power | with_reducible apply Keeps.wf | with_reducible apply Keeps.memSet | with_reducible apply Keeps.memSetList | with_reducible apply Keeps.memClear)

theorem State.bcnCount_keeps {z₀ : State} (s : State) (t n : Nat) (h_s : Keeps z₀ s) : Keeps z₀ (State.bcnCount s t n) := by
  unfold State.bcnCount
  repeat' first
    | with_reducible assumption
    | with_reducible first | apply State.count_keeps | apply State.bcnSend_keeps | apply Keeps.foldl
    | split
    | dsimp only
    | (intro)
    | (refine Keeps.ofPair ?_ (by with_reducible assumption))
    | (refine Keeps.ofOk ?_ (by with_reducible assumption))
    | (refine Keeps.ofOver ?_ (by with_reducible assumption))
    | (refine Keeps.ofWait ?_ (by with_reducible assumption))
    | (refine Keeps.ofFault ?_ (by with_reducible assumption))
    | (refine Keeps.ofGo ?_ (by with_reducible assumption))
    | (refine Keeps.ofCommitOver ?_ (by with_reducible assumption))
    | (refine Keeps.ofWritten ?_ (by with_reducible assumption))
    | (constructor <;> dsimp only <;> first | with_reducible rfl | with_reducible apply Keeps.pending | with_reducible apply Keeps.power | with_reducible apply Keeps.wf | with_reducible apply Keeps.memSet | with_reducible apply Keeps.memSetList | with_reducible apply Keeps.memClear)

theorem State.raise_keeps {z₀ : State} (s : State) (n : Nat) (h_s : Keeps z₀ s) : Keeps z₀ (State.raise s n) := by
  unfold State.raise
  repeat' first
    | with_reducible assumption
    | with_reducible first | apply State.bcnAfter_keeps | apply State.bcnCount_keeps | apply Keeps.foldl
    | split
    | dsimp only
    | (intro)
    | (constructor <;> dsimp only <;> first | with_reducible rfl | with_reducible apply Keeps.pending | with_reducible apply Keeps.power | with_reducible apply Keeps.wf | with_reducible apply Keeps.memSet | with_reducible apply Keeps.memSetList | with_reducible apply Keeps.memClear)

theorem State.dropRecord_keeps {z₀ : State} (s : State) (h_s : Keeps z₀ s) : Keeps z₀ (State.dropRecord s) := by
  unfold State.dropRecord
  repeat' with_reducible first | assumption | apply State.satAdd_keeps

theorem State.stageTo_keeps {z₀ : State} (s : State) (q typ : Nat) (sh : Option ShadeIx) (body : List Nat) (h_s : Keeps z₀ s) :
    Keeps z₀ (State.stageTo s q typ sh body) := by
  unfold State.stageTo
  repeat' first
    | with_reducible assumption
    | with_reducible first | apply State.dropRecord_keeps | apply Keeps.foldl
    | split
    | dsimp only
    | (intro)
    | (constructor <;> dsimp only <;> first | with_reducible rfl | with_reducible apply Keeps.pending | with_reducible apply Keeps.power | with_reducible apply Keeps.wf | with_reducible apply Keeps.memSet | with_reducible apply Keeps.memSetList | with_reducible apply Keeps.memClear)

theorem State.shadeRecord_keeps {z₀ : State} (s : State) (sh : ShadeIx) (typ : Nat) (body : List Nat) (h_s : Keeps z₀ s) :
    Keeps z₀ (State.shadeRecord s sh typ body) := by
  unfold State.shadeRecord
  repeat' with_reducible first | assumption | apply State.dropRecord_keeps | apply State.stageTo_keeps | split | dsimp only | (intro)

theorem State.deviceRecord_keeps {z₀ : State} (s : State) (typ : Nat) (body : List Nat) (h_s : Keeps z₀ s) :
    Keeps z₀ (State.deviceRecord s typ body) := by
  unfold State.deviceRecord
  repeat' with_reducible first | assumption | apply State.dropRecord_keeps | apply State.stageTo_keeps | split | dsimp only | (intro)

theorem State.halt_keeps {z₀ : State} (s : State) (sh : ShadeIx) (h_s : Keeps z₀ s) : Keeps z₀ (State.halt s sh) := by
  unfold State.halt
  repeat' with_reducible first | assumption | apply State.modSh_keeps | apply State.raise_keeps

theorem State.tick_keeps {z₀ : State} (s : State) (h_s : Keeps z₀ s) : Keeps z₀ (State.tick s) := by
  unfold State.tick
  repeat' first
    | with_reducible assumption
    | with_reducible first | apply Keeps.foldl
    | split
    | dsimp only
    | (intro)
    | (constructor <;> dsimp only <;> first | with_reducible rfl | with_reducible apply Keeps.pending | with_reducible apply Keeps.power | with_reducible apply Keeps.wf | with_reducible apply Keeps.memSet | with_reducible apply Keeps.memSetList | with_reducible apply Keeps.memClear)

theorem State.tagSettle_keeps {z₀ : State} (s : State) (sh : ShadeIx) (h_s : Keeps z₀ s) : Keeps z₀ (State.tagSettle s sh) := by
  unfold State.tagSettle
  repeat' first
    | with_reducible assumption
    | with_reducible first | apply State.modSh_keeps | apply State.shadeRecord_keeps | apply Keeps.foldl
    | split
    | dsimp only
    | (intro)
    | (refine Keeps.ofPair ?_ (by with_reducible assumption))
    | (refine Keeps.ofOk ?_ (by with_reducible assumption))
    | (refine Keeps.ofOver ?_ (by with_reducible assumption))
    | (refine Keeps.ofWait ?_ (by with_reducible assumption))
    | (refine Keeps.ofFault ?_ (by with_reducible assumption))
    | (refine Keeps.ofGo ?_ (by with_reducible assumption))
    | (refine Keeps.ofCommitOver ?_ (by with_reducible assumption))
    | (refine Keeps.ofWritten ?_ (by with_reducible assumption))
    | (constructor <;> dsimp only <;> first | with_reducible rfl | with_reducible apply Keeps.pending | with_reducible apply Keeps.power | with_reducible apply Keeps.wf | with_reducible apply Keeps.memSet | with_reducible apply Keeps.memSetList | with_reducible apply Keeps.memClear)

theorem State.tagOver_keeps {z₀ : State} (s : State) (sh : ShadeIx) (id : Nat) (h_s : Keeps z₀ s) : Keeps z₀ (State.tagOver s sh id) := by
  unfold State.tagOver
  repeat' with_reducible first | assumption | apply State.modSh_keeps

theorem State.tagStart_keeps {z₀ : State} (s : State) (sh : ShadeIx) (id : Nat) (h_s : Keeps z₀ s) : Keeps z₀ (State.tagStart s sh id) := by
  unfold State.tagStart
  repeat' with_reducible first | assumption | apply State.modSh_keeps

theorem State.discardQueue_keeps {z₀ : State} (s : State) (sh : ShadeIx) (h_s : Keeps z₀ s) : Keeps z₀ (State.discardQueue s sh) := by
  unfold State.discardQueue
  repeat' with_reducible first | assumption | apply State.modSh_keeps | apply State.countLant_keeps | apply State.tagSettle_keeps

theorem State.recordFault_keeps {z₀ : State} (s : State) (sh : ShadeIx) (code : Nat) (c : FClass) (src : FSrc) (h_s : Keeps z₀ s) :
    Keeps z₀ (State.recordFault s sh code c src) := by
  unfold State.recordFault
  repeat' with_reducible first
        | assumption | apply State.setR_keeps | apply State.countLant_keeps | apply State.raise_keeps | apply State.shadeRecord_keeps | split

theorem State.bundleFault_keeps {z₀ : State} (s : State) (sh : ShadeIx) (c : FClass) (f : SlotFault) (h_s : Keeps z₀ s) :
    Keeps z₀ (State.bundleFault s sh c f) := by
  unfold State.bundleFault
  repeat' with_reducible first | assumption | apply State.halt_keeps | apply State.recordFault_keeps

theorem State.dropRunning_keeps {z₀ : State} (s : State) (sh : ShadeIx) (f : QOp → Bool) (h_s : Keeps z₀ s) :
    Keeps z₀ (State.dropRunning s sh f) := by
  unfold State.dropRunning
  repeat' with_reducible first | assumption | apply State.modSh_keeps | apply State.tagSettle_keeps

theorem State.modTile_keeps {z₀ : State} (s : State) (p t : Nat) (f : TileSt → TileSt) (h_s : Keeps z₀ s) : Keeps z₀ (State.modTile s p t f) := by
  unfold State.modTile
  repeat' first
    | with_reducible assumption
    | with_reducible first | apply Keeps.foldl
    | split
    | dsimp only
    | (intro)
    | (constructor <;> dsimp only <;> first | with_reducible rfl | with_reducible apply Keeps.pending | with_reducible apply Keeps.power | with_reducible apply Keeps.wf | with_reducible apply Keeps.memSet | with_reducible apply Keeps.memSetList | with_reducible apply Keeps.memClear)

theorem State.abandonArray_keeps {z₀ : State} (s : State) (sh : ShadeIx) (h_s : Keeps z₀ s) : Keeps z₀ (State.abandonArray s sh) := by
  unfold State.abandonArray
  repeat' with_reducible first
        | assumption | apply State.modSh_keeps | apply State.dropRunning_keeps | apply State.modTile_keeps | apply Keeps.foldl | (intro)

theorem State.stopFault_keeps {z₀ : State} (s : State) (sh : ShadeIx) (code : Nat) (c : FClass) (src : FSrc) (h_s : Keeps z₀ s) :
    Keeps z₀ (State.stopFault s sh code c src) := by
  unfold State.stopFault
  repeat' with_reducible first
        | assumption | apply State.halt_keeps | apply State.discardQueue_keeps | apply State.recordFault_keeps | apply State.abandonArray_keeps

theorem State.reportFault_keeps {z₀ : State} (s : State) (sh : ShadeIx) (code : Nat) (src : FSrc) (h_s : Keeps z₀ s) :
    Keeps z₀ (State.reportFault s sh code src) := by
  unfold State.reportFault
  repeat' with_reducible first | assumption | apply State.recordFault_keeps

theorem State.finish_keeps {z₀ : State} (s : State) (sh : ShadeIx) (id : Nat) (results : List (Nat × W64)) (h_s : Keeps z₀ s) :
    Keeps z₀ (State.finish s sh id results) := by
  unfold State.finish
  repeat' with_reducible first | assumption | apply State.modSh_keeps | apply State.tagSettle_keeps | apply State.tagOver_keeps

/-! ## Memory -/

theorem State.setEcc_keeps {z₀ : State} (s : State) (k e : Nat) (h_s : Keeps z₀ s) : Keeps z₀ (State.setEcc s k e) := by
  unfold State.setEcc
  repeat' first
    | with_reducible assumption
    | with_reducible first | apply Keeps.foldl
    | split
    | dsimp only
    | (intro)
    | (constructor <;> dsimp only <;> first | with_reducible rfl | with_reducible apply Keeps.pending | with_reducible apply Keeps.power | with_reducible apply Keeps.wf | with_reducible apply Keeps.memSet | with_reducible apply Keeps.memSetList | with_reducible apply Keeps.memClear)

theorem State.injectInto_keeps {z₀ : State} (s : State) (kind : PageKind) (inst k : Nat) (h_s : Keeps z₀ s) :
    Keeps z₀ (State.injectInto s kind inst k) := by
  unfold State.injectInto
  repeat' with_reducible first | assumption | apply State.orR_keeps | apply State.clrR_keeps | apply State.setEcc_keeps | split | dsimp only | (intro)

theorem State.eccWrite_keeps {z₀ : State} (s : State) (k : Nat) (h_s : Keeps z₀ s) : Keeps z₀ (State.eccWrite s k) := by
  unfold State.eccWrite
  repeat' with_reducible first | assumption | apply State.setEcc_keeps | apply State.injectInto_keeps | split

theorem State.wr_keeps {z₀ : State} (s : State) (k : Nat) (b : Byte) (h_s : Keeps z₀ s) : Keeps z₀ (State.wr s k b) := by
  unfold State.wr
  repeat' first
    | with_reducible assumption
    | with_reducible first | apply State.eccWrite_keeps | apply Keeps.foldl
    | split
    | dsimp only
    | (intro)
    | (constructor <;> dsimp only <;> first | with_reducible rfl | with_reducible apply Keeps.pending | with_reducible apply Keeps.power | with_reducible apply Keeps.wf | with_reducible apply Keeps.memSet | with_reducible apply Keeps.memSetList | with_reducible apply Keeps.memClear)

theorem State.wrN_keeps {z₀ : State} (s : State) (k : Nat) (bs : List Byte) (h_s : Keeps z₀ s) : Keeps z₀ (State.wrN s k bs) := by
  unfold State.wrN
  repeat' first
    | with_reducible assumption
    | with_reducible first | apply State.eccWrite_keeps | apply Keeps.foldl
    | split
    | dsimp only
    | (intro)
    | (constructor <;> dsimp only <;> first | with_reducible rfl | with_reducible apply Keeps.pending | with_reducible apply Keeps.power | with_reducible apply Keeps.wf | with_reducible apply Keeps.memSet | with_reducible apply Keeps.memSetList | with_reducible apply Keeps.memClear)

theorem State.zeroRange_keeps {z₀ : State} (s : State) (lo hi : Nat) (h_s : Keeps z₀ s) : Keeps z₀ (State.zeroRange s lo hi) := by
  unfold State.zeroRange
  repeat' first
    | with_reducible assumption
    | with_reducible first | apply Keeps.foldl
    | split
    | dsimp only
    | (intro)
    | (constructor <;> dsimp only <;> first | with_reducible rfl | with_reducible apply Keeps.pending | with_reducible apply Keeps.power | with_reducible apply Keeps.wf | with_reducible apply Keeps.memSet | with_reducible apply Keeps.memSetList | with_reducible apply Keeps.memClear)

theorem Res.ok_keeps {z₀ : State} (s : State) (h_s : Keeps z₀ s) : Keeps z₀ (Res.ok s).s := by
  unfold Res.ok
  repeat' with_reducible first | assumption

theorem Res.andThen_keeps {z₀ : State} (r : Res) (f : State → Res) (h_r : Keeps z₀ r.s) (h_f : ∀ y, Keeps z₀ y → Keeps z₀ (f y).s) :
    Keeps z₀ (Res.andThen r f).s := by
  unfold Res.andThen
  split
  · exact h_f _ h_r
  · exact h_r

theorem resFold_keeps {z : State} {α : Type} (f : State → α → Res) (s : State) (l : List α) (h : Keeps z s)
    (hf : ∀ y x, Keeps z y → Keeps z (f y x).s) : Keeps z (resFold f s l).s := by
  induction l generalizing s with
  | nil => exact h
  | cons a l ih => exact Res.andThen_keeps _ _ (hf _ _ h) fun y hy => ih y hy

theorem Res.withRead_keeps {z₀ : State} {α : Type} (s : State) (r : Except OpFault α) (f : α → Res) (h_s : Keeps z₀ s) (h_f : ∀ v0, Keeps z₀ (f v0).s) :
    Keeps z₀ (Res.withRead s r f).s := by
  unfold Res.withRead
  repeat' with_reducible first | assumption | apply h_f | apply Res.ok_keeps | split

theorem State.recordXlate_keeps {z₀ : State} (s : State) (sh : ShadeIx) (walker : Nat) (x : XlErr) (h_s : Keeps z₀ s) :
    Keeps z₀ (State.recordXlate s sh walker x) := by
  unfold State.recordXlate
  repeat' with_reducible first | assumption | apply State.setR_keeps | split | dsimp only | (intro)

theorem State.guardWrite_keeps {z₀ : State} (s : State) (c : Ctx) (space addr : Nat) (h_s : Keeps z₀ s) :
    Keeps z₀ (State.guardWrite s c space addr).s := by
  unfold State.guardWrite
  repeat' with_reducible first | assumption | apply State.orR_keeps | apply Res.ok_keeps | apply Keeps.foldl | split | dsimp only | (intro)

theorem State.wrS_keeps {z₀ : State} (s : State) (c : Ctx) (space addr : Nat) (b : Byte) (h_s : Keeps z₀ s) :
    Keeps z₀ (State.wrS s c space addr b).s := by
  unfold State.wrS
  repeat' with_reducible first
        | assumption | apply State.wr_keeps | apply Res.ok_keeps | apply Res.andThen_keeps | apply State.guardWrite_keeps | split | (intro)

theorem State.wrSN_keeps {z : State} (s : State) (c : Ctx) (space addr : Nat) (bs : List Byte) (h : Keeps z s) :
    Keeps z (s.wrSN c space addr bs).s := by
  induction bs generalizing s addr with
  | nil => exact h
  | cons b bs ih => exact Res.andThen_keeps _ _ (State.wrS_keeps _ _ _ _ _ h) fun y hy => ih y _ hy

theorem State.wrPart_keeps {z₀ : State} (s : State) (c : Ctx) (space addr hi lo v : Nat) (h_s : Keeps z₀ s) :
    Keeps z₀ (State.wrPart s c space addr hi lo v).s := by
  unfold State.wrPart
  repeat' with_reducible first
        | assumption | apply State.wr_keeps | apply Res.ok_keeps | apply Res.andThen_keeps | apply State.guardWrite_keeps | split | (intro)

theorem State.wrBits_keeps {z₀ : State} (s : State) (c : Ctx) (space bit w v : Nat) (h_s : Keeps z₀ s) :
    Keeps z₀ (State.wrBits s c space bit w v).s := by
  unfold State.wrBits
  repeat' with_reducible first
        | assumption | apply Res.andThen_keeps | apply State.wrSN_keeps | apply State.wrPart_keeps | split | dsimp only | (intro)

/-! ## Stop -/

theorem State.stopUnits_keeps {z₀ : State} (s : State) (sh : ShadeIx) (h_s : Keeps z₀ s) : Keeps z₀ (State.stopUnits s sh) := by
  unfold State.stopUnits
  repeat' with_reducible first
        | assumption | apply State.modSh_keeps | apply State.discardQueue_keeps | apply State.dropRunning_keeps
        | apply State.abandonArray_keeps

theorem State.startRolling_keeps {z₀ : State} (s : State) (sh : ShadeIx) (r : Rolling) (h_s : Keeps z₀ s) : Keeps z₀ (State.startRolling s sh r) := by
  unfold State.startRolling
  repeat' with_reducible first | assumption | apply State.modSh_keeps | apply State.stopUnits_keeps

theorem State.replayErr_keeps {z₀ : State} (s : State) (sh : ShadeIx) (bit : Nat) (h_s : Keeps z₀ s) : Keeps z₀ (State.replayErr s sh bit) := by
  unfold State.replayErr
  repeat' with_reducible first | assumption | apply State.setErr_keeps | apply State.raise_keeps

theorem State.haltStop_keeps {z₀ : State} (s : State) (sh : ShadeIx) (h_s : Keeps z₀ s) : Keeps z₀ (State.haltStop s sh) := by
  unfold State.haltStop
  repeat' with_reducible first | assumption | apply State.modSh_keeps | apply State.halt_keeps | apply State.stopUnits_keeps

theorem State.faultRollback_keeps {z₀ : State} (s : State) (sh : ShadeIx) (code : Nat) (h_s : Keeps z₀ s) :
    Keeps z₀ (State.faultRollback s sh code) := by
  unfold State.faultRollback
  repeat' with_reducible first
        | assumption | apply State.modSh_keeps | apply State.startRolling_keeps | apply State.replayErr_keeps | apply State.haltStop_keeps
        | split | dsimp only | (intro)

theorem State.attribute_keeps {z₀ : State} (s : State) (p code : Nat) (h_s : Keeps z₀ s) : Keeps z₀ (State.attribute s p code) := by
  unfold State.attribute
  repeat' first
    | with_reducible assumption
    | with_reducible first | apply State.setF_keeps | apply State.count_keeps | apply State.raise_keeps | apply Keeps.foldl
    | split
    | dsimp only
    | (intro)
    | (constructor <;> dsimp only <;> first | with_reducible rfl | with_reducible apply Keeps.pending | with_reducible apply Keeps.power | with_reducible apply Keeps.wf | with_reducible apply Keeps.memSet | with_reducible apply Keeps.memSetList | with_reducible apply Keeps.memClear)

theorem State.fence_keeps {z₀ : State} (s : State) (p : Nat) (h_s : Keeps z₀ s) : Keeps z₀ (State.fence s p) := by
  unfold State.fence
  repeat' first
    | with_reducible assumption
    | with_reducible first
        | apply State.setF_keeps | apply State.modSh_keeps | apply State.raise_keeps | apply State.stopFault_keeps | apply Keeps.foldl
    | split
    | dsimp only
    | (intro)
    | (refine Keeps.ofPair ?_ (by with_reducible assumption))
    | (refine Keeps.ofOk ?_ (by with_reducible assumption))
    | (refine Keeps.ofOver ?_ (by with_reducible assumption))
    | (refine Keeps.ofWait ?_ (by with_reducible assumption))
    | (refine Keeps.ofFault ?_ (by with_reducible assumption))
    | (refine Keeps.ofGo ?_ (by with_reducible assumption))
    | (refine Keeps.ofCommitOver ?_ (by with_reducible assumption))
    | (refine Keeps.ofWritten ?_ (by with_reducible assumption))
    | (constructor <;> dsimp only <;> first | with_reducible rfl | with_reducible apply Keeps.pending | with_reducible apply Keeps.power | with_reducible apply Keeps.wf | with_reducible apply Keeps.memSet | with_reducible apply Keeps.memSetList | with_reducible apply Keeps.memClear)

theorem State.machineFaultUnattributed_keeps {z₀ : State} (s : State) (sh : Option ShadeIx) (code : Nat) (src : FSrc) (h_s : Keeps z₀ s) :
    Keeps z₀ (State.machineFaultUnattributed s sh code src) := by
  unfold State.machineFaultUnattributed
  repeat' with_reducible first | assumption | apply State.raise_keeps | apply State.recordFault_keeps | apply State.faultRollback_keeps | split

theorem State.machineFault_keeps {z₀ : State} (s : State) (p code : Nat) (src : FSrc) (h_s : Keeps z₀ s) :
    Keeps z₀ (State.machineFault s p code src) := by
  unfold State.machineFault
  repeat' with_reducible first
        | assumption | apply State.count_keeps | apply State.raise_keeps | apply State.recordFault_keeps | apply State.faultRollback_keeps
        | apply State.attribute_keeps | apply State.fence_keeps | split | dsimp only | (intro)

theorem State.eccRecord_keeps {z₀ : State} (s : State) (k : Nat) (h_s : Keeps z₀ s) : Keeps z₀ (State.eccRecord s k) := by
  unfold State.eccRecord
  repeat' with_reducible first
        | assumption | apply State.setR_keeps | apply State.setF_keeps | apply State.orR_keeps | apply State.clrR_keeps
        | apply State.setR64_keeps | apply State.count_keeps | apply State.blkErr_keeps | apply State.raise_keeps | split

theorem State.firstErr_keeps {z₀ : State} (s : State) (k : PageKind) (inst page off bit hi lo v : Nat) (h_s : Keeps z₀ s) :
    Keeps z₀ (State.firstErr s k inst page off bit hi lo v) := by
  unfold State.firstErr
  repeat' with_reducible first | assumption | apply State.setF_keeps | apply State.setErr_keeps | split

theorem State.maskErr_keeps {z₀ : State} (s : State) (sh : ShadeIx) (mo bit : Nat) (h_s : Keeps z₀ s) : Keeps z₀ (State.maskErr s sh mo bit) := by
  unfold State.maskErr
  repeat' with_reducible first | assumption | apply State.setF_keeps | apply State.setErr_keeps | split

theorem State.tsErr_keeps {z₀ : State} (s : State) (sh : ShadeIx) (bit region : Nat) (h_s : Keeps z₀ s) : Keeps z₀ (State.tsErr s sh bit region) := by
  unfold State.tsErr
  repeat' with_reducible first | assumption | apply State.setF_keeps | apply State.setErr_keeps | apply State.raise_keeps | split

theorem State.markFault_keeps {z₀ : State} (s : State) (sh : ShadeIx) (f : OpFault) (h_s : Keeps z₀ s) : Keeps z₀ (State.markFault s sh f) := by
  unfold State.markFault
  repeat' with_reducible first
        | assumption | apply State.count_keeps | apply State.raise_keeps | apply State.eccRecord_keeps | apply State.firstErr_keeps
        | apply State.maskErr_keeps | apply State.tsErr_keeps | split

theorem State.giveUp_keeps {z₀ : State} (s : State) (sh : ShadeIx) (q : QOp) (h_s : Keeps z₀ s) : Keeps z₀ (State.giveUp s sh q) := by
  unfold State.giveUp
  repeat' with_reducible first | assumption | apply State.modSh_keeps | apply State.tagSettle_keeps

theorem State.finishNow_keeps {z₀ : State} (s : State) (sh : ShadeIx) (q : QOp) (h_s : Keeps z₀ s) : Keeps z₀ (State.finishNow s sh q) := by
  unfold State.finishNow
  repeat' with_reducible first | assumption | apply State.tagOver_keeps | apply State.giveUp_keeps

theorem State.opFaultAs_keeps {z₀ : State} (s : State) (sh : ShadeIx) (q : QOp) (walker : Nat) (f : OpFault) (h_s : Keeps z₀ s) :
    Keeps z₀ (State.opFaultAs s sh q walker f) := by
  unfold State.opFaultAs
  repeat' with_reducible first
        | assumption | apply State.stopFault_keeps | apply State.recordXlate_keeps | apply State.machineFaultUnattributed_keeps
        | apply State.machineFault_keeps | apply State.markFault_keeps | apply State.giveUp_keeps | split

theorem State.opFault_keeps {z₀ : State} (s : State) (sh : ShadeIx) (q : QOp) (f : OpFault) (h_s : Keeps z₀ s) :
    Keeps z₀ (State.opFault s sh q f) := by
  unfold State.opFault
  repeat' with_reducible first | assumption | apply State.opFaultAs_keeps

end Sys2Proof.Machine
end

