-- ==== Sys2Proof/Laws/KeepsTensor.lean ====
section
/-! SUPPORT. What the operations of the tensor units keep: the queue of commands, the power modes and the canonical form of memory. -/

set_option linter.unusedTactic false
set_option linter.unreachableTactic false
set_option linter.unusedVariables false

namespace Sys2Proof.Machine

/-! ## Quant -/

theorem State.putCodes_keeps {z : State} (s : State) (c : Ctx) (t : TD) (ts : Nat) (scale : Nat) (l : List (ELoc × Nat × Option Nat)) (y : Tally)
    (h : Keeps z s) : Keeps z (s.putCodes c t ts scale l y).1.s := by
  induction l generalizing s y with
  | nil => exact h
  | cons a l ih =>
    obtain ⟨e, code, ix⟩ := a
    unfold State.putCodes
    have h1 := State.wrBits_keeps s c t.space e.bit t.fmt.width code h
    dsimp only
    split
    · exact h1
    · exact ih _ _ h1

theorem State.putDenseBlock_keeps {z₀ : State} (s : State) (c : Ctx) (t : TD) (q : QCW) (ts : Nat) (els : List QEl) (h_s : Keeps z₀ s) :
    Keeps z₀ (State.putDenseBlock s c t q ts els).1.s := by
  unfold State.putDenseBlock
  repeat' with_reducible first
        | assumption | apply Res.ok_keeps | apply Res.andThen_keeps | apply State.wrSN_keeps | apply State.putCodes_keeps | split | (intro)

theorem resTally_keeps {z : State} {α : Type} (f : State → α → Res × Tally) (s : State) (l : List α) (y : Tally) (h : Keeps z s)
    (hf : ∀ y x, Keeps z y → Keeps z (f y x).1.s) : Keeps z (resTally f s l y).1.s := by
  induction l generalizing s y with
  | nil => exact h
  | cons a l ih =>
    unfold resTally
    have h1 := hf s a h
    dsimp only
    split
    · exact h1
    · exact ih _ _ h1

theorem State.putImg_keeps {z₀ : State} (s : State) (c : Ctx) (t : TD) (addr : Nat × Nat) (i : BlkImg) (h_s : Keeps z₀ s) :
    Keeps z₀ (State.putImg s c t addr i).s := by
  unfold State.putImg
  repeat' with_reducible first | assumption | apply Res.andThen_keeps | apply State.wrSN_keeps | (intro)

/-! ## Array -/

theorem State.arrayDone_keeps {z₀ : State} (s : State) (sh : ShadeIx) (id : Nat) (h_s : Keeps z₀ s) : Keeps z₀ (State.arrayDone s sh id) := by
  unfold State.arrayDone
  repeat' with_reducible first | assumption | apply State.finish_keeps | split

theorem State.mmsAdvance_keeps {z₀ : State} (s : State) (p t k : Nat) (h_s : Keeps z₀ s) : Keeps z₀ (State.mmsAdvance s p t k) := by
  unfold State.mmsAdvance
  repeat' with_reducible first | assumption | apply State.modTile_keeps | split

theorem State.arrayBeginTile_keeps {z₀ : State} (s : State) (sh : ShadeIx) (q : QOp) (o : ArrayOpc) (a : ArrayArgs) (p t : Nat) (h_s : Keeps z₀ s) :
    Keeps z₀ (State.arrayBeginTile s sh q o a p t) := by
  unfold State.arrayBeginTile
  repeat' with_reducible first
        | assumption | apply State.modTile_keeps | apply Res.ok_keeps | apply State.arrayDone_keeps | apply State.mmsAdvance_keeps
        | apply Keeps.foldl | split | dsimp only | (intro)

theorem State.advanceCursors_keeps {z₀ : State} (s : State) (sh : ShadeIx) (q : QOp) (a : ArrayArgs) (h_s : Keeps z₀ s) :
    Keeps z₀ (State.advanceCursors s sh q a) := by
  unfold State.advanceCursors
  repeat' with_reducible first | assumption | apply State.modSh_keeps | apply Keeps.foldl

theorem State.arrayBegin_keeps {z₀ : State} (s : State) (sh : ShadeIx) (q : QOp) (o : ArrayOpc) (a : ArrayArgs) (h_s : Keeps z₀ s) :
    Keeps z₀ (State.arrayBegin s sh q o a) := by
  unfold State.arrayBegin
  repeat' with_reducible first
        | assumption | apply State.arrayDone_keeps | apply State.arrayBeginTile_keeps | apply State.advanceCursors_keeps | apply Keeps.foldl
        | split | (intro)

theorem State.countUnit_keeps {z₀ : State} (s : State) (p t : Nat) (sparse : Bool) (x : Nest) (d : FMap W64) (u : KUnit) (y : UnitData) (chunks : Nat) (h_s : Keeps z₀ s) :
    Keeps z₀ (State.countUnit s p t sparse x d u y chunks) := by
  unfold State.countUnit
  repeat' with_reducible first | assumption | apply State.count_keeps | apply State.modTile_keeps | split

theorem State.fastOver_keeps {z₀ : State} (s : State) (p t : Nat) (before after : Pass) (h_s : Keeps z₀ s) :
    Keeps z₀ (State.fastOver s p t before after) := by
  unfold State.fastOver
  repeat' with_reducible first | assumption | apply State.count_keeps | apply State.setErr_keeps | split

theorem State.jobOver_keeps {z₀ : State} (s : State) (sh : ShadeIx) (p t k i : Nat) (j : Job) (h_s : Keeps z₀ s) :
    Keeps z₀ (State.jobOver s sh p t k i j) := by
  unfold State.jobOver
  repeat' with_reducible first | assumption | apply State.modTile_keeps | apply State.arrayDone_keeps | split | dsimp only | (intro)

theorem State.residue_keeps {z₀ : State} (s : State) (p t : Nat) (q : QOp) (h_s : Keeps z₀ s) : Keeps z₀ (State.residue s p t q) := by
  unfold State.residue
  repeat' with_reducible first
        | assumption | apply State.setF_keeps | apply State.orR_keeps | apply State.clrR_keeps | apply State.count_keeps
        | apply State.blkErr_keeps | apply State.setErr_keeps | apply State.machineFault_keeps | split

theorem State.runUnits_keeps {z : State} (s : State) (sh : ShadeIx) (p t k n : Nat) (h : Keeps z s) : Keeps z (s.runUnits sh p t k n) := by
  induction n generalizing s with
  | zero => exact h
  | succ n ih =>
    unfold State.runUnits
    repeat' first
      | with_reducible assumption
      | with_reducible first
        | apply ih | apply State.jobOver_keeps | apply State.opFault_keeps | apply State.countUnit_keeps | apply State.fastOver_keeps
        | apply State.residue_keeps | apply State.count_keeps | apply State.modTile_keeps
      | split
      | dsimp only

theorem State.kblockStart_keeps {z₀ : State} (s : State) (p t : Nat) (h_s : Keeps z₀ s) : Keeps z₀ (State.kblockStart s p t) := by
  unfold State.kblockStart
  repeat' with_reducible first | assumption | apply State.modTile_keeps | apply State.runUnits_keeps | split

/-! ## Store -/

theorem State.countConv_keeps {z₀ : State} (s : State) (sh : ShadeIx) (p u : Nat) (layer : Option Nat) (tile : Bool) (y : Tally) (h_s : Keeps z₀ s) :
    Keeps z₀ (State.countConv s sh p u layer tile y) := by
  unfold State.countConv
  repeat' with_reducible first | assumption | apply State.orR_keeps | apply State.satAdd_keeps | apply State.modSh_keeps | split

theorem State.umbraPut_keeps {z₀ : State} (s : State) (sh : ShadeIx) (u : UmbraEntry) (h_s : Keeps z₀ s) : Keeps z₀ (State.umbraPut s sh u) := by
  unfold State.umbraPut
  have key : ∀ k n, Keeps z₀ (s.wrN k (freeBytes s.fresh n)) := fun k n => State.wrN_keeps _ _ _ h_s
  generalize umbraBytes = n at *
  dsimp only
  split
  · exact State.count_keeps _ _ _ _ _ (State.setErr_keeps _ _ _ _ _ _ h_s)
  · exact State.modSh_keeps _ _ _ (Keeps.with_fresh _ (key _ _))

theorem State.umbraCopy_keeps {z₀ : State} (s : State) (sh : ShadeIx) (prism : Nat) (y : Drained) (h_s : Keeps z₀ s) :
    Keeps z₀ (State.umbraCopy s sh prism y) := by
  unfold State.umbraCopy
  repeat' with_reducible first | assumption | apply State.umbraPut_keeps | apply Keeps.foldl | split | dsimp only | (intro)

theorem State.shadowWrite_keeps {z₀ : State} (s : State) (c : Ctx) (t : TD) (slot i j : Nat) (v : Val) (h_s : Keeps z₀ s) :
    Keeps z₀ (State.shadowWrite s c t slot i j v).s := by
  unfold State.shadowWrite
  repeat' with_reducible first | assumption | apply State.wrBits_keeps | split

theorem State.shadowCopy_keeps {z₀ : State} (s : State) (c : Ctx) (y : Drained) (h_s : Keeps z₀ s) : Keeps z₀ (State.shadowCopy s c y).s := by
  unfold State.shadowCopy
  repeat' with_reducible first | assumption | apply Res.ok_keeps | apply resFold_keeps | apply State.shadowWrite_keeps | split | dsimp only | (intro)

theorem State.putTs_keeps {z₀ : State} (s : State) (c : Ctx) (y : Drained) (comp : Nat) (h_s : Keeps z₀ s) : Keeps z₀ (State.putTs s c y comp).s := by
  unfold State.putTs
  repeat' with_reducible first | assumption | apply Res.ok_keeps | apply State.wrSN_keeps | split

theorem State.addGlint_keeps {z₀ : State} (s : State) (p t n : Nat) (g : W64) (h_s : Keeps z₀ s) : Keeps z₀ (State.addGlint s p t n g) := by
  unfold State.addGlint
  repeat' first
    | with_reducible assumption
    | with_reducible first | apply Keeps.foldl
    | split
    | dsimp only
    | (intro)
    | (constructor <;> dsimp only <;> first | with_reducible rfl | with_reducible apply Keeps.pending | with_reducible apply Keeps.power | with_reducible apply Keeps.wf | with_reducible apply Keeps.memSet | with_reducible apply Keeps.memSetList | with_reducible apply Keeps.memClear)

theorem State.denseStore_keeps {z₀ : State} (s : State) (c : Ctx) (y : Drained) (comp : Nat) (h_s : Keeps z₀ s) :
    Keeps z₀ (State.denseStore s c y comp).1.s := by
  unfold State.denseStore
  repeat' with_reducible first | assumption | apply Res.ok_keeps | apply State.putDenseBlock_keeps | apply resTally_keeps | split | (intro)

theorem State.stencil_keeps {z₀ : State} (s : State) (c : Ctx) (ev n : Nat) (h_s : Keeps z₀ s) : Keeps z₀ (State.stencil s c ev n) := by
  unfold State.stencil
  repeat' with_reducible first | assumption | apply State.count_keeps

theorem State.stencilErr_keeps {z₀ : State} (s : State) (c : Ctx) (m : Nat) (h_s : Keeps z₀ s) : Keeps z₀ (State.stencilErr s c m) := by
  unfold State.stencilErr
  repeat' with_reducible first | assumption | apply State.setErr_keeps | apply State.stencil_keeps

theorem State.groupSplit_keeps {z₀ : State} (s : State) (c : Ctx) (h_s : Keeps z₀ s) : Keeps z₀ (State.groupSplit s c) := by
  unfold State.groupSplit
  repeat' with_reducible first | assumption | apply State.stencil_keeps | apply State.stencilErr_keeps

theorem State.blockGlint_keeps {z₀ : State} (s : State) (c : Ctx) (t : TD) (glen : Bool) (i : BlkImg) (lead : List Nat) (br bc ts : Nat) (h_s : Keeps z₀ s) :
    Keeps z₀ (State.blockGlint s c t glen i lead br bc ts) := by
  unfold State.blockGlint
  repeat' with_reducible first | assumption | apply State.addGlint_keeps | split

theorem State.closeGroup_keeps {z₀ : State} (s : State) (c : Ctx) (p : Nat) (g : OpenGroup) (h_s : Keeps z₀ s) :
    Keeps z₀ (State.closeGroup s c p g).s := by
  unfold State.closeGroup
  repeat' with_reducible first
        | assumption | apply Res.ok_keeps | apply Res.andThen_keeps | apply resFold_keeps | apply State.wrSN_keeps | apply State.putImg_keeps
        | apply State.stencil_keeps | apply State.stencilErr_keeps | apply State.blockGlint_keeps | apply Keeps.foldl | split | dsimp only
        | (intro)

theorem State.splitGroup_keeps {z₀ : State} (s : State) (c : Ctx) (p : Nat) (g : OpenGroup) (h_s : Keeps z₀ s) :
    Keeps z₀ (State.splitGroup s c p g).s := by
  unfold State.splitGroup
  repeat' with_reducible first
        | assumption | apply Res.ok_keeps | apply Res.andThen_keeps | apply State.groupSplit_keeps | apply State.closeGroup_keeps | (intro)

theorem State.setGroups_keeps {z₀ : State} (s : State) (c : Ctx) (p : Nat) (gs : List OpenGroup) (h_s : Keeps z₀ s) :
    Keeps z₀ (State.setGroups s c p gs) := by
  unfold State.setGroups
  repeat' with_reducible first | assumption | apply State.modTile_keeps

theorem State.closeGroups_keeps {z₀ : State} (s : State) (c : Ctx) (p : Nat) (keep : OpenGroup → Bool) (h_s : Keeps z₀ s) :
    Keeps z₀ (State.closeGroups s c p keep).s := by
  unfold State.closeGroups
  repeat' with_reducible first
        | assumption | apply Res.ok_keeps | apply Res.andThen_keeps | apply resFold_keeps | apply State.splitGroup_keeps
        | apply State.setGroups_keeps | (intro)

theorem State.closeOthers_keeps {z₀ : State} (s : State) (c : Ctx) (p tdc rho : Nat) (h_s : Keeps z₀ s) :
    Keeps z₀ (State.closeOthers s c p tdc rho).s := by
  unfold State.closeOthers
  repeat' with_reducible first | assumption | apply Res.ok_keeps | apply resFold_keeps | apply State.closeGroups_keeps | split | (intro)

theorem State.takeBlock_keeps {z₀ : State} (s : State) (c : Ctx) (p : Nat) (g : OpenGroup) (bc : Nat) (keep glen : Bool) (i : BlkImg) (h_s : Keeps z₀ s) :
    Keeps z₀ (State.takeBlock s c p g bc keep glen i).s := by
  unfold State.takeBlock
  repeat' with_reducible first
        | assumption | apply Res.ok_keeps | apply Res.andThen_keeps | apply Res.withRead_keeps | apply State.wrSN_keeps
        | apply State.putImg_keeps | apply State.stencil_keeps | apply State.blockGlint_keeps | split | dsimp only | (intro)

theorem State.assemble_keeps {z₀ : State} (s : State) (c : Ctx) (p tdc : Nat) (desc : FMap W64) (scw : W64) (glen : Bool) (brow rho bc : Nat) (keep : Bool) (i : BlkImg) (score : Val) (h_s : Keeps z₀ s) :
    Keeps z₀ (State.assemble s c p tdc desc scw glen brow rho bc keep i score).s := by
  unfold State.assemble
  repeat' with_reducible first
        | assumption | apply Res.ok_keeps | apply Res.andThen_keeps | apply State.groupSplit_keeps | apply State.closeGroup_keeps
        | apply State.setGroups_keeps | apply State.closeOthers_keeps | apply State.takeBlock_keeps | split | (intro)

theorem State.packedBlock_keeps {z₀ : State} (s : State) (c : Ctx) (q : QOp) (t : TD) (w : SCW) (glen : Bool) (lead : List Nat) (cols : List Nat) (b : SBlock) (h_s : Keeps z₀ s) :
    Keeps z₀ (State.packedBlock s c q t w glen lead cols b).s := by
  unfold State.packedBlock
  repeat' with_reducible first
        | assumption | apply Res.ok_keeps | apply Res.andThen_keeps | apply Res.withRead_keeps | apply State.putImg_keeps
        | apply State.stencil_keeps | apply State.stencilErr_keeps | apply State.blockGlint_keeps | split | (intro)

theorem State.bsgDecide_keeps {z₀ : State} (s : State) (c : Ctx) (p : Nat) (q : QOp) (tdc : Nat) (scw : Nat) (glen : Bool) (lead cols : List Nat) (row0 : Nat) (b : SBlock) (h_s : Keeps z₀ s) :
    Keeps z₀ (State.bsgDecide s c p q tdc scw glen lead cols row0 b).s := by
  unfold State.bsgDecide
  repeat' with_reducible first
        | assumption | apply Res.ok_keeps | apply Res.withRead_keeps | apply State.stencil_keeps | apply State.assemble_keeps
        | apply State.packedBlock_keeps | split | dsimp only | (intro)

theorem State.bsgStore_keeps {z₀ : State} (s : State) (c : Ctx) (y : Drained) (comp : Nat) (h_s : Keeps z₀ s) :
    Keeps z₀ (State.bsgStore s c y comp).1.s := by
  unfold State.bsgStore
  repeat' with_reducible first
        | assumption | apply Res.ok_keeps | apply resTally_keeps | apply State.closeGroups_keeps | apply State.bsgDecide_keeps | split
        | dsimp only | (intro)

theorem State.storeTail_keeps {z₀ : State} (s : State) (c : Ctx) (y : Drained) (h_s : Keeps z₀ s) : Keeps z₀ (State.storeTail s c y).s := by
  unfold State.storeTail
  repeat' with_reducible first
        | assumption | apply Res.andThen_keeps | apply State.countConv_keeps | apply State.umbraCopy_keeps | apply State.shadowCopy_keeps
        | apply State.putTs_keeps | apply State.addGlint_keeps | apply State.denseStore_keeps | apply State.closeGroups_keeps
        | apply State.bsgStore_keeps | split | dsimp only | (intro)

theorem State.gatherStore_keeps {z₀ : State} (s : State) (c : Ctx) (y : Drained) (col : Nat) (gs : List Gather) (h_s : Keeps z₀ s) :
    Keeps z₀ (State.gatherStore s c y col gs).s := by
  unfold State.gatherStore
  repeat' with_reducible first
        | assumption | apply Res.ok_keeps | apply Res.andThen_keeps | apply State.wrSN_keeps | apply resTally_keeps | apply State.putImg_keeps
        | apply State.countConv_keeps | apply State.stencil_keeps | apply State.blockGlint_keeps | apply Keeps.foldl | split | dsimp only
        | (intro)

theorem State.silStore_keeps {z₀ : State} (s : State) (c : Ctx) (y : Drained) (col : Nat) (gs : List Gather) (arm : SilArm) (h_s : Keeps z₀ s) :
    Keeps z₀ (State.silStore s c y col gs arm).s := by
  unfold State.silStore
  repeat' with_reducible first
        | assumption | apply Res.ok_keeps | apply State.wrSN_keeps | apply resTally_keeps | apply State.countConv_keeps | split | dsimp only
        | (intro)

theorem State.setDraining_keeps {z₀ : State} (s : State) (p t k i : Nat) (ps : Pass) (h_s : Keeps z₀ s) :
    Keeps z₀ (State.setDraining s p t k i ps) := by
  unfold State.setDraining
  repeat' with_reducible first | assumption | apply State.modTile_keeps

theorem State.drain_keeps {z₀ : State} (s : State) (p t : Nat) (h_s : Keeps z₀ s) : Keeps z₀ (State.drain s p t) := by
  unfold State.drain
  repeat' with_reducible first
        | assumption | apply State.modSh_keeps | apply State.opFaultAs_keeps | apply State.opFault_keeps | apply State.storeTail_keeps
        | apply State.gatherStore_keeps | apply State.silStore_keeps | apply State.setDraining_keeps | split | dsimp only | (intro)

theorem State.drainComplete_keeps {z₀ : State} (s : State) (p t : Nat) (h_s : Keeps z₀ s) : Keeps z₀ (State.drainComplete s p t) := by
  unfold State.drainComplete
  repeat' with_reducible first
        | assumption | apply State.count_keeps | apply State.modTile_keeps | apply State.arrayDone_keeps | apply State.mmsAdvance_keeps | split

theorem State.combineWrite_keeps {z₀ : State} (s : State) (sh : ShadeIx) (x : CombineSlot) (h_s : Keeps z₀ s) :
    Keeps z₀ (State.combineWrite s sh x) := by
  unfold State.combineWrite
  repeat' with_reducible first
        | assumption | apply State.opFault_keeps | apply State.arrayDone_keeps | apply State.storeTail_keeps | apply Keeps.foldl | split
        | dsimp only | (intro)

theorem State.tileSlotDone_keeps {z₀ : State} (s : State) (sh : ShadeIx) (comb : Nat) (x : CombineSlot) (j : Job) (h_s : Keeps z₀ s) :
    Keeps z₀ (State.tileSlotDone s sh comb x j) := by
  unfold State.tileSlotDone
  repeat' with_reducible first | assumption | apply State.modSh_keeps | apply State.combineWrite_keeps | split

theorem State.combinePartial_keeps {z₀ : State} (s : State) (sh : ShadeIx) (n : Nat) (h_s : Keeps z₀ s) : Keeps z₀ (State.combinePartial s sh n) := by
  unfold State.combinePartial
  repeat' with_reducible first
        | assumption | apply State.modSh_keeps | apply State.opFault_keeps | apply State.tileSlotDone_keeps | split | dsimp only | (intro)

theorem State.prismPartial_keeps {z₀ : State} (s : State) (sh : ShadeIx) (n : Nat) (h_s : Keeps z₀ s) : Keeps z₀ (State.prismPartial s sh n) := by
  unfold State.prismPartial
  repeat' with_reducible first
        | assumption | apply State.modSh_keeps | apply State.opFault_keeps | apply State.combineWrite_keeps | split | dsimp only | (intro)

/-! ## Scomp -/

theorem State.copyTs_keeps {z₀ : State} (s : State) (c : Ctx) (t1 t2 : TD) (h_s : Keeps z₀ s) : Keeps z₀ (State.copyTs s c t1 t2).s := by
  unfold State.copyTs
  repeat' with_reducible first
        | assumption | apply Res.ok_keeps | apply resFold_keeps | apply Res.withRead_keeps | apply State.wrSN_keeps | split | (intro)

theorem State.scompBlock_keeps {z : State} (s : State) (c : Ctx) (q : QOp) (td td2 scw : Nat) (lead : List Nat) (br bc : Nat) (g : Option OpenGroup)
    (h : Keeps z s) : Keeps z (s.scompBlock c q td td2 scw lead br bc g).1.s := by
  unfold State.scompBlock
  repeat' first
    | with_reducible assumption
    | with_reducible first
        | apply State.packedBlock_keeps | apply State.takeBlock_keeps | apply State.stencil_keeps | apply Res.andThen_keeps
        | apply State.closeGroup_keeps
    | split
    | dsimp only
    | (intro)

theorem State.scompBlocks_keeps {z : State} (s : State) (c : Ctx) (q : QOp) (td td2 scw : Nat) (l : List (List Nat × Nat × Nat)) (g : Option OpenGroup)
    (h : Keeps z s) : Keeps z (s.scompBlocks c q td td2 scw l g).s := by
  induction l generalizing s g with
  | nil => exact h
  | cons a l ih =>
    unfold State.scompBlocks
    have h1 := State.scompBlock_keeps s c q td td2 scw a.1 a.2.1 a.2.2 g h
    dsimp only
    split
    · exact h1
    · exact ih _ _ h1

theorem State.scompTile_keeps {z₀ : State} (s : State) (c : Ctx) (q : QOp) (td td2 scw : Nat) (h_s : Keeps z₀ s) :
    Keeps z₀ (State.scompTile s c q td td2 scw).s := by
  unfold State.scompTile
  repeat' with_reducible first
        | assumption | apply Res.andThen_keeps | apply resFold_keeps | apply State.closeGroups_keeps | apply State.copyTs_keeps
        | apply State.scompBlocks_keeps | (intro)

theorem State.scompRun_keeps {z₀ : State} (s : State) (sh : ShadeIx) (q : QOp) (g : GReg) (td td2 : Nat) (tiles : BitVec 8) (h_s : Keeps z₀ s) :
    Keeps z₀ (State.scompRun s sh q g td td2 tiles).s := by
  unfold State.scompRun
  repeat' with_reducible first | assumption | apply resFold_keeps | apply State.scompTile_keeps | (intro)

/-! ## Mask -/

theorem State.modMask_keeps {z₀ : State} (s : State) (sh : ShadeIx) (mo : Nat) (f : MaskSt → MaskSt) (h_s : Keeps z₀ s) :
    Keeps z₀ (State.modMask s sh mo f) := by
  unfold State.modMask
  repeat' with_reducible first | assumption | apply State.modSh_keeps

theorem State.maskEvent_keeps {z₀ : State} (s : State) (sh : ShadeIx) (ev n : Nat) (h_s : Keeps z₀ s) : Keeps z₀ (State.maskEvent s sh ev n) := by
  unfold State.maskEvent
  repeat' with_reducible first | assumption | apply State.count_keeps

theorem State.maskSpan_keeps {z₀ : State} (s : State) (sh : ShadeIx) (ev n : Nat) (h_s : Keeps z₀ s) : Keeps z₀ (State.maskSpan s sh ev n) := by
  unfold State.maskSpan
  repeat' with_reducible first | assumption | apply State.countSpan_keeps

theorem State.setBm_keeps {z₀ : State} (s : State) (c : Ctx) (m : MOD) (e b : Nat) (v : Bool) (h_s : Keeps z₀ s) :
    Keeps z₀ (State.setBm s c m e b v).s := by
  unfold State.setBm
  repeat' with_reducible first | assumption | apply Res.withRead_keeps | apply State.wrS_keeps | (intro)

theorem State.nanScores_keeps {z₀ : State} (s : State) (sh : ShadeIx) (mo n : Nat) (h_s : Keeps z₀ s) : Keeps z₀ (State.nanScores s sh mo n) := by
  unfold State.nanScores
  repeat' with_reducible first | assumption | apply State.maskErr_keeps | apply State.maskEvent_keeps | split

theorem State.selectEnd_keeps {z₀ : State} (s : State) (sh : ShadeIx) (q : QOp) (m : MOD) (w : PGW) (h_s : Keeps z₀ s) :
    Keeps z₀ (State.selectEnd s sh q m w) := by
  unfold State.selectEnd
  repeat' with_reducible first | assumption | apply State.maskEvent_keeps | apply State.maskSpan_keeps

theorem State.pruneRun_keeps {z₀ : State} (s : State) (sh : ShadeIx) (q : QOp) (mo : Nat) (g : GReg) (h_s : Keeps z₀ s) :
    Keeps z₀ (State.pruneRun s sh q mo g).s := by
  unfold State.pruneRun
  repeat' with_reducible first
        | assumption | apply Res.ok_keeps | apply Res.andThen_keeps | apply resFold_keeps | apply Res.withRead_keeps
        | apply State.modMask_keeps | apply State.maskEvent_keeps | apply State.setBm_keeps | apply State.nanScores_keeps
        | apply State.selectEnd_keeps | split | dsimp only | (intro)

theorem State.growRun_keeps {z₀ : State} (s : State) (sh : ShadeIx) (q : QOp) (mo : Nat) (g : GReg) (h_s : Keeps z₀ s) :
    Keeps z₀ (State.growRun s sh q mo g).s := by
  unfold State.growRun
  repeat' with_reducible first
        | assumption | apply Res.ok_keeps | apply Res.andThen_keeps | apply resFold_keeps | apply Res.withRead_keeps
        | apply State.maskErr_keeps | apply State.modMask_keeps | apply State.maskEvent_keeps | apply State.setBm_keeps
        | apply State.nanScores_keeps | apply State.selectEnd_keeps | split | dsimp only | (intro)

theorem State.writeLayout_keeps {z₀ : State} (s : State) (c : Ctx) (m : MOD) (e tag : Nat) (bs : List Nat) (h_s : Keeps z₀ s) :
    Keeps z₀ (State.writeLayout s c m e tag bs).s := by
  unfold State.writeLayout
  repeat' with_reducible first | assumption | apply Res.andThen_keeps | apply State.wrSN_keeps | apply Keeps.foldl | (intro)

theorem State.mirrorRun_keeps {z₀ : State} (s : State) (sh : ShadeIx) (q : QOp) (mo td : Nat) (h_s : Keeps z₀ s) :
    Keeps z₀ (State.mirrorRun s sh q mo td).s := by
  unfold State.mirrorRun
  repeat' with_reducible first
        | assumption | apply Res.ok_keeps | apply Res.andThen_keeps | apply Res.withRead_keeps | apply State.modMask_keeps
        | apply State.maskEvent_keeps | apply State.maskSpan_keeps | apply State.writeLayout_keeps | split | (intro)

theorem State.silhRun_keeps {z₀ : State} (s : State) (sh : ShadeIx) (q : QOp) (mo : Nat) (g : GReg) (tiles : BitVec 8) (p : Nat) (h_s : Keeps z₀ s) :
    Keeps z₀ (State.silhRun s sh q mo g tiles p).s := by
  unfold State.silhRun
  repeat' with_reducible first | assumption | apply State.modTile_keeps | apply Res.ok_keeps | apply resFold_keeps | split | (intro)

theorem State.mcommitRun_keeps {z₀ : State} (s : State) (sh : ShadeIx) (mo : Nat) (h_s : Keeps z₀ s) : Keeps z₀ (State.mcommitRun s sh mo).s := by
  unfold State.mcommitRun
  repeat' with_reducible first | assumption | apply Res.ok_keeps | apply State.modMask_keeps | split | dsimp only | (intro)

theorem State.maskCommits_keeps {z₀ : State} (s : State) (sh : ShadeIx) (addr : Nat) (h_s : Keeps z₀ s) : Keeps z₀ (State.maskCommits s sh addr) := by
  unfold State.maskCommits
  repeat' with_reducible first | assumption | apply State.modMask_keeps | apply Keeps.foldl | (intro)

theorem State.planeCopy_keeps {z₀ : State} (s : State) (sh : ShadeIx) (mo : Nat) (h_s : Keeps z₀ s) : Keeps z₀ (State.planeCopy s sh mo).s := by
  unfold State.planeCopy
  repeat' with_reducible first
        | assumption | apply Res.ok_keeps | apply Res.andThen_keeps | apply Res.withRead_keeps | apply State.wrSN_keeps
        | apply State.modMask_keeps | apply State.maskSpan_keeps | (intro)

theorem State.maskPlaneCopy_keeps {z₀ : State} (s : State) (sh : ShadeIx) (mo : Nat) (h_s : Keeps z₀ s) : Keeps z₀ (State.maskPlaneCopy s sh mo) := by
  unfold State.maskPlaneCopy
  repeat' with_reducible first
        | assumption | apply State.stopFault_keeps | apply State.recordXlate_keeps | apply State.markFault_keeps | apply State.planeCopy_keeps
        | split | dsimp only | (intro)

theorem State.maskRollback_keeps {z₀ : State} (s : State) (sh : ShadeIx) (rec : FMap MaskSt) (h_s : Keeps z₀ s) :
    Keeps z₀ (State.maskRollback s sh rec) := by
  unfold State.maskRollback
  repeat' with_reducible first
        | assumption | apply State.modMask_keeps | apply State.maskEvent_keeps | apply Keeps.foldl | split | dsimp only | (intro)

/-! ## Lens -/

theorem State.wrRow_keeps {z₀ : State} (s : State) (c : Ctx) (base r : Nat) (x : RowSt) (h_s : Keeps z₀ s) :
    Keeps z₀ (State.wrRow s c base r x).s := by
  unfold State.wrRow
  repeat' with_reducible first | assumption | apply State.wrSN_keeps

theorem LensJob.osmRow_keeps {z : State} (y : LensJob) (s : State) (a : LensAcc) (xs : List (Nat × LVal × Val)) (h : Keeps z s) :
    Keeps z (y.osmRow s a xs).1.s := by
  unfold LensJob.osmRow
  repeat' first
    | with_reducible assumption
    | with_reducible apply State.wrRow_keeps
    | split
    | exact h
    | dsimp only

theorem LensJob.stage_keeps {z : State} (y : LensJob) (n : Nat) (st : Stage) (s : State) (a : LensAcc) (vs : List LVal) (h : Keeps z s) :
    Keeps z (y.stage n st s a vs).1.s := by
  unfold LensJob.stage
  dsimp only
  split
  · suffices hf : ∀ (l : List (List (Nat × LVal × Val))) (acc : Res × LensAcc × List (Nat × Val)), Keeps z acc.1.s →
        Keeps z (l.foldl (fun (acc : Res × LensAcc × List (Nat × Val)) seg =>
          match acc.1.err with
          | some _ => acc
          | none =>
            let o := y.osmRow acc.1.s acc.2.1 seg
            (o.1, o.2.1, acc.2.2 ++ o.2.2)) acc).1.s from hf _ _ h
    intro l
    induction l with
    | nil => intro acc h; exact h
    | cons b l ih =>
      intro acc h
      refine ih _ ?_
      dsimp only
      split
      · exact h
      · exact LensJob.osmRow_keeps _ _ _ _ h
  · split <;> exact h

theorem LensJob.stages_keeps {z : State} (y : LensJob) (s : State) (a : LensAcc) (vs : List LVal) (n : Nat) (l : List Stage) (h : Keeps z s) :
    Keeps z (y.stages s a vs n l).1.s := by
  induction l generalizing s a vs n with
  | nil => exact h
  | cons st l ih =>
    unfold LensJob.stages
    have h1 := LensJob.stage_keeps y n st s a vs h
    dsimp only
    split
    · exact h1
    · exact ih _ _ _ _ h1

theorem LensJob.putDense_keeps {z₀ : State} (y : LensJob) (s : State) (v : LView) (w : QCW) (ts : Nat) (xs : List (LEl × Val × Nat)) (h_s : Keeps z₀ s) :
    Keeps z₀ (LensJob.putDense y s v w ts xs).1.s := by
  unfold LensJob.putDense
  repeat' with_reducible first | assumption | apply State.putDenseBlock_keeps | apply resTally_keeps | (intro)

theorem LensJob.putBsg_keeps {z₀ : State} (y : LensJob) (s : State) (v : LView) (w : QCW) (ts : Nat) (xs : List (LEl × Val × Nat)) (h_s : Keeps z₀ s) :
    Keeps z₀ (LensJob.putBsg y s v w ts xs).1.s := by
  unfold LensJob.putBsg
  repeat' with_reducible first | assumption | apply Res.ok_keeps | apply resTally_keeps | apply State.putImg_keeps | split | (intro)

theorem LensJob.putOut_keeps {z₀ : State} (y : LensJob) (s : State) (n : Nat) (v : LView) (vs : List LVal) (h_s : Keeps z₀ s) :
    Keeps z₀ (LensJob.putOut y s n v vs).1.s := by
  unfold LensJob.putOut
  repeat' with_reducible first
        | assumption | apply Res.ok_keeps | apply Res.andThen_keeps | apply State.wrSN_keeps | apply resTally_keeps
        | apply LensJob.putDense_keeps | apply LensJob.putBsg_keeps | split | (intro)

theorem LensJob.shadow_keeps {z₀ : State} (y : LensJob) (s : State) (u : UpdWord) (xs : List (List Nat × Val)) (h_s : Keeps z₀ s) :
    Keeps z₀ (LensJob.shadow y s u xs).s := by
  unfold LensJob.shadow
  repeat' with_reducible first | assumption | apply Res.ok_keeps | apply resFold_keeps | apply State.shadowWrite_keeps | split | dsimp only | (intro)

theorem LensJob.shadowAbsent_keeps {z₀ : State} (y : LensJob) (s : State) (u : UpdWord) (h_s : Keeps z₀ s) :
    Keeps z₀ (LensJob.shadowAbsent y s u).s := by
  unfold LensJob.shadowAbsent
  repeat' with_reducible first
        | assumption | apply Res.ok_keeps | apply resFold_keeps | apply Res.withRead_keeps | apply LensJob.shadow_keeps | split | (intro)

theorem LensJob.carry_keeps {z₀ : State} (y : LensJob) (s : State) (v : LView) (h_s : Keeps z₀ s) : Keeps z₀ (LensJob.carry y s v).s := by
  unfold LensJob.carry
  repeat' with_reducible first
        | assumption | apply Res.ok_keeps | apply resFold_keeps | apply Res.withRead_keeps | apply State.putImg_keeps | split | (intro)

theorem LensJob.unit_keeps {z₀ : State} (y : LensJob) (s : State) (z : LensAcc) (els : List LEl) (h_s : Keeps z₀ s) :
    Keeps z₀ (LensJob.unit y s z els).1.s := by
  unfold LensJob.unit
  repeat' with_reducible first
        | assumption | apply Res.ok_keeps | apply Res.andThen_keeps | apply resTally_keeps | apply LensJob.stages_keeps
        | apply LensJob.putOut_keeps | apply LensJob.shadow_keeps | apply Keeps.foldl | split | dsimp only | (intro)

theorem LensJob.units_keeps {z : State} (y : LensJob) (s : State) (a : LensAcc) (l : List (List LEl)) (h : Keeps z s) :
    Keeps z (y.units s a l).1.s := by
  induction l generalizing s a with
  | nil => exact h
  | cons u l ih =>
    unfold LensJob.units
    have h1 := LensJob.unit_keeps y s a u h
    dsimp only
    split
    · exact h1
    · exact ih _ _ h1

theorem LensJob.alphas_keeps {z₀ : State} (y : LensJob) (s : State) (z : LensAcc) (h_s : Keeps z₀ s) : Keeps z₀ (LensJob.alphas y s z).s := by
  unfold LensJob.alphas
  repeat' with_reducible first | assumption | apply resFold_keeps | apply Res.withRead_keeps | apply State.wrRow_keeps | (intro)

theorem State.lensErr_keeps {z₀ : State} (s : State) (p cd bit : Nat) (h_s : Keeps z₀ s) : Keeps z₀ (State.lensErr s p cd bit) := by
  unfold State.lensErr
  repeat' with_reducible first | assumption | apply State.setF_keeps | apply State.setErr_keeps | split

theorem State.lensCount_keeps {z₀ : State} (s : State) (sh : ShadeIx) (p cd : Nat) (upd : Option UpdWord) (z : LensAcc) (h_s : Keeps z₀ s) :
    Keeps z₀ (State.lensCount s sh p cd upd z) := by
  unfold State.lensCount
  repeat' with_reducible first
        | assumption | apply State.orR_keeps | apply State.satAdd_keeps | apply State.count_keeps | apply State.countUnits_keeps
        | apply State.countConv_keeps | apply State.lensErr_keeps | split | dsimp only | (intro)

theorem LensJob.run_keeps {z₀ : State} (y : LensJob) (s : State) (walk : Option LView) (band : Bool) (h_s : Keeps z₀ s) :
    Keeps z₀ (LensJob.run y s walk band).1.s := by
  unfold LensJob.run
  repeat' with_reducible first
        | assumption | apply Res.ok_keeps | apply Res.andThen_keeps | apply resFold_keeps | apply LensJob.shadowAbsent_keeps
        | apply LensJob.carry_keeps | apply LensJob.units_keeps | apply LensJob.alphas_keeps | split | (intro)

theorem State.lensPrism_keeps {z₀ : State} (s : State) (sh : ShadeIx) (q : QOp) (cd : Nat) (upd : Option UpdWord) (p : Nat) (h_s : Keeps z₀ s) :
    Keeps z₀ (State.lensPrism s sh q cd upd p).s := by
  unfold State.lensPrism
  repeat' with_reducible first
        | assumption | apply Res.ok_keeps | apply State.lensCount_keeps | apply LensJob.run_keeps | split | dsimp only | (intro)

theorem State.lensStatus_keeps {z₀ : State} (s : State) (p ctx cd : Nat) (h_s : Keeps z₀ s) : Keeps z₀ (State.lensStatus s p ctx cd) := by
  unfold State.lensStatus
  repeat' with_reducible first | assumption | apply State.setF_keeps | split

theorem State.lensRun_keeps {z₀ : State} (s : State) (sh : ShadeIx) (q : QOp) (upd : Bool) (cd : Nat) (g : GReg) (h_s : Keeps z₀ s) :
    Keeps z₀ (State.lensRun s sh q upd cd g).s := by
  unfold State.lensRun
  repeat' with_reducible first
        | assumption | apply State.count_keeps | apply Res.ok_keeps | apply Res.andThen_keeps | apply resFold_keeps
        | apply State.lensPrism_keeps | apply State.lensStatus_keeps | apply Keeps.foldl | split | (intro)

/-! ## Focus -/

theorem State.putWords_keeps {z₀ : State} (s : State) (c : Ctx) (t : TD) (co : List Nat) (ws : List Nat) (h_s : Keeps z₀ s) :
    Keeps z₀ (State.putWords s c t co ws).s := by
  unfold State.putWords
  repeat' with_reducible first | assumption | apply resFold_keeps | apply State.wrBits_keeps | (intro)

theorem State.focusPut_keeps {z₀ : State} (s : State) (c : Ctx) (o : FocusOpc) (w : FCW) (v x : TD) (seg : List Nat) (y : FOut) (h_s : Keeps z₀ s) :
    Keeps z₀ (State.focusPut s c o w v x seg y).s := by
  unfold State.focusPut
  repeat' with_reducible first | assumption | apply Res.ok_keeps | apply Res.andThen_keeps | apply State.putWords_keeps | split | (intro)

theorem State.focusPrism_keeps {z₀ : State} (s : State) (sh : ShadeIx) (q : QOp) (o : FocusOpc) (a : FocusArgs) (p : Nat) (h_s : Keeps z₀ s) :
    Keeps z₀ (State.focusPrism s sh q o a p).s := by
  unfold State.focusPrism
  repeat' with_reducible first
        | assumption | apply State.setF_keeps | apply State.orR_keeps | apply State.count_keeps | apply State.countSpan_keeps
        | apply State.countUnits_keeps | apply State.setErr_keeps | apply Res.ok_keeps | apply Res.andThen_keeps | apply resFold_keeps
        | apply LensJob.run_keeps | apply State.focusPut_keeps | apply Keeps.foldl | split | dsimp only | (intro)

theorem State.focusRun_keeps {z₀ : State} (s : State) (sh : ShadeIx) (q : QOp) (o : FocusOpc) (a : FocusArgs) (h_s : Keeps z₀ s) :
    Keeps z₀ (State.focusRun s sh q o a).s := by
  unfold State.focusRun
  repeat' with_reducible first | assumption | apply resFold_keeps | apply State.focusPrism_keeps | (intro)

/-! ## Speckle -/

theorem State.loadSeed_keeps {z₀ : State} (s : State) (sh : ShadeIx) (seed : W64) (gen : Bool) (h_s : Keeps z₀ s) :
    Keeps z₀ (State.loadSeed s sh seed gen) := by
  unfold State.loadSeed
  repeat' with_reducible first
        | assumption | apply State.setF_keeps | apply State.setR64_keeps | apply State.modSh_keeps | split | dsimp only | (intro)

theorem State.seedRun_keeps {z₀ : State} (s : State) (sh : ShadeIx) (q : QOp) (g : GReg) (gen : Bool) (h_s : Keeps z₀ s) :
    Keeps z₀ (State.seedRun s sh q g gen) := by
  unfold State.seedRun
  repeat' with_reducible first | assumption | apply State.loadSeed_keeps

theorem State.freshStart_keeps {z₀ : State} (s : State) (sh : ShadeIx) (h_s : Keeps z₀ s) : Keeps z₀ (State.freshStart s sh) := by
  unfold State.freshStart
  repeat' first
    | with_reducible assumption
    | with_reducible first | apply Keeps.foldl
    | split
    | dsimp only
    | (intro)
    | (constructor <;> dsimp only <;> first | with_reducible rfl | with_reducible apply Keeps.pending | with_reducible apply Keeps.power | with_reducible apply Keeps.wf | with_reducible apply Keeps.memSet | with_reducible apply Keeps.memSetList | with_reducible apply Keeps.memClear)

theorem State.freshServe_keeps {z₀ : State} (s : State) (sh : ShadeIx) (q : QOp) (g : GReg) (seed : W64) (h_s : Keeps z₀ s) :
    Keeps z₀ (State.freshServe s sh q g seed) := by
  unfold State.freshServe
  repeat' first
    | with_reducible assumption
    | with_reducible first
        | apply State.count_keeps | apply State.modSh_keeps | apply State.finishNow_keeps | apply State.loadSeed_keeps | apply Keeps.foldl
    | split
    | dsimp only
    | (intro)
    | (constructor <;> dsimp only <;> first | with_reducible rfl | with_reducible apply Keeps.pending | with_reducible apply Keeps.power | with_reducible apply Keeps.wf | with_reducible apply Keeps.memSet | with_reducible apply Keeps.memSetList | with_reducible apply Keeps.memClear)

theorem State.freshComplete_keeps {z₀ : State} (s : State) (sh : ShadeIx) (h_s : Keeps z₀ s) : Keeps z₀ (State.freshComplete s sh) := by
  unfold State.freshComplete
  repeat' first
    | with_reducible assumption
    | with_reducible first
        | apply State.setF_keeps | apply State.count_keeps | apply State.modSh_keeps | apply State.shadeRecord_keeps
        | apply State.freshServe_keeps | apply Keeps.foldl
    | split
    | dsimp only
    | (intro)
    | (refine Keeps.ofPair ?_ (by with_reducible assumption))
    | (refine Keeps.ofOk ?_ (by with_reducible assumption))
    | (refine Keeps.ofOver ?_ (by with_reducible assumption))
    | (refine Keeps.ofWait ?_ (by with_reducible assumption))
    | (refine Keeps.ofFault ?_ (by with_reducible assumption))
    | (refine Keeps.ofGo ?_ (by with_reducible assumption))
    | (refine Keeps.ofCommitOver ?_ (by with_reducible assumption))
    | (refine Keeps.ofWritten ?_ (by with_reducible assumption))
    | (constructor <;> dsimp only <;> first | with_reducible rfl | with_reducible apply Keeps.pending | with_reducible apply Keeps.power | with_reducible apply Keeps.wf | with_reducible apply Keeps.memSet | with_reducible apply Keeps.memSetList | with_reducible apply Keeps.memClear)

theorem State.drawPrism_keeps {z₀ : State} (s : State) (sh : ShadeIx) (q : QOp) (g : GReg) (td p : Nat) (h_s : Keeps z₀ s) :
    Keeps z₀ (State.drawPrism s sh q g td p).s := by
  unfold State.drawPrism
  repeat' with_reducible first
        | assumption | apply State.count_keeps | apply State.countUnits_keeps | apply Res.ok_keeps | apply State.wrBits_keeps
        | apply resTally_keeps | apply State.countConv_keeps | split | dsimp only | (intro)

theorem State.drawRun_keeps {z₀ : State} (s : State) (sh : ShadeIx) (q : QOp) (g : GReg) (td : Nat) (h_s : Keeps z₀ s) :
    Keeps z₀ (State.drawRun s sh q g td).s := by
  unfold State.drawRun
  repeat' with_reducible first | assumption | apply resFold_keeps | apply State.drawPrism_keeps | (intro)

theorem State.sampleOsc_keeps {z₀ : State} (s : State) (i : Fin 4) (b : Bool) (h_s : Keeps z₀ s) : Keeps z₀ (State.sampleOsc s i b) := by
  unfold State.sampleOsc
  repeat' first
    | with_reducible assumption
    | with_reducible first | apply State.setErr_keeps | apply Keeps.foldl
    | split
    | dsimp only
    | (intro)
    | (constructor <;> dsimp only <;> first | with_reducible rfl | with_reducible apply Keeps.pending | with_reducible apply Keeps.power | with_reducible apply Keeps.wf | with_reducible apply Keeps.memSet | with_reducible apply Keeps.memSetList | with_reducible apply Keeps.memClear)

theorem State.noiseStatus_keeps {z₀ : State} (s : State) (h_s : Keeps z₀ s) : Keeps z₀ (State.noiseStatus s) := by
  unfold State.noiseStatus
  repeat' with_reducible first
        | assumption | apply State.setR_keeps | apply State.setErr_keeps | apply State.raise_keeps | apply Res.ok_keeps | apply Keeps.foldl
        | split | dsimp only | (intro)

theorem State.noiseSample_keeps {z₀ : State} (s : State) (bits : BitVec 4) (h_s : Keeps z₀ s) : Keeps z₀ (State.noiseSample s bits) := by
  unfold State.noiseSample
  repeat' with_reducible first | assumption | apply State.sampleOsc_keeps | apply State.noiseStatus_keeps | apply Keeps.foldl | (intro)

/-! ## Safe -/

theorem State.umbraAccount_keeps {z₀ : State} (s : State) (sh : ShadeIx) (q : QOp) (u : UmbraEntry) (h_s : Keeps z₀ s) :
    Keeps z₀ (State.umbraAccount s sh q u).s := by
  unfold State.umbraAccount
  repeat' with_reducible first
        | assumption | apply State.count_keeps | apply State.modSh_keeps | apply State.tick_keeps | apply Res.ok_keeps
        | apply Res.withRead_keeps | apply Keeps.foldl | split | (intro)

theorem State.umbraRun_keeps {z₀ : State} (s : State) (sh : ShadeIx) (q : QOp) (h_s : Keeps z₀ s) : Keeps z₀ (State.umbraRun s sh q).s := by
  unfold State.umbraRun
  repeat' with_reducible first
        | assumption | apply State.modSh_keeps | apply Res.ok_keeps | apply Res.andThen_keeps | apply resFold_keeps
        | apply State.umbraAccount_keeps | (intro)

theorem State.govRecord_keeps {z₀ : State} (s : State) (sh : ShadeIx) (d : FMap W64) (l old new : Nat) (h_s : Keeps z₀ s) :
    Keeps z₀ (State.govRecord s sh d l old new) := by
  unfold State.govRecord
  repeat' with_reducible first | assumption | apply State.shadeRecord_keeps

theorem State.precisionLimit_keeps {z₀ : State} (s : State) (sh : ShadeIx) (baddr l : Nat) (h_s : Keeps z₀ s) :
    Keeps z₀ (State.precisionLimit s sh baddr l) := by
  unfold State.precisionLimit
  repeat' with_reducible first
        | assumption | apply State.setF_keeps | apply State.count_keeps | apply State.setErr_keeps | apply State.raise_keeps
        | apply State.reportFault_keeps | split

theorem State.governLayer_keeps {z₀ : State} (s : State) (sh : ShadeIx) (baddr : Nat) (skip : Bool) (l : Nat) (h_s : Keeps z₀ s) :
    Keeps z₀ (State.governLayer s sh baddr skip l) := by
  unfold State.governLayer
  repeat' with_reducible first
        | assumption | apply State.setF_keeps | apply State.count_keeps | apply State.modSh_keeps | apply State.setErr_keeps
        | apply State.govRecord_keeps | apply State.precisionLimit_keeps | split | dsimp only | (intro)

theorem State.setLscale_keeps {z₀ : State} (s : State) (sh : ShadeIx) (e : Int) (h_s : Keeps z₀ s) : Keeps z₀ (State.setLscale s sh e) := by
  unfold State.setLscale
  repeat' with_reducible first | assumption | apply State.setF_keeps

theorem State.lossScale_keeps {z₀ : State} (s : State) (sh : ShadeIx) (red : Nat) (h_s : Keeps z₀ s) : Keeps z₀ (State.lossScale s sh red) := by
  unfold State.lossScale
  repeat' with_reducible first
        | assumption | apply State.setF_keeps | apply State.setErr_keeps | apply LensJob.run_keeps | apply State.setLscale_keeps | split
        | dsimp only | (intro)

theorem State.umbraDiscard_keeps {z₀ : State} (s : State) (sh : ShadeIx) (h_s : Keeps z₀ s) : Keeps z₀ (State.umbraDiscard s sh) := by
  unfold State.umbraDiscard
  repeat' with_reducible first | assumption | apply State.count_keeps | apply State.modSh_keeps | apply Keeps.foldl | (intro)

theorem State.stepBoundary_keeps {z₀ : State} (s : State) (sh : ShadeIx) (baddr : Nat) (h_s : Keeps z₀ s) :
    Keeps z₀ (State.stepBoundary s sh baddr) := by
  unfold State.stepBoundary
  repeat' with_reducible first
        | assumption | apply State.setR_keeps | apply State.setF_keeps | apply State.setR64_keeps | apply State.count_keeps
        | apply State.modSh_keeps | apply State.governLayer_keeps | apply State.lossScale_keeps | apply State.umbraDiscard_keeps
        | apply Keeps.foldl | split | (intro)

/-! ## Region -/

theorem State.sealUnit_keeps {z₀ : State} (s : State) (c : Ctx) (y : RegTensor) (u : Nat) (h_s : Keeps z₀ s) :
    Keeps z₀ (State.sealUnit s c y u).s := by
  unfold State.sealUnit
  repeat' with_reducible first
        | assumption | apply State.setR_keeps | apply State.count_keeps | apply State.modSh_keeps | apply Res.ok_keeps
        | apply Res.andThen_keeps | apply Res.withRead_keeps | apply State.wrSN_keeps | (intro)

theorem State.verifyUnit_keeps {z₀ : State} (s : State) (c : Ctx) (y : RegTensor) (u : Nat) (h_s : Keeps z₀ s) :
    Keeps z₀ (State.verifyUnit s c y u).s := by
  unfold State.verifyUnit
  repeat' with_reducible first | assumption | apply State.count_keeps | apply Res.ok_keeps | apply Res.withRead_keeps | split | (intro)

/-! ## Beams -/

theorem State.beamErr_keeps {z₀ : State} (s : State) (beam p bit : Nat) (h_s : Keeps z₀ s) : Keeps z₀ (State.beamErr s beam p bit) := by
  unfold State.beamErr
  repeat' with_reducible first | assumption | apply State.setF_keeps | apply State.setErr_keeps | split

theorem State.blockMiss_keeps {z₀ : State} (s : State) (beam p : Nat) (h_s : Keeps z₀ s) : Keeps z₀ (State.blockMiss s beam p) := by
  unfold State.blockMiss
  repeat' with_reducible first | assumption | apply State.count_keeps | apply State.beamErr_keeps

theorem State.copyBytes_keeps {z₀ : State} (s : State) (c : Ctx) (sa a sb b n : Nat) (h_s : Keeps z₀ s) :
    Keeps z₀ (State.copyBytes s c sa a sb b n).s := by
  unfold State.copyBytes
  repeat' with_reducible first | assumption | apply Res.withRead_keeps | apply State.wrSN_keeps | (intro)

theorem State.copyOpt_keeps {z₀ : State} (s : State) (c : Ctx) (sa : Nat) (a : Option Nat) (sb : Nat) (b : Option Nat) (n : Nat) (h_s : Keeps z₀ s) :
    Keeps z₀ (State.copyOpt s c sa a sb b n).s := by
  unfold State.copyOpt
  repeat' with_reducible first | assumption | apply Res.ok_keeps | apply State.copyBytes_keeps | split

theorem State.copyEl_keeps {z₀ : State} (s : State) (c : Ctx) (ta tb : TD) (la lb : ELoc) (h_s : Keeps z₀ s) :
    Keeps z₀ (State.copyEl s c ta tb la lb).s := by
  unfold State.copyEl
  repeat' with_reducible first
        | assumption | apply Res.andThen_keeps | apply Res.withRead_keeps | apply State.wrBits_keeps | apply State.copyOpt_keeps | (intro)

theorem State.zeroEl_keeps {z₀ : State} (s : State) (c : Ctx) (t : TD) (l : ELoc) (h_s : Keeps z₀ s) : Keeps z₀ (State.zeroEl s c t l).s := by
  unfold State.zeroEl
  repeat' with_reducible first
        | assumption | apply Res.ok_keeps | apply Res.andThen_keeps | apply State.wrSN_keeps | apply State.wrBits_keeps | split | dsimp only
        | (intro)

theorem State.denseEl_keeps {z₀ : State} (s : State) (c : Ctx) (src : Option TD) (dst : TD) (r : PartRange) (e : LEl) (h_s : Keeps z₀ s) :
    Keeps z₀ (State.denseEl s c src dst r e).s := by
  unfold State.denseEl
  repeat' with_reducible first | assumption | apply State.copyEl_keeps | apply State.zeroEl_keeps | split

theorem State.denseMove_keeps {z₀ : State} (s : State) (sh : ShadeIx) (q : QOp) (part : Nat) (src : Option TD) (dst : TD) (ps : List Nat) (h_s : Keeps z₀ s) :
    Keeps z₀ (State.denseMove s sh q part src dst ps).s := by
  unfold State.denseMove
  repeat' with_reducible first
        | assumption | apply Res.ok_keeps | apply Res.andThen_keeps | apply resFold_keeps | apply State.sealUnit_keeps
        | apply State.verifyUnit_keeps | apply State.denseEl_keeps | split | dsimp only | (intro)

theorem State.copyBlock_keeps {z₀ : State} (s : State) (c : Ctx) (ta tb : TD) (a b : Nat × Nat) (h_s : Keeps z₀ s) :
    Keeps z₀ (State.copyBlock s c ta tb a b).s := by
  unfold State.copyBlock
  repeat' with_reducible first
        | assumption | apply Res.ok_keeps | apply Res.andThen_keeps | apply State.copyBytes_keeps | split | dsimp only | (intro)

theorem State.plainBlock_keeps {z₀ : State} (s : State) (c : Ctx) (beam : Nat) (a b : LView) (rho bc : Nat) (h_s : Keeps z₀ s) :
    Keeps z₀ (State.plainBlock s c beam a b rho bc).s := by
  unfold State.plainBlock
  repeat' with_reducible first
        | assumption | apply Res.ok_keeps | apply Res.withRead_keeps | apply State.putImg_keeps | apply State.blockMiss_keeps
        | apply State.copyBlock_keeps | split | (intro)

theorem State.plainGroup_keeps {z₀ : State} (s : State) (c : Ctx) (a b : LView) (j0 rho g : Nat) (h_s : Keeps z₀ s) :
    Keeps z₀ (State.plainGroup s c a b j0 rho g).s := by
  unfold State.plainGroup
  repeat' with_reducible first
        | assumption | apply Res.ok_keeps | apply Res.andThen_keeps | apply resFold_keeps | apply Res.withRead_keeps | apply State.wrSN_keeps
        | apply State.copyBlock_keeps | split | (intro)

theorem State.plainRow_keeps {z₀ : State} (s : State) (c : Ctx) (beam : Nat) (a b : LView) (j0 rho : Nat) (h_s : Keeps z₀ s) :
    Keeps z₀ (State.plainRow s c beam a b j0 rho).s := by
  unfold State.plainRow
  repeat' with_reducible first
        | assumption | apply Res.ok_keeps | apply Res.andThen_keeps | apply resFold_keeps | apply Res.withRead_keeps | apply State.wrSN_keeps
        | apply State.copyOpt_keeps | apply State.plainBlock_keeps | apply State.plainGroup_keeps | split | (intro)

theorem State.rowUnits_keeps {z₀ : State} (s : State) (c : Ctx) (ra rb : Option RegTensor) (rows : List Nat) (f : State → Nat → Res) (h_s : Keeps z₀ s) (h_f : ∀ y v1, Keeps z₀ y → Keeps z₀ (f y v1).s) :
    Keeps z₀ (State.rowUnits s c ra rb rows f).s := by
  unfold State.rowUnits
  repeat' with_reducible first
        | assumption | apply h_f | apply Res.ok_keeps | apply Res.andThen_keeps | apply resFold_keeps | apply State.sealUnit_keeps
        | apply State.verifyUnit_keeps | split | (intro)

theorem State.plainBsg_keeps {z₀ : State} (s : State) (sh : ShadeIx) (q : QOp) (beam part : Nat) (ta tb : TD) (p : Nat) (h_s : Keeps z₀ s) :
    Keeps z₀ (State.plainBsg s sh q beam part ta tb p).s := by
  unfold State.plainBsg
  repeat' with_reducible first
        | assumption | apply Res.ok_keeps | apply Res.withRead_keeps | apply State.plainRow_keeps | apply State.rowUnits_keeps | (intro)

theorem State.buildLayout_keeps {z₀ : State} (s : State) (c : Ctx) (b : TD) (m : MOD) (pres : List (Nat × Nat × Nat)) (h_s : Keeps z₀ s) :
    Keeps z₀ (State.buildLayout s c b m pres).s := by
  unfold State.buildLayout
  repeat' with_reducible first
        | assumption | apply Res.ok_keeps | apply Res.andThen_keeps | apply resFold_keeps | apply State.wrSN_keeps | apply Keeps.foldl | split
        | (intro)

theorem State.gatherPrism_keeps {z₀ : State} (s : State) (sh : ShadeIx) (q : QOp) (w : BeamWord) (a b : TD) (p : Nat) (h_s : Keeps z₀ s) :
    Keeps z₀ (State.gatherPrism s sh q w a b p).s := by
  unfold State.gatherPrism
  repeat' with_reducible first
        | assumption | apply Res.ok_keeps | apply Res.andThen_keeps | apply resFold_keeps | apply Res.withRead_keeps
        | apply State.copyOpt_keeps | apply State.copyBlock_keeps | apply State.rowUnits_keeps | apply State.buildLayout_keeps | split
        | (intro)

theorem State.scatterBlock_keeps {z₀ : State} (s : State) (c : Ctx) (beam : Nat) (w : BeamWord) (a b : TD) (ma m : MOD) (e : Nat) (rg : Nat × Nat) (x : Nat × Nat) (h_s : Keeps z₀ s) :
    Keeps z₀ (State.scatterBlock s c beam w a b ma m e rg x).s := by
  unfold State.scatterBlock
  repeat' with_reducible first
        | assumption | apply Res.ok_keeps | apply Res.andThen_keeps | apply Res.withRead_keeps | apply State.blockMiss_keeps
        | apply State.copyOpt_keeps | apply State.copyBlock_keeps | split | (intro)

theorem State.scatterPrism_keeps {z₀ : State} (s : State) (sh : ShadeIx) (q : QOp) (beam : Nat) (w : BeamWord) (a b : TD) (p : Nat) (h_s : Keeps z₀ s) :
    Keeps z₀ (State.scatterPrism s sh q beam w a b p).s := by
  unfold State.scatterPrism
  repeat' with_reducible first | assumption | apply resFold_keeps | apply State.rowUnits_keeps | apply State.scatterBlock_keeps | split | (intro)

theorem State.scrubBsg_keeps {z₀ : State} (s : State) (sh : ShadeIx) (q : QOp) (part : Nat) (t : TD) (p : Nat) (h_s : Keeps z₀ s) :
    Keeps z₀ (State.scrubBsg s sh q part t p).s := by
  unfold State.scrubBsg
  repeat' with_reducible first
        | assumption | apply Res.ok_keeps | apply Res.andThen_keeps | apply resFold_keeps | apply State.wrSN_keeps | split | (intro)

theorem Res.beamEnd_keeps {z₀ : State} (r : Res) (beam p : Nat) (h_r : Keeps z₀ r.s) : Keeps z₀ (Res.beamEnd r beam p).s := by
  unfold Res.beamEnd
  repeat' with_reducible first | assumption | apply State.count_keeps | apply Res.ok_keeps | apply State.beamErr_keeps | split

theorem State.copyRun_keeps {z₀ : State} (s : State) (sh : ShadeIx) (q : QOp) (beam tds tdd : Nat) (g : GReg) (h_s : Keeps z₀ s) :
    Keeps z₀ (State.copyRun s sh q beam tds tdd g).s := by
  unfold State.copyRun
  repeat' with_reducible first
        | assumption | apply State.count_keeps | apply Res.ok_keeps | apply resFold_keeps | apply State.denseMove_keeps
        | apply State.plainBsg_keeps | apply State.gatherPrism_keeps | apply State.scatterPrism_keeps | apply Res.beamEnd_keeps | split
        | dsimp only | (intro)

theorem State.scrubRun_keeps {z₀ : State} (s : State) (sh : ShadeIx) (q : QOp) (beam tdd : Nat) (g : GReg) (h_s : Keeps z₀ s) :
    Keeps z₀ (State.scrubRun s sh q beam tdd g).s := by
  unfold State.scrubRun
  repeat' with_reducible first
        | assumption | apply State.count_keeps | apply Res.ok_keeps | apply resFold_keeps | apply State.denseMove_keeps
        | apply State.scrubBsg_keeps | apply Res.beamEnd_keeps | split | dsimp only | (intro)

/-! ## Train -/

theorem State.commitRecord_keeps {z₀ : State} (s : State) (sh : ShadeIx) (seq kind outcome line slots cvalid : Nat) (h_s : Keeps z₀ s) :
    Keeps z₀ (State.commitRecord s sh seq kind outcome line slots cvalid) := by
  unfold State.commitRecord
  repeat' with_reducible first | assumption | apply State.shadeRecord_keeps

theorem State.clearWritten_keeps {z₀ : State} (s : State) (sh : ShadeIx) (h_s : Keeps z₀ s) : Keeps z₀ (State.clearWritten s sh) := by
  unfold State.clearWritten
  repeat' with_reducible first | assumption | apply State.setR_keeps | apply State.modSh_keeps | apply Keeps.foldl | (intro)

theorem State.commitStart_keeps {z₀ : State} (s : State) (sh : ShadeIx) (q : QOp) (tds : Nat) (h_s : Keeps z₀ s) :
    Keeps z₀ (State.commitStart s sh q tds).st := by
  unfold State.commitStart
  repeat' with_reducible first
        | assumption | apply State.count_keeps | apply Res.ok_keeps | apply State.wrSN_keeps | apply State.tsErr_keeps
        | apply State.commitRecord_keeps | apply State.clearWritten_keeps | apply Ready.wait_keeps | apply Ready.fault_keeps
        | apply Ready.go_keeps | apply Sent.ok_keeps | apply Sent.over_keeps | apply CommitStart.over_keeps | apply CommitStart.written_keeps
        | split | dsimp only | (intro)

theorem State.commitRegs_keeps {z₀ : State} (s : State) (sh : ShadeIx) (h_s : Keeps z₀ s) : Keeps z₀ (State.commitRegs s sh) := by
  unfold State.commitRegs
  repeat' with_reducible first
        | assumption | apply State.setR_keeps | apply State.setF_keeps | apply State.setR64_keeps | apply State.clearWritten_keeps
        | apply Keeps.foldl | (intro)

theorem State.commitApply_keeps {z₀ : State} (s : State) (sh : ShadeIx) (h_s : Keeps z₀ s) : Keeps z₀ (State.commitApply s sh) := by
  unfold State.commitApply
  repeat' with_reducible first
        | assumption | apply State.count_keeps | apply Res.ok_keeps | apply State.finishNow_keeps | apply State.commitRecord_keeps
        | apply State.commitRegs_keeps | split

theorem State.phaseSettle_keeps {z₀ : State} (s : State) (sh : ShadeIx) (h_s : Keeps z₀ s) : Keeps z₀ (State.phaseSettle s sh) := by
  unfold State.phaseSettle
  repeat' with_reducible first | assumption | apply State.setR64_keeps | apply State.modSh_keeps

theorem State.phaseSet_keeps {z₀ : State} (s : State) (sh : ShadeIx) (ph : BitVec 3) (h_s : Keeps z₀ s) : Keeps z₀ (State.phaseSet s sh ph) := by
  unfold State.phaseSet
  repeat' with_reducible first | assumption | apply State.setR_keeps | apply State.modSh_keeps | apply State.phaseSettle_keeps

theorem State.phaseWords_keeps {z₀ : State} (s : State) (sh : ShadeIx) (ws : List Nat) (h_s : Keeps z₀ s) : Keeps z₀ (State.phaseWords s sh ws) := by
  unfold State.phaseWords
  repeat' with_reducible first | assumption | apply State.wrN_keeps | apply State.tsErr_keeps | split | dsimp only | (intro)

theorem State.phaseBoundary_keeps {z₀ : State} (s : State) (sh : ShadeIx) (step : Nat) (h_s : Keeps z₀ s) :
    Keeps z₀ (State.phaseBoundary s sh step) := by
  unfold State.phaseBoundary
  repeat' with_reducible first
        | assumption | apply State.setR64_keeps | apply State.count_keeps | apply State.modSh_keeps | apply State.shadeRecord_keeps
        | apply State.phaseSettle_keeps | apply State.phaseWords_keeps | apply Keeps.foldl | (intro)

end Sys2Proof.Machine
end

