-- ==== Sys2Proof/Laws/KeepsLinks.lean ====
section
/-! SUPPORT. What the operations of Jorx, of liveness and of telemetry keep: the queue of commands, the power modes and the canonical form of memory. -/

set_option linter.unusedTactic false
set_option linter.unreachableTactic false
set_option linter.unusedVariables false

namespace Sys2Proof.Machine

/-! ## Links -/

theorem State.jorxErr_keeps {z₀ : State} (s : State) (bit : Nat) (h_s : Keeps z₀ s) : Keeps z₀ (State.jorxErr s bit) := by
  unfold State.jorxErr
  repeat' with_reducible first | assumption | apply State.setErr_keeps | apply State.raise_keeps

theorem State.jorxCount_keeps {z₀ : State} (s : State) (ev n : Nat) (h_s : Keeps z₀ s) : Keeps z₀ (State.jorxCount s ev n) := by
  unfold State.jorxCount
  repeat' with_reducible first | assumption | apply State.count_keeps

theorem State.modJorx_keeps {z₀ : State} (s : State) (f : JorxSt → JorxSt) (h_s : Keeps z₀ s) : Keeps z₀ (State.modJorx s f) := by
  unfold State.modJorx
  repeat' first
    | with_reducible assumption
    | with_reducible first | apply Keeps.foldl
    | split
    | dsimp only
    | (intro)
    | (constructor <;> dsimp only <;> first | with_reducible rfl | with_reducible apply Keeps.pending | with_reducible apply Keeps.power | with_reducible apply Keeps.wf | with_reducible apply Keeps.memSet | with_reducible apply Keeps.memSetList | with_reducible apply Keeps.memClear)

theorem State.resetStreams_keeps {z₀ : State} (s : State) (d : Nat) (h_s : Keeps z₀ s) : Keeps z₀ (State.resetStreams s d) := by
  unfold State.resetStreams
  repeat' with_reducible first | assumption | apply State.modJorx_keeps

theorem State.setPeer_keeps {z₀ : State} (s : State) (d : Nat) (p : Peer) (h_s : Keeps z₀ s) : Keeps z₀ (State.setPeer s d p) := by
  unfold State.setPeer
  repeat' with_reducible first | assumption | apply State.modJorx_keeps | apply State.resetStreams_keeps | split

theorem State.modPort_keeps {z₀ : State} (s : State) (i : PortIx) (f : PortSt → PortSt) (h_s : Keeps z₀ s) : Keeps z₀ (State.modPort s i f) := by
  unfold State.modPort
  repeat' with_reducible first | assumption | apply State.modJorx_keeps

theorem State.portCount_keeps {z₀ : State} (s : State) (i : PortIx) (ev n : Nat) (h_s : Keeps z₀ s) : Keeps z₀ (State.portCount s i ev n) := by
  unfold State.portCount
  repeat' with_reducible first | assumption | apply State.count_keeps | apply State.jorxCount_keeps

theorem State.linkRecord_keeps {z₀ : State} (s : State) (i : PortIx) (ev : Nat) (h_s : Keeps z₀ s) : Keeps z₀ (State.linkRecord s i ev) := by
  unfold State.linkRecord
  repeat' with_reducible first | assumption | apply State.deviceRecord_keeps

theorem State.portErr_keeps {z₀ : State} (s : State) (i : PortIx) (bit : Nat) (h_s : Keeps z₀ s) : Keeps z₀ (State.portErr s i bit) := by
  unfold State.portErr
  repeat' with_reducible first | assumption | apply State.setErr_keeps

theorem State.portDown_keeps {z₀ : State} (s : State) (i : PortIx) (h_s : Keeps z₀ s) : Keeps z₀ (State.portDown s i) := by
  unfold State.portDown
  repeat' with_reducible first
        | assumption | apply State.setF_keeps | apply State.raise_keeps | apply State.modPort_keeps | apply State.linkRecord_keeps
        | apply State.portErr_keeps

theorem State.retrain_keeps {z₀ : State} (s : State) (i : PortIx) (h_s : Keeps z₀ s) : Keeps z₀ (State.retrain s i) := by
  unfold State.retrain
  repeat' with_reducible first
        | assumption | apply State.setF_keeps | apply State.modPort_keeps | apply State.portErr_keeps | apply State.portDown_keeps | split
        | dsimp only | (intro)

theorem State.sendFlits_keeps {z₀ : State} (s : State) (i : PortIx) (vc : Nat) (msg : Option Msg) (n : Nat) (h_s : Keeps z₀ s) :
    Keeps z₀ (State.sendFlits s i vc msg n) := by
  unfold State.sendFlits
  repeat' with_reducible first | assumption | apply State.modPort_keeps | apply State.portCount_keeps

theorem State.sendControl_keeps {z₀ : State} (s : State) (i : PortIx) (h_s : Keeps z₀ s) : Keeps z₀ (State.sendControl s i) := by
  unfold State.sendControl
  repeat' with_reducible first | assumption | apply State.sendFlits_keeps

theorem State.sendOn_keeps {z₀ : State} (s : State) (i : PortIx) (m : Msg) (h_s : Keeps z₀ s) : Keeps z₀ (State.sendOn s i m) := by
  unfold State.sendOn
  repeat' with_reducible first | assumption | apply State.sendFlits_keeps

theorem State.rxFlits_keeps {z₀ : State} (s : State) (i : PortIx) (n : Nat) (h_s : Keeps z₀ s) : Keeps z₀ (State.rxFlits s i n) := by
  unfold State.rxFlits
  repeat' with_reducible first | assumption | apply State.modPort_keeps | apply State.portCount_keeps

theorem State.noRoute_keeps {z₀ : State} (s : State) (h_s : Keeps z₀ s) : Keeps z₀ (State.noRoute s) := by
  unfold State.noRoute
  repeat' with_reducible first | assumption | apply State.jorxCount_keeps

theorem State.forwardMsg_keeps {z₀ : State} (s : State) (m : Msg) (avoid : Option PortIx) (h_s : Keeps z₀ s) :
    Keeps z₀ (State.forwardMsg s m avoid).1 := by
  unfold State.forwardMsg
  repeat' with_reducible first | assumption | apply State.sendOn_keeps | apply State.noRoute_keeps | split

theorem State.inject_keeps {z₀ : State} (s : State) (m : Msg) (h_s : Keeps z₀ s) : Keeps z₀ (State.inject s m).1 := by
  unfold State.inject
  repeat' with_reducible first | assumption | apply State.count_keeps | apply State.forwardMsg_keeps | split

theorem State.post_keeps {z₀ : State} (s : State) (m : Msg) (h_s : Keeps z₀ s) : Keeps z₀ (State.post s m) := by
  unfold State.post
  repeat' with_reducible first | assumption | apply State.inject_keeps

theorem State.takeSeq_keeps {z₀ : State} (s : State) (sh : ShadeIx) (key : Nat) (h_s : Keeps z₀ s) : Keeps z₀ (State.takeSeq s sh key).1 := by
  unfold State.takeSeq
  repeat' with_reducible first | assumption | apply State.modSh_keeps | apply State.modJorx_keeps

theorem State.takeIn_keeps {z₀ : State} (s : State) (i : PortIx) (key seq : Nat) (h_s : Keeps z₀ s) : Keeps z₀ (State.takeIn s i key seq).1 := by
  unfold State.takeIn
  repeat' with_reducible first
        | assumption | apply State.jorxErr_keeps | apply State.modJorx_keeps | apply State.portCount_keeps | split | dsimp only | (intro)

theorem State.receive_keeps {z₀ : State} (s : State) (i : PortIx) (m : Msg) (f : State → State) (h_s : Keeps z₀ s) (h_f : ∀ y, Keeps z₀ y → Keeps z₀ (f y)) :
    Keeps z₀ (State.receive s i m f) := by
  unfold State.receive
  repeat' with_reducible first
        | assumption | apply h_f | apply State.portCount_keeps | apply State.rxFlits_keeps | apply State.forwardMsg_keeps | split | dsimp only
        | (intro)

theorem State.jshErr_keeps {z₀ : State} (s : State) (sh : ShadeIx) (bit : Nat) (h_s : Keeps z₀ s) : Keeps z₀ (State.jshErr s sh bit) := by
  unfold State.jshErr
  repeat' with_reducible first | assumption | apply State.setErr_keeps | apply State.raise_keeps

theorem State.linkStatus_keeps {z₀ : State} (s : State) (sh : ShadeIx) (bit : Nat) (h_s : Keeps z₀ s) : Keeps z₀ (State.linkStatus s sh bit) := by
  unfold State.linkStatus
  repeat' with_reducible first | assumption | apply State.wrN_keeps | split | dsimp only | (intro)

theorem State.abnormalMarks_keeps {z₀ : State} (s : State) (sh : ShadeIx) (q : QOp) (code : Nat) (h_s : Keeps z₀ s) :
    Keeps z₀ (State.abnormalMarks s sh q code) := by
  unfold State.abnormalMarks
  repeat' with_reducible first | assumption | apply State.reportFault_keeps | apply State.jshErr_keeps | apply State.linkStatus_keeps

theorem State.abnormal_keeps {z₀ : State} (s : State) (sh : ShadeIx) (q : QOp) (code : Nat) (h_s : Keeps z₀ s) :
    Keeps z₀ (State.abnormal s sh q code) := by
  unfold State.abnormal
  repeat' with_reducible first | assumption | apply State.modSh_keeps | apply State.finishNow_keeps | apply State.abnormalMarks_keeps

/-! ## Capture -/

theorem State.genTables_keeps {z₀ : State} (s : State) (p n : Nat) (m : MOD) (bs : List (Nat × Nat)) (h_s : Keeps z₀ s) :
    Keeps z₀ (State.genTables s p n m bs) := by
  unfold State.genTables
  repeat' with_reducible first | assumption | apply State.wrN_keeps

theorem State.genPrepare_keeps {z₀ : State} (s : State) (sh : ShadeIx) (q : QOp) (e : Nat × TD) (h_s : Keeps z₀ s) :
    Keeps z₀ (State.genPrepare s sh q e).s := by
  unfold State.genPrepare
  repeat' with_reducible first
        | assumption | apply State.count_keeps | apply State.countSpan_keeps | apply State.countUnits_keeps | apply State.modSh_keeps
        | apply Res.ok_keeps | apply Res.andThen_keeps | apply resFold_keeps | apply Res.withRead_keeps | apply State.genTables_keeps | split
        | (intro)

theorem State.capture_keeps {z₀ : State} (s : State) (sh : ShadeIx) (q : QOp) (h_s : Keeps z₀ s) : Keeps z₀ (State.capture s sh q).st := by
  unfold State.capture
  repeat' with_reducible first
        | assumption | apply State.cycleEv_keeps | apply resFold_keeps | apply State.genPrepare_keeps | apply Ready.wait_keeps
        | apply Ready.fault_keeps | apply Ready.go_keeps | apply Sent.ok_keeps | apply Sent.over_keeps | split | dsimp only | (intro)

/-! ## Remote -/

theorem State.putEl_keeps {z₀ : State} (s : State) (c : Ctx) (t : TD) (l : ELoc) (code scale ts : Nat) (h_s : Keeps z₀ s) :
    Keeps z₀ (State.putEl s c t l code scale ts).s := by
  unfold State.putEl
  repeat' with_reducible first
        | assumption | apply Res.ok_keeps | apply Res.andThen_keeps | apply State.wrSN_keeps | apply State.wrBits_keeps | split | dsimp only
        | (intro)

theorem State.putItem_keeps {z₀ : State} (s : State) (c : Ctx) (q : QOp) (n part : Nat) (r : PartRange) (x : Item) (h_s : Keeps z₀ s) :
    Keeps z₀ (State.putItem s c q n part r x).s := by
  unfold State.putItem
  repeat' with_reducible first
        | assumption | apply Res.ok_keeps | apply Res.withRead_keeps | apply State.wrSN_keeps | apply State.putEl_keeps | split | dsimp only
        | (intro)

theorem State.rejectMarks_keeps {z₀ : State} (s : State) (sh : ShadeIx) (dev : Nat) (rsh : ShadeIx) (h_s : Keeps z₀ s) :
    Keeps z₀ (State.rejectMarks s sh dev rsh) := by
  unfold State.rejectMarks
  repeat' with_reducible first | assumption | apply State.count_keeps | apply State.setErr_keeps | split

theorem State.remoteFault_keeps {z₀ : State} (s : State) (sh : ShadeIx) (f : OpFault) (h_s : Keeps z₀ s) : Keeps z₀ (State.remoteFault s sh f) := by
  unfold State.remoteFault
  repeat' with_reducible first | assumption | apply State.count_keeps | apply State.recordXlate_keeps | split

theorem State.acceptItems_keeps {z₀ : State} (s : State) (sh : ShadeIx) (dev : Nat) (rsh : ShadeIx) (t : MsgTD) (items : List Item) (h_s : Keeps z₀ s) :
    Keeps z₀ (State.acceptItems s sh dev rsh t items).1 := by
  unfold State.acceptItems
  repeat' first
    | with_reducible assumption
    | with_reducible first
        | apply resFold_keeps | apply State.putItem_keeps | apply State.rejectMarks_keeps | apply State.remoteFault_keeps | apply Keeps.foldl
    | split
    | dsimp only
    | (intro)
    | (refine Keeps.ofPair ?_ (by with_reducible assumption))
    | (refine Keeps.ofOk ?_ (by with_reducible assumption))
    | (refine Keeps.ofOver ?_ (by with_reducible assumption))
    | (refine Keeps.ofWait ?_ (by with_reducible assumption))
    | (refine Keeps.ofFault ?_ (by with_reducible assumption))
    | (refine Keeps.ofGo ?_ (by with_reducible assumption))
    | (refine Keeps.ofCommitOver ?_ (by with_reducible assumption))
    | (refine Keeps.ofWritten ?_ (by with_reducible assumption))
    | (constructor <;> dsimp only <;> first | with_reducible rfl | with_reducible apply Keeps.pending | with_reducible apply Keeps.power | with_reducible apply Keeps.wf | with_reducible apply Keeps.memSet | with_reducible apply Keeps.memSetList | with_reducible apply Keeps.memClear)

theorem State.serveItems_keeps {z₀ : State} (s : State) (sh : ShadeIx) (dev : Nat) (rsh : ShadeIx) (t : MsgTD) (first n : Nat) (h_s : Keeps z₀ s) :
    Keeps z₀ (State.serveItems s sh dev rsh t first n).1 := by
  unfold State.serveItems
  repeat' with_reducible first
        | assumption | apply Res.ok_keeps | apply State.rejectMarks_keeps | apply State.remoteFault_keeps | split | dsimp only | (intro)

theorem State.transferReady_keeps {z₀ : State} (s : State) (sh : ShadeIx) (q : QOp) (x : Transfer) (h_s : Keeps z₀ s) :
    Keeps z₀ (State.transferReady s sh q x).st := by
  unfold State.transferReady
  repeat' with_reducible first
        | assumption | apply State.count_keeps | apply State.setErr_keeps | apply Ready.wait_keeps | apply Ready.fault_keeps
        | apply Ready.go_keeps | apply Sent.ok_keeps | apply Sent.over_keeps | split

theorem State.rejected_keeps {z₀ : State} (s : State) (sh : ShadeIx) (q : QOp) (p : Nat) (h_s : Keeps z₀ s) : Keeps z₀ (State.rejected s sh q p) := by
  unfold State.rejected
  repeat' with_reducible first
        | assumption | apply State.modSh_keeps | apply State.opFault_keeps | apply State.beamErr_keeps | apply State.jshErr_keeps | split

theorem State.openDone_keeps {z₀ : State} (s : State) (sh : ShadeIx) (q : QOp) (h_s : Keeps z₀ s) : Keeps z₀ (State.openDone s sh q) := by
  unfold State.openDone
  repeat' with_reducible first | assumption | apply State.count_keeps | apply State.finish_keeps | apply Keeps.foldl | split | (intro)

theorem Sent.andThen_keeps {z₀ : State} (r : Sent) (f : State → Sent) (h_r : Keeps z₀ r.st) (h_f : ∀ y, Keeps z₀ y → Keeps z₀ (f y).st) :
    Keeps z₀ (Sent.andThen r f).st := by
  unfold Sent.andThen
  split
  · exact h_f _ h_r
  · exact h_r

theorem sentFold_keeps {z : State} {α : Type} (f : State → α → Sent) (s : State) (l : List α) (h : Keeps z s)
    (hf : ∀ y x, Keeps z y → Keeps z (f y x).st) : Keeps z (sentFold f s l).st := by
  induction l generalizing s with
  | nil => exact h
  | cons a l ih => exact Sent.andThen_keeps _ _ (hf _ _ h) fun y hy => ih y hy

theorem State.sendPart_keeps {z₀ : State} (s : State) (sh : ShadeIx) (q : QOp) (x : Transfer) (p arg len : Nat) (seq : Nat) (b : Body) (h_s : Keeps z₀ s) :
    Keeps z₀ (State.sendPart s sh q x p arg len seq b).st := by
  unfold State.sendPart
  repeat' with_reducible first
        | assumption | apply State.count_keeps | apply State.modSh_keeps | apply Res.ok_keeps | apply State.inject_keeps
        | apply State.abnormal_keeps | apply Ready.wait_keeps | apply Ready.fault_keeps | apply Ready.go_keeps | apply Sent.ok_keeps
        | apply Sent.over_keeps | split | dsimp only | (intro)

theorem State.putPart_keeps {z₀ : State} (s : State) (sh : ShadeIx) (q : QOp) (x : Transfer) (p : Nat) (v : LView) (r : PartRange) (ch : Nat × Nat) (h_s : Keeps z₀ s) :
    Keeps z₀ (State.putPart s sh q x p v r ch).st := by
  unfold State.putPart
  repeat' with_reducible first
        | assumption | apply Res.ok_keeps | apply State.opFault_keeps | apply State.jorxCount_keeps | apply State.takeSeq_keeps
        | apply State.acceptItems_keeps | apply State.rejected_keeps | apply State.sendPart_keeps | apply Ready.wait_keeps
        | apply Ready.fault_keeps | apply Ready.go_keeps | apply Sent.ok_keeps | apply Sent.over_keeps | split | dsimp only | (intro)

theorem State.getPart_keeps {z₀ : State} (s : State) (sh : ShadeIx) (q : QOp) (x : Transfer) (p : Nat) (ch : Nat × Nat) (h_s : Keeps z₀ s) :
    Keeps z₀ (State.getPart s sh q x p ch).st := by
  unfold State.getPart
  repeat' first
    | with_reducible assumption
    | with_reducible first
        | apply Res.ok_keeps | apply resFold_keeps | apply State.opFault_keeps | apply State.jorxCount_keeps | apply State.modJorx_keeps
        | apply State.putItem_keeps | apply State.serveItems_keeps | apply State.rejected_keeps | apply State.sendPart_keeps
        | apply Ready.wait_keeps | apply Ready.fault_keeps | apply Ready.go_keeps | apply Sent.ok_keeps | apply Sent.over_keeps
        | apply Keeps.foldl
    | split
    | dsimp only
    | (intro)
    | (refine Keeps.ofPair ?_ (by with_reducible assumption))
    | (refine Keeps.ofOk ?_ (by with_reducible assumption))
    | (refine Keeps.ofOver ?_ (by with_reducible assumption))
    | (refine Keeps.ofWait ?_ (by with_reducible assumption))
    | (refine Keeps.ofFault ?_ (by with_reducible assumption))
    | (refine Keeps.ofGo ?_ (by with_reducible assumption))
    | (refine Keeps.ofCommitOver ?_ (by with_reducible assumption))
    | (refine Keeps.ofWritten ?_ (by with_reducible assumption))
    | (constructor <;> dsimp only <;> first | with_reducible rfl | with_reducible apply Keeps.pending | with_reducible apply Keeps.power | with_reducible apply Keeps.wf | with_reducible apply Keeps.memSet | with_reducible apply Keeps.memSetList | with_reducible apply Keeps.memClear)

theorem State.transferVerify_keeps {z₀ : State} (s : State) (sh : ShadeIx) (q : QOp) (x : Transfer) (p : Nat) (h_s : Keeps z₀ s) :
    Keeps z₀ (State.transferVerify s sh q x p).s := by
  unfold State.transferVerify
  repeat' with_reducible first | assumption | apply Res.ok_keeps | apply resFold_keeps | apply State.verifyUnit_keeps | split | dsimp only | (intro)

theorem State.transferPrism_keeps {z₀ : State} (s : State) (sh : ShadeIx) (q : QOp) (x : Transfer) (p : Nat) (h_s : Keeps z₀ s) :
    Keeps z₀ (State.transferPrism s sh q x p).st := by
  unfold State.transferPrism
  repeat' with_reducible first
        | assumption | apply Res.ok_keeps | apply State.opFault_keeps | apply sentFold_keeps | apply State.putPart_keeps
        | apply State.getPart_keeps | apply State.transferVerify_keeps | apply Ready.wait_keeps | apply Ready.fault_keeps
        | apply Ready.go_keeps | apply Sent.ok_keeps | apply Sent.over_keeps | split | dsimp only | (intro)

theorem State.transferGo_keeps {z₀ : State} (s : State) (sh : ShadeIx) (q : QOp) (x : Transfer) (h_s : Keeps z₀ s) :
    Keeps z₀ (State.transferGo s sh q x) := by
  unfold State.transferGo
  repeat' first
    | with_reducible assumption
    | with_reducible first
        | apply Res.ok_keeps | apply State.abnormal_keeps | apply State.openDone_keeps | apply sentFold_keeps | apply State.transferPrism_keeps
        | apply Ready.wait_keeps | apply Ready.fault_keeps | apply Ready.go_keeps | apply Sent.ok_keeps | apply Sent.over_keeps
        | apply Keeps.foldl
    | split
    | dsimp only
    | (intro)
    | (refine Keeps.ofPair ?_ (by with_reducible assumption))
    | (refine Keeps.ofOk ?_ (by with_reducible assumption))
    | (refine Keeps.ofOver ?_ (by with_reducible assumption))
    | (refine Keeps.ofWait ?_ (by with_reducible assumption))
    | (refine Keeps.ofFault ?_ (by with_reducible assumption))
    | (refine Keeps.ofGo ?_ (by with_reducible assumption))
    | (refine Keeps.ofCommitOver ?_ (by with_reducible assumption))
    | (refine Keeps.ofWritten ?_ (by with_reducible assumption))
    | (constructor <;> dsimp only <;> first | with_reducible rfl | with_reducible apply Keeps.pending | with_reducible apply Keeps.power | with_reducible apply Keeps.wf | with_reducible apply Keeps.memSet | with_reducible apply Keeps.memSetList | with_reducible apply Keeps.memClear)

theorem State.answer_keeps {z₀ : State} (s : State) (m : Msg) (len : Nat) (b : Body) (h_s : Keeps z₀ s) : Keeps z₀ (State.answer s m len b) := by
  unfold State.answer
  repeat' with_reducible first | assumption | apply State.forwardMsg_keeps | split

theorem State.putArrives_keeps {z₀ : State} (s : State) (i : PortIx) (m : Msg) (h_s : Keeps z₀ s) : Keeps z₀ (State.putArrives s i m) := by
  unfold State.putArrives
  repeat' first
    | with_reducible assumption
    | with_reducible first
        | apply State.portCount_keeps | apply State.takeIn_keeps | apply State.acceptItems_keeps | apply State.answer_keeps | apply Keeps.foldl
    | split
    | dsimp only
    | (intro)
    | (refine Keeps.ofPair ?_ (by with_reducible assumption))
    | (refine Keeps.ofOk ?_ (by with_reducible assumption))
    | (refine Keeps.ofOver ?_ (by with_reducible assumption))
    | (refine Keeps.ofWait ?_ (by with_reducible assumption))
    | (refine Keeps.ofFault ?_ (by with_reducible assumption))
    | (refine Keeps.ofGo ?_ (by with_reducible assumption))
    | (refine Keeps.ofCommitOver ?_ (by with_reducible assumption))
    | (refine Keeps.ofWritten ?_ (by with_reducible assumption))
    | (constructor <;> dsimp only <;> first | with_reducible rfl | with_reducible apply Keeps.pending | with_reducible apply Keeps.power | with_reducible apply Keeps.wf | with_reducible apply Keeps.memSet | with_reducible apply Keeps.memSetList | with_reducible apply Keeps.memClear)

theorem State.getReqArrives_keeps {z₀ : State} (s : State) (i : PortIx) (m : Msg) (h_s : Keeps z₀ s) : Keeps z₀ (State.getReqArrives s i m) := by
  unfold State.getReqArrives
  repeat' first
    | with_reducible assumption
    | with_reducible first | apply State.portCount_keeps | apply State.serveItems_keeps | apply State.answer_keeps | apply Keeps.foldl
    | split
    | dsimp only
    | (intro)
    | (refine Keeps.ofPair ?_ (by with_reducible assumption))
    | (refine Keeps.ofOk ?_ (by with_reducible assumption))
    | (refine Keeps.ofOver ?_ (by with_reducible assumption))
    | (refine Keeps.ofWait ?_ (by with_reducible assumption))
    | (refine Keeps.ofFault ?_ (by with_reducible assumption))
    | (refine Keeps.ofGo ?_ (by with_reducible assumption))
    | (refine Keeps.ofCommitOver ?_ (by with_reducible assumption))
    | (refine Keeps.ofWritten ?_ (by with_reducible assumption))
    | (constructor <;> dsimp only <;> first | with_reducible rfl | with_reducible apply Keeps.pending | with_reducible apply Keeps.power | with_reducible apply Keeps.wf | with_reducible apply Keeps.memSet | with_reducible apply Keeps.memSetList | with_reducible apply Keeps.memClear)

theorem State.closeMsg_keeps {z₀ : State} (s : State) (sh : ShadeIx) (o : OpenMsg) (h_s : Keeps z₀ s) : Keeps z₀ (State.closeMsg s sh o) := by
  unfold State.closeMsg
  repeat' with_reducible first | assumption | apply State.modSh_keeps

theorem State.ackArrives_keeps {z₀ : State} (s : State) (m : Msg) (h_s : Keeps z₀ s) : Keeps z₀ (State.ackArrives s m) := by
  unfold State.ackArrives
  repeat' with_reducible first | assumption | apply State.openDone_keeps | apply State.closeMsg_keeps | split | dsimp only | (intro)

theorem State.nackArrives_keeps {z₀ : State} (s : State) (m : Msg) (h_s : Keeps z₀ s) : Keeps z₀ (State.nackArrives s m) := by
  unfold State.nackArrives
  repeat' with_reducible first | assumption | apply State.rejected_keeps | apply State.closeMsg_keeps | split

theorem State.getDataArrives_keeps {z₀ : State} (s : State) (i : PortIx) (m : Msg) (h_s : Keeps z₀ s) : Keeps z₀ (State.getDataArrives s i m) := by
  unfold State.getDataArrives
  repeat' with_reducible first
        | assumption | apply State.count_keeps | apply State.modSh_keeps | apply resFold_keeps | apply State.opFault_keeps
        | apply State.portCount_keeps | apply State.putItem_keeps | apply State.openDone_keeps | apply State.closeMsg_keeps | split
        | dsimp only | (intro)

theorem State.ackTimeout_keeps {z₀ : State} (s : State) (sh : ShadeIx) (h_s : Keeps z₀ s) : Keeps z₀ (State.ackTimeout s sh) := by
  unfold State.ackTimeout
  repeat' with_reducible first | assumption | apply State.abnormal_keeps | apply State.closeMsg_keeps | split

/-! ## Collect -/

theorem State.modColl_keeps {z₀ : State} (s : State) (sh : ShadeIx) (f : CollSt → CollSt) (h_s : Keeps z₀ s) : Keeps z₀ (State.modColl s sh f) := by
  unfold State.modColl
  repeat' with_reducible first | assumption | apply State.modSh_keeps

theorem State.redFlags_keeps {z₀ : State} (s : State) (sh : ShadeIx) (q : QOp) (words : List W64) (h_s : Keeps z₀ s) :
    Keeps z₀ (State.redFlags s sh q words) := by
  unfold State.redFlags
  repeat' with_reducible first | assumption | apply State.orR_keeps | split

theorem State.collEnd_keeps {z₀ : State} (s : State) (sh : ShadeIx) (g : GroupIx) (number : Nat) (q : QOp) (words : List W64) (dead : Bool) (h_s : Keeps z₀ s) :
    Keeps z₀ (State.collEnd s sh g number q words dead) := by
  unfold State.collEnd
  repeat' with_reducible first
        | assumption | apply State.setR_keeps | apply State.count_keeps | apply State.finish_keeps | apply State.jorxCount_keeps
        | apply State.modColl_keeps | apply State.redFlags_keeps

theorem State.freeWords_keeps {z : State} (s : State) (n : Nat) (h : Keeps z s) : Keeps z (s.freeWords n).1 := by
  induction n generalizing s with
  | zero => exact h
  | succ n ih => exact ih _ (State.tick_keeps _ h)

theorem State.collDead_keeps {z₀ : State} (s : State) (sh : ShadeIx) (g : GroupIx) (number : Nat) (q : QOp) (h_s : Keeps z₀ s) :
    Keeps z₀ (State.collDead s sh g number q) := by
  unfold State.collDead
  repeat' with_reducible first | assumption | apply State.abnormalMarks_keeps | apply State.collEnd_keeps | apply State.freeWords_keeps

theorem State.memberTry_keeps {z₀ : State} (s : State) (sh : ShadeIx) (m : Member) (h_s : Keeps z₀ s) : Keeps z₀ (State.memberTry s sh m) := by
  unfold State.memberTry
  repeat' with_reducible first | assumption | apply State.collEnd_keeps | apply State.collDead_keeps | split

theorem State.setMember_keeps {z₀ : State} (s : State) (sh : ShadeIx) (m : Member) (h_s : Keeps z₀ s) : Keeps z₀ (State.setMember s sh m) := by
  unfold State.setMember
  repeat' with_reducible first | assumption | apply State.modColl_keeps

theorem State.bcastPart_keeps {z₀ : State} (s : State) (sh : ShadeIx) (c : CollId) (m : MsgTD) (f : Fmt) (items : List Item) (d : Nat) (h_s : Keeps z₀ s) :
    Keeps z₀ (State.bcastPart s sh c m f items d) := by
  unfold State.bcastPart
  repeat' with_reducible first | assumption | apply State.post_keeps | apply State.takeSeq_keeps

theorem State.bcastSend_keeps {z₀ : State} (s : State) (sh : ShadeIx) (g : GroupIx) (number : Nat) (q : QOp) (h_s : Keeps z₀ s) :
    Keeps z₀ (State.bcastSend s sh g number q) := by
  unfold State.bcastSend
  repeat' first
    | with_reducible assumption
    | with_reducible first
        | apply Res.ok_keeps | apply State.opFault_keeps | apply sentFold_keeps | apply State.bcastPart_keeps | apply Ready.wait_keeps
        | apply Ready.fault_keeps | apply Ready.go_keeps | apply Sent.ok_keeps | apply Sent.over_keeps | apply Keeps.foldl
    | split
    | dsimp only
    | (intro)
    | (refine Keeps.ofPair ?_ (by with_reducible assumption))
    | (refine Keeps.ofOk ?_ (by with_reducible assumption))
    | (refine Keeps.ofOver ?_ (by with_reducible assumption))
    | (refine Keeps.ofWait ?_ (by with_reducible assumption))
    | (refine Keeps.ofFault ?_ (by with_reducible assumption))
    | (refine Keeps.ofGo ?_ (by with_reducible assumption))
    | (refine Keeps.ofCommitOver ?_ (by with_reducible assumption))
    | (refine Keeps.ofWritten ?_ (by with_reducible assumption))
    | (constructor <;> dsimp only <;> first | with_reducible rfl | with_reducible apply Keeps.pending | with_reducible apply Keeps.power | with_reducible apply Keeps.wf | with_reducible apply Keeps.memSet | with_reducible apply Keeps.memSetList | with_reducible apply Keeps.memClear)

theorem State.sendRelease_keeps {z₀ : State} (s : State) (sh : ShadeIx) (c : CollId) (t : Nat) (words : List W64) (dead : Bool) (ds : List Nat) (h_s : Keeps z₀ s) :
    Keeps z₀ (State.sendRelease s sh c t words dead ds) := by
  unfold State.sendRelease
  repeat' with_reducible first | assumption | apply State.post_keeps | apply Keeps.foldl | (intro)

theorem State.releaseHere_keeps {z₀ : State} (s : State) (sh : ShadeIx) (g : GroupIx) (number t : Nat) (words : List W64) (dead : Bool) (h_s : Keeps z₀ s) :
    Keeps z₀ (State.releaseHere s sh g number t words dead) := by
  unfold State.releaseHere
  repeat' with_reducible first | assumption | apply State.memberTry_keeps | apply State.setMember_keeps | apply State.bcastSend_keeps | split

theorem State.rootRelease_keeps {z₀ : State} (s : State) (sh : ShadeIx) (g : GroupIx) (number : Nat) (words : List W64) (h_s : Keeps z₀ s) :
    Keeps z₀ (State.rootRelease s sh g number words) := by
  unfold State.rootRelease
  repeat' with_reducible first | assumption | apply State.sendRelease_keeps | apply State.releaseHere_keeps

theorem State.gatherTry_keeps {z₀ : State} (s : State) (sh : ShadeIx) (g : GroupIx) (number : Nat) (h_s : Keeps z₀ s) :
    Keeps z₀ (State.gatherTry s sh g number) := by
  unfold State.gatherTry
  repeat' with_reducible first
        | assumption | apply State.post_keeps | apply State.takeSeq_keeps | apply State.modColl_keeps | apply State.rootRelease_keeps | split
        | dsimp only | (intro)

theorem State.arriveHere_keeps {z₀ : State} (s : State) (sh : ShadeIx) (g : GroupIx) (number : Nat) (from_ : Nat) (words : List W64) (h_s : Keeps z₀ s) :
    Keeps z₀ (State.arriveHere s sh g number from_ words) := by
  unfold State.arriveHere
  repeat' with_reducible first | assumption | apply State.modColl_keeps | apply State.gatherTry_keeps

theorem State.collReady_keeps {z₀ : State} (s : State) (sh : ShadeIx) (q : QOp) (g : GroupIx) (h_s : Keeps z₀ s) :
    Keeps z₀ (State.collReady s sh q g).st := by
  unfold State.collReady
  repeat' with_reducible first
        | assumption | apply State.count_keeps | apply State.setErr_keeps | apply Ready.wait_keeps | apply Ready.fault_keeps
        | apply Ready.go_keeps | apply Sent.ok_keeps | apply Sent.over_keeps | split | dsimp only | (intro)

theorem State.takeNumber_keeps {z₀ : State} (s : State) (sh : ShadeIx) (g : GroupIx) (h_s : Keeps z₀ s) : Keeps z₀ (State.takeNumber s sh g).1 := by
  unfold State.takeNumber
  repeat' with_reducible first | assumption | apply State.modColl_keeps

theorem State.syncWant_keeps {z₀ : State} (s : State) (h_s : Keeps z₀ s) : Keeps z₀ (State.syncWant s) := by
  unfold State.syncWant
  repeat' with_reducible first | assumption | apply State.modJorx_keeps

theorem State.collGo_keeps {z₀ : State} (s : State) (sh : ShadeIx) (q : QOp) (g : GroupIx) (h_s : Keeps z₀ s) : Keeps z₀ (State.collGo s sh q g) := by
  unfold State.collGo
  repeat' with_reducible first
        | assumption | apply State.count_keeps | apply State.inject_keeps | apply State.takeSeq_keeps | apply State.collEnd_keeps
        | apply State.collDead_keeps | apply State.memberTry_keeps | apply State.setMember_keeps | apply State.arriveHere_keeps
        | apply State.takeNumber_keeps | apply State.syncWant_keeps | split | dsimp only | (intro)

theorem State.arriveArrives_keeps {z₀ : State} (s : State) (i : PortIx) (m : Msg) (h_s : Keeps z₀ s) : Keeps z₀ (State.arriveArrives s i m) := by
  unfold State.arriveArrives
  repeat' first
    | with_reducible assumption
    | with_reducible first | apply State.portCount_keeps | apply State.takeIn_keeps | apply State.arriveHere_keeps | apply Keeps.foldl
    | split
    | dsimp only
    | (intro)
    | (refine Keeps.ofPair ?_ (by with_reducible assumption))
    | (refine Keeps.ofOk ?_ (by with_reducible assumption))
    | (refine Keeps.ofOver ?_ (by with_reducible assumption))
    | (refine Keeps.ofWait ?_ (by with_reducible assumption))
    | (refine Keeps.ofFault ?_ (by with_reducible assumption))
    | (refine Keeps.ofGo ?_ (by with_reducible assumption))
    | (refine Keeps.ofCommitOver ?_ (by with_reducible assumption))
    | (refine Keeps.ofWritten ?_ (by with_reducible assumption))
    | (constructor <;> dsimp only <;> first | with_reducible rfl | with_reducible apply Keeps.pending | with_reducible apply Keeps.power | with_reducible apply Keeps.wf | with_reducible apply Keeps.memSet | with_reducible apply Keeps.memSetList | with_reducible apply Keeps.memClear)

theorem State.releaseArrives_keeps {z₀ : State} (s : State) (i : PortIx) (m : Msg) (h_s : Keeps z₀ s) : Keeps z₀ (State.releaseArrives s i m) := by
  unfold State.releaseArrives
  repeat' with_reducible first
        | assumption | apply State.count_keeps | apply State.jorxErr_keeps | apply State.portCount_keeps | apply State.sendRelease_keeps
        | apply State.releaseHere_keeps | split

theorem State.releaseTimeGroup_keeps {z₀ : State} (s : State) (sh : ShadeIx) (g : GroupIx) (h_s : Keeps z₀ s) :
    Keeps z₀ (State.releaseTimeGroup s sh g) := by
  unfold State.releaseTimeGroup
  repeat' with_reducible first | assumption | apply State.memberTry_keeps | split

theorem State.bcastArrives_keeps {z₀ : State} (s : State) (i : PortIx) (m : Msg) (h_s : Keeps z₀ s) : Keeps z₀ (State.bcastArrives s i m) := by
  unfold State.bcastArrives
  repeat' first
    | with_reducible assumption
    | with_reducible first
        | apply resFold_keeps | apply State.opFault_keeps | apply State.takeIn_keeps | apply State.putItem_keeps | apply State.memberTry_keeps
        | apply State.setMember_keeps | apply Keeps.foldl
    | split
    | dsimp only
    | (intro)
    | (refine Keeps.ofPair ?_ (by with_reducible assumption))
    | (refine Keeps.ofOk ?_ (by with_reducible assumption))
    | (refine Keeps.ofOver ?_ (by with_reducible assumption))
    | (refine Keeps.ofWait ?_ (by with_reducible assumption))
    | (refine Keeps.ofFault ?_ (by with_reducible assumption))
    | (refine Keeps.ofGo ?_ (by with_reducible assumption))
    | (refine Keeps.ofCommitOver ?_ (by with_reducible assumption))
    | (refine Keeps.ofWritten ?_ (by with_reducible assumption))
    | (constructor <;> dsimp only <;> first | with_reducible rfl | with_reducible apply Keeps.pending | with_reducible apply Keeps.power | with_reducible apply Keeps.wf | with_reducible apply Keeps.memSet | with_reducible apply Keeps.memSetList | with_reducible apply Keeps.memClear)

theorem State.syncHigh_keeps {z₀ : State} (s : State) (h_s : Keeps z₀ s) : Keeps z₀ (State.syncHigh s) := by
  unfold State.syncHigh
  repeat' with_reducible first | assumption | apply State.modJorx_keeps | apply State.collEnd_keeps | split

theorem State.syncRelease_keeps {z₀ : State} (s : State) (h_s : Keeps z₀ s) : Keeps z₀ (State.syncRelease s) := by
  unfold State.syncRelease
  repeat' with_reducible first | assumption | apply State.modJorx_keeps | split

/-! ## Liveness -/

theorem State.portTraining_keeps {z₀ : State} (s : State) (i : PortIx) (ok : Bool) (h_s : Keeps z₀ s) : Keeps z₀ (State.portTraining s i ok) := by
  unfold State.portTraining
  repeat' with_reducible first | assumption | apply Res.ok_keeps | apply State.portDown_keeps | apply State.sendControl_keeps | split

theorem State.portTrain_keeps {z₀ : State} (s : State) (i : PortIx) (h_s : Keeps z₀ s) : Keeps z₀ (State.portTrain s i) := by
  unfold State.portTrain
  repeat' with_reducible first | assumption | apply State.setF_keeps | apply State.modPort_keeps

theorem State.portRetry_keeps {z₀ : State} (s : State) (i : PortIx) (h_s : Keeps z₀ s) : Keeps z₀ (State.portRetry s i) := by
  unfold State.portRetry
  repeat' with_reducible first | assumption | apply State.portTrain_keeps | split

theorem State.portLockLoss_keeps {z₀ : State} (s : State) (i : PortIx) (h_s : Keeps z₀ s) : Keeps z₀ (State.portLockLoss s i) := by
  unfold State.portLockLoss
  repeat' with_reducible first | assumption | apply State.portDown_keeps | split

theorem State.helloPeer_keeps {z₀ : State} (s : State) (h : HelloFlit) (h_s : Keeps z₀ s) : Keeps z₀ (State.helloPeer s h) := by
  unfold State.helloPeer
  repeat' with_reducible first | assumption | apply State.setPeer_keeps | split

theorem State.helloArrives_keeps {z₀ : State} (s : State) (i : PortIx) (h : HelloFlit) (h_s : Keeps z₀ s) : Keeps z₀ (State.helloArrives s i h) := by
  unfold State.helloArrives
  repeat' with_reducible first
        | assumption | apply State.setR_keeps | apply State.setF_keeps | apply State.raise_keeps | apply State.modPort_keeps
        | apply State.linkRecord_keeps | apply State.portErr_keeps | apply State.rxFlits_keeps | apply State.helloPeer_keeps | split
        | dsimp only | (intro)

theorem State.nakArrives_keeps {z₀ : State} (s : State) (i : PortIx) (lseq : Nat) (h_s : Keeps z₀ s) : Keeps z₀ (State.nakArrives s i lseq) := by
  unfold State.nakArrives
  repeat' with_reducible first
        | assumption | apply State.modPort_keeps | apply State.portCount_keeps | apply State.retrain_keeps | split | dsimp only | (intro)

theorem State.flitBad_keeps {z₀ : State} (s : State) (i : PortIx) (why : FlitBad) (h_s : Keeps z₀ s) : Keeps z₀ (State.flitBad s i why) := by
  unfold State.flitBad
  repeat' with_reducible first | assumption | apply State.portCount_keeps | apply State.sendControl_keeps | split

theorem State.enumFail_keeps {z₀ : State} (s : State) (h_s : Keeps z₀ s) : Keeps z₀ (State.enumFail s) := by
  unfold State.enumFail
  repeat' with_reducible first | assumption | apply State.setF_keeps | apply State.jorxErr_keeps

theorem State.idUpdate_keeps {z₀ : State} (s : State) (paneWritten : Bool) (h_s : Keeps z₀ s) : Keeps z₀ (State.idUpdate s paneWritten) := by
  unfold State.idUpdate
  repeat' with_reducible first | assumption | apply State.setR_keeps | split

theorem State.takePosition_keeps {z₀ : State} (s : State) (p : Nat) (head : Bool) (h_s : Keeps z₀ s) : Keeps z₀ (State.takePosition s p head) := by
  unfold State.takePosition
  repeat' with_reducible first | assumption | apply State.setR_keeps | apply State.idUpdate_keeps

theorem State.enumFrame_keeps {z₀ : State} (s : State) (v : Nat) (h_s : Keeps z₀ s) : Keeps z₀ (State.enumFrame s v) := by
  unfold State.enumFrame
  repeat' with_reducible first | assumption | apply State.modJorx_keeps | apply State.enumFail_keeps | apply State.takePosition_keeps | split

theorem State.enumHead_keeps {z₀ : State} (s : State) (h_s : Keeps z₀ s) : Keeps z₀ (State.enumHead s) := by
  unfold State.enumHead
  repeat' with_reducible first | assumption | apply State.takePosition_keeps | split

theorem State.enumTimeout_keeps {z₀ : State} (s : State) (h_s : Keeps z₀ s) : Keeps z₀ (State.enumTimeout s) := by
  unfold State.enumTimeout
  repeat' with_reducible first | assumption | apply State.enumFail_keeps | split

theorem State.enumSend_keeps {z₀ : State} (s : State) (h_s : Keeps z₀ s) : Keeps z₀ (State.enumSend s) := by
  unfold State.enumSend
  repeat' with_reducible first | assumption | apply State.modJorx_keeps | split

theorem State.toPeer_keeps {z₀ : State} (s : State) (i : PortIx) (b : Body) (h_s : Keeps z₀ s) : Keeps z₀ (State.toPeer s i b) := by
  unfold State.toPeer
  repeat' with_reducible first | assumption | apply State.sendOn_keeps | split

theorem State.toPeers_keeps {z₀ : State} (s : State) (is : List PortIx) (b : Body) (h_s : Keeps z₀ s) : Keeps z₀ (State.toPeers s is b) := by
  unfold State.toPeers
  repeat' with_reducible first | assumption | apply State.toPeer_keeps | apply Keeps.foldl | (intro)

theorem State.modMgmt_keeps {z₀ : State} (s : State) (f : MgmtSt → MgmtSt) (h_s : Keeps z₀ s) : Keeps z₀ (State.modMgmt s f) := by
  unfold State.modMgmt
  repeat' with_reducible first | assumption | apply State.modJorx_keeps

theorem State.mgmtRelease_keeps {z₀ : State} (s : State) (k : MgmtKind) (t : Nat) (ok : Bool) (h_s : Keeps z₀ s) :
    Keeps z₀ (State.mgmtRelease s k t ok) := by
  unfold State.mgmtRelease
  repeat' with_reducible first | assumption | apply Res.ok_keeps | apply State.toPeers_keeps | apply State.modMgmt_keeps

theorem State.mgmtTry_keeps {z₀ : State} (s : State) (k : MgmtKind) (h_s : Keeps z₀ s) : Keeps z₀ (State.mgmtTry s k) := by
  unfold State.mgmtTry
  repeat' with_reducible first
        | assumption | apply Res.ok_keeps | apply State.toPeer_keeps | apply State.mgmtRelease_keeps | split | dsimp only | (intro)

theorem State.mgmtBegin_keeps {z₀ : State} (s : State) (k : MgmtKind) (h_s : Keeps z₀ s) : Keeps z₀ (State.mgmtBegin s k) := by
  unfold State.mgmtBegin
  repeat' with_reducible first | assumption | apply State.toPeers_keeps | apply State.modMgmt_keeps | apply State.mgmtTry_keeps

theorem State.mgmtStart_keeps {z₀ : State} (s : State) (k : MgmtKind) (h_s : Keeps z₀ s) : Keeps z₀ (State.mgmtStart s k) := by
  unfold State.mgmtStart
  repeat' with_reducible first | assumption | apply State.rsvdWr_keeps | apply State.mgmtBegin_keeps | split

theorem State.aresetStart_keeps {z₀ : State} (s : State) (h_s : Keeps z₀ s) : Keeps z₀ (State.aresetStart s) := by
  unfold State.aresetStart
  repeat' with_reducible first | assumption | apply State.rsvdWr_keeps | apply State.mgmtRelease_keeps | split

theorem State.marriveArrives_keeps {z₀ : State} (s : State) (i : PortIx) (k : MgmtKind) (armed : Bool) (h_s : Keeps z₀ s) :
    Keeps z₀ (State.marriveArrives s i k armed) := by
  unfold State.marriveArrives
  repeat' with_reducible first | assumption | apply State.modMgmt_keeps | apply State.mgmtTry_keeps | apply State.mgmtBegin_keeps | split

theorem State.mgmtApply_keeps {z₀ : State} (s : State) (h_s : Keeps z₀ s) : Keeps z₀ (State.mgmtApply s) := by
  unfold State.mgmtApply
  repeat' with_reducible first
        | assumption | apply State.setF_keeps | apply Res.ok_keeps | apply State.jorxErr_keeps | apply State.modJorx_keeps
        | apply State.modMgmt_keeps | split

theorem State.mreleaseArrives_keeps {z₀ : State} (s : State) (i : PortIx) (k : MgmtKind) (t : Nat) (ok : Bool) (h_s : Keeps z₀ s) :
    Keeps z₀ (State.mreleaseArrives s i k t ok) := by
  unfold State.mreleaseArrives
  repeat' with_reducible first
        | assumption | apply Res.ok_keeps | apply State.jorxErr_keeps | apply State.portCount_keeps | apply State.mgmtRelease_keeps
        | apply State.mgmtApply_keeps | split

theorem State.lockUpdate_keeps {z₀ : State} (s : State) (offset : Int) (h_s : Keeps z₀ s) : Keeps z₀ (State.lockUpdate s offset) := by
  unfold State.lockUpdate
  repeat' with_reducible first | assumption | apply State.setF_keeps

theorem State.slewTick_keeps {z₀ : State} (s : State) (h_s : Keeps z₀ s) : Keeps z₀ (State.slewTick s) := by
  unfold State.slewTick
  repeat' first
    | with_reducible assumption
    | with_reducible first | apply Keeps.foldl
    | split
    | dsimp only
    | (intro)
    | (constructor <;> dsimp only <;> first | with_reducible rfl | with_reducible apply Keeps.pending | with_reducible apply Keeps.power | with_reducible apply Keeps.wf | with_reducible apply Keeps.memSet | with_reducible apply Keeps.memSetList | with_reducible apply Keeps.memClear)

theorem State.heartbeat_keeps {z₀ : State} (s : State) (i : PortIx) (h_s : Keeps z₀ s) : Keeps z₀ (State.heartbeat s i) := by
  unfold State.heartbeat
  repeat' with_reducible first | assumption | apply State.sendControl_keeps | apply State.lockUpdate_keeps | split | dsimp only | (intro)

theorem State.heartbeatIn_keeps {z₀ : State} (s : State) (i : PortIx) (down up : Nat) (h_s : Keeps z₀ s) :
    Keeps z₀ (State.heartbeatIn s i down up) := by
  unfold State.heartbeatIn
  repeat' with_reducible first
        | assumption | apply State.setF_keeps | apply State.tick_keeps | apply State.modJorx_keeps | apply State.modPort_keeps
        | apply State.rxFlits_keeps | apply State.lockUpdate_keeps | split | dsimp only | (intro)

theorem State.flood_keeps {z₀ : State} (s : State) (from_ : Option PortIx) (b : Body) (h_s : Keeps z₀ s) : Keeps z₀ (State.flood s from_ b) := by
  unfold State.flood
  repeat' with_reducible first | assumption | apply State.toPeers_keeps

theorem State.killWaits_keeps {z₀ : State} (s : State) (d : Nat) (sh : ShadeIx) (h_s : Keeps z₀ s) : Keeps z₀ (State.killWaits s d sh) := by
  unfold State.killWaits
  repeat' with_reducible first | assumption | apply State.abnormal_keeps | apply Keeps.foldl | (intro)

theorem State.breakGroup_keeps {z₀ : State} (s : State) (sh : ShadeIx) (g : GroupIx) (h_s : Keeps z₀ s) : Keeps z₀ (State.breakGroup s sh g) := by
  unfold State.breakGroup
  repeat' with_reducible first
        | assumption | apply State.orR_keeps | apply State.modColl_keeps | apply State.collDead_keeps | apply State.sendRelease_keeps
        | apply Keeps.foldl | split | (intro)

theorem State.recordDead_keeps {z₀ : State} (s : State) (d : Nat) (epoch : BitVec 16) (h_s : Keeps z₀ s) : Keeps z₀ (State.recordDead s d epoch) := by
  unfold State.recordDead
  repeat' with_reducible first
        | assumption | apply State.setPeer_keeps | apply State.killWaits_keeps | apply State.breakGroup_keeps | apply Keeps.foldl | (intro)

theorem State.isolateOps_keeps {z₀ : State} (s : State) (h_s : Keeps z₀ s) : Keeps z₀ (State.isolateOps s) := by
  unfold State.isolateOps
  repeat' with_reducible first | assumption | apply State.abnormal_keeps | apply State.collDead_keeps | apply Keeps.foldl | (intro)

theorem State.deadArrives_keeps {z₀ : State} (s : State) (i : PortIx) (x : Nat) (epoch : BitVec 16) (h_s : Keeps z₀ s) :
    Keeps z₀ (State.deadArrives s i x epoch) := by
  unfold State.deadArrives
  repeat' with_reducible first
        | assumption | apply State.orR_keeps | apply State.raise_keeps | apply State.jorxErr_keeps | apply State.flood_keeps
        | apply State.recordDead_keeps | apply State.isolateOps_keeps | split | dsimp only | (intro)

theorem State.declareDead_keeps {z₀ : State} (s : State) (x : Nat) (h_s : Keeps z₀ s) : Keeps z₀ (State.declareDead s x) := by
  unfold State.declareDead
  repeat' with_reducible first | assumption | apply State.flood_keeps | apply State.recordDead_keeps | split

theorem State.heartbeatMiss_keeps {z₀ : State} (s : State) (i : PortIx) (h_s : Keeps z₀ s) : Keeps z₀ (State.heartbeatMiss s i) := by
  unfold State.heartbeatMiss
  repeat' with_reducible first
        | assumption | apply State.modPort_keeps | apply State.portCount_keeps | apply State.portErr_keeps | apply State.portDown_keeps
        | apply State.forwardMsg_keeps | apply State.declareDead_keeps | split | dsimp only | (intro)

theorem State.probeArrives_keeps {z₀ : State} (s : State) (src : Nat) (reply : Bool) (h_s : Keeps z₀ s) :
    Keeps z₀ (State.probeArrives s src reply) := by
  unfold State.probeArrives
  repeat' with_reducible first
        | assumption | apply State.modPort_keeps | apply State.portDown_keeps | apply State.forwardMsg_keeps | apply Keeps.foldl | split
        | dsimp only | (intro)

theorem State.aliveArrives_keeps {z₀ : State} (s : State) (i : PortIx) (x : Nat) (epoch : BitVec 16) (h_s : Keeps z₀ s) :
    Keeps z₀ (State.aliveArrives s i x epoch) := by
  unfold State.aliveArrives
  repeat' with_reducible first
        | assumption | apply State.setF_keeps | apply State.resetStreams_keeps | apply State.setPeer_keeps | apply State.flood_keeps | split

theorem State.joinArrives_keeps {z₀ : State} (s : State) (x : Nat) (epoch : BitVec 16) (h_s : Keeps z₀ s) :
    Keeps z₀ (State.joinArrives s x epoch) := by
  unfold State.joinArrives
  repeat' with_reducible first
        | assumption | apply State.resetStreams_keeps | apply State.setPeer_keeps | apply State.flood_keeps | apply State.declareDead_keeps
        | split

theorem State.epochUp_keeps {z₀ : State} (s : State) (h_s : Keeps z₀ s) : Keeps z₀ (State.epochUp s) := by
  unfold State.epochUp
  repeat' with_reducible first | assumption | apply State.setF_keeps | apply State.modJorx_keeps

theorem State.joinStart_keeps {z₀ : State} (s : State) (h_s : Keeps z₀ s) : Keeps z₀ (State.joinStart s) := by
  unfold State.joinStart
  repeat' with_reducible first | assumption | apply State.orR_keeps | apply State.clrR_keeps | apply State.toPeers_keeps | apply State.epochUp_keeps

/-! ## Telemetry -/

theorem State.glintClear_keeps {z₀ : State} (s : State) (sh : ShadeIx) (n : Nat) (h_s : Keeps z₀ s) : Keeps z₀ (State.glintClear s sh n) := by
  unfold State.glintClear
  repeat' first
    | with_reducible assumption
    | with_reducible first | apply Keeps.foldl
    | split
    | dsimp only
    | (intro)
    | (constructor <;> dsimp only <;> first | with_reducible rfl | with_reducible apply Keeps.pending | with_reducible apply Keeps.power | with_reducible apply Keeps.wf | with_reducible apply Keeps.memSet | with_reducible apply Keeps.memSetList | with_reducible apply Keeps.memClear)

theorem State.glintRun_keeps {z₀ : State} (s : State) (sh : ShadeIx) (q : QOp) (td : Nat) (g : GReg) (clr : Bool) (h_s : Keeps z₀ s) :
    Keeps z₀ (State.glintRun s sh q td g clr) := by
  unfold State.glintRun
  repeat' with_reducible first | assumption | apply State.count_keeps | apply State.finish_keeps | apply State.glintClear_keeps | split

theorem State.markRun_keeps {z₀ : State} (s : State) (sh : ShadeIx) (q : QOp) (code : BitVec 16) (h_s : Keeps z₀ s) :
    Keeps z₀ (State.markRun s sh q code) := by
  unfold State.markRun
  repeat' with_reducible first | assumption | apply State.shadeRecord_keeps

theorem State.setAgQ_keeps {z₀ : State} (s : State) (q : Nat) (x : AgQueue) (h_s : Keeps z₀ s) : Keeps z₀ (State.setAgQ s q x) := by
  unfold State.setAgQ
  repeat' first
    | with_reducible assumption
    | with_reducible first | apply Keeps.foldl
    | split
    | dsimp only
    | (intro)
    | (constructor <;> dsimp only <;> first | with_reducible rfl | with_reducible apply Keeps.pending | with_reducible apply Keeps.power | with_reducible apply Keeps.wf | with_reducible apply Keeps.memSet | with_reducible apply Keeps.memSetList | with_reducible apply Keeps.memClear)

theorem State.agLost_keeps {z₀ : State} (s : State) (q n : Nat) (h_s : Keeps z₀ s) : Keeps z₀ (State.agLost s q n) := by
  unfold State.agLost
  repeat' with_reducible first | assumption | apply State.satAdd_keeps | apply State.count_keeps | split

theorem State.writeRecord_keeps {z₀ : State} (s : State) (r : Staged) (h_s : Keeps z₀ s) : Keeps z₀ (State.writeRecord s r) := by
  unfold State.writeRecord
  repeat' with_reducible first
        | assumption | apply State.count_keeps | apply State.setErr_keeps | apply State.raise_keeps | apply State.setAgQ_keeps
        | apply State.agLost_keeps | split | dsimp only | (intro)

theorem State.recordWrite_keeps {z₀ : State} (s : State) (h_s : Keeps z₀ s) : Keeps z₀ (State.recordWrite s) := by
  unfold State.recordWrite
  repeat' first
    | with_reducible assumption
    | with_reducible first | apply State.writeRecord_keeps | apply Keeps.foldl
    | split
    | dsimp only
    | (intro)
    | (refine Keeps.ofPair ?_ (by with_reducible assumption))
    | (refine Keeps.ofOk ?_ (by with_reducible assumption))
    | (refine Keeps.ofOver ?_ (by with_reducible assumption))
    | (refine Keeps.ofWait ?_ (by with_reducible assumption))
    | (refine Keeps.ofFault ?_ (by with_reducible assumption))
    | (refine Keeps.ofGo ?_ (by with_reducible assumption))
    | (refine Keeps.ofCommitOver ?_ (by with_reducible assumption))
    | (refine Keeps.ofWritten ?_ (by with_reducible assumption))
    | (constructor <;> dsimp only <;> first | with_reducible rfl | with_reducible apply Keeps.pending | with_reducible apply Keeps.power | with_reducible apply Keeps.wf | with_reducible apply Keeps.memSet | with_reducible apply Keeps.memSetList | with_reducible apply Keeps.memClear)

theorem State.recordFlush_keeps {z₀ : State} (s : State) (h_s : Keeps z₀ s) : Keeps z₀ (State.recordFlush s) := by
  unfold State.recordFlush
  repeat' with_reducible first | assumption | apply State.recordWrite_keeps | apply Keeps.foldl | (intro)

theorem State.agPop_keeps {z₀ : State} (s : State) (q : Nat) (pseq : W32) (h_s : Keeps z₀ s) : Keeps z₀ (State.agPop s q pseq) := by
  unfold State.agPop
  repeat' with_reducible first | assumption | apply State.count_keeps | apply State.setErr_keeps | apply State.setAgQ_keeps | split

theorem State.setHold_keeps {z₀ : State} (s : State) (scope : Option ShadeIx) (v : Bool) (h_s : Keeps z₀ s) : Keeps z₀ (State.setHold s scope v) := by
  unfold State.setHold
  repeat' first
    | with_reducible assumption
    | with_reducible first | apply State.setF_keeps | apply Keeps.foldl
    | split
    | dsimp only
    | (intro)
    | (refine Keeps.ofPair ?_ (by with_reducible assumption))
    | (refine Keeps.ofOk ?_ (by with_reducible assumption))
    | (refine Keeps.ofOver ?_ (by with_reducible assumption))
    | (refine Keeps.ofWait ?_ (by with_reducible assumption))
    | (refine Keeps.ofFault ?_ (by with_reducible assumption))
    | (refine Keeps.ofGo ?_ (by with_reducible assumption))
    | (refine Keeps.ofCommitOver ?_ (by with_reducible assumption))
    | (refine Keeps.ofWritten ?_ (by with_reducible assumption))
    | (constructor <;> dsimp only <;> first | with_reducible rfl | with_reducible apply Keeps.pending | with_reducible apply Keeps.power | with_reducible apply Keeps.wf | with_reducible apply Keeps.memSet | with_reducible apply Keeps.memSetList | with_reducible apply Keeps.memClear)

theorem State.clearCounters_keeps {z₀ : State} (s : State) (f : PageKind → Nat → Bool) (h_s : Keeps z₀ s) : Keeps z₀ (State.clearCounters s f) := by
  unfold State.clearCounters
  repeat' first
    | with_reducible assumption
    | with_reducible first | apply Keeps.foldl
    | split
    | dsimp only
    | (intro)
    | (constructor <;> dsimp only <;> first | with_reducible rfl | with_reducible apply Keeps.pending | with_reducible apply Keeps.power | with_reducible apply Keeps.wf | with_reducible apply Keeps.memSet | with_reducible apply Keeps.memSetList | with_reducible apply Keeps.memClear)

theorem State.clearScope_keeps {z₀ : State} (s : State) (scope : Option ShadeIx) (h_s : Keeps z₀ s) : Keeps z₀ (State.clearScope s scope) := by
  unfold State.clearScope
  repeat' first
    | with_reducible assumption
    | with_reducible first | apply State.clearCounters_keeps | apply Keeps.foldl
    | split
    | dsimp only
    | (intro)
    | (refine Keeps.ofPair ?_ (by with_reducible assumption))
    | (refine Keeps.ofOk ?_ (by with_reducible assumption))
    | (refine Keeps.ofOver ?_ (by with_reducible assumption))
    | (refine Keeps.ofWait ?_ (by with_reducible assumption))
    | (refine Keeps.ofFault ?_ (by with_reducible assumption))
    | (refine Keeps.ofGo ?_ (by with_reducible assumption))
    | (refine Keeps.ofCommitOver ?_ (by with_reducible assumption))
    | (refine Keeps.ofWritten ?_ (by with_reducible assumption))
    | (constructor <;> dsimp only <;> first | with_reducible rfl | with_reducible apply Keeps.pending | with_reducible apply Keeps.power | with_reducible apply Keeps.wf | with_reducible apply Keeps.memSet | with_reducible apply Keeps.memSetList | with_reducible apply Keeps.memClear)

theorem State.clearsDue_keeps {z₀ : State} (s : State) (h_s : Keeps z₀ s) : Keeps z₀ (State.clearsDue s) := by
  unfold State.clearsDue
  repeat' first
    | with_reducible assumption
    | with_reducible first | apply State.clearCounters_keeps | apply Keeps.foldl
    | split
    | dsimp only
    | (intro)
    | (constructor <;> dsimp only <;> first | with_reducible rfl | with_reducible apply Keeps.pending | with_reducible apply Keeps.power | with_reducible apply Keeps.wf | with_reducible apply Keeps.memSet | with_reducible apply Keeps.memSetList | with_reducible apply Keeps.memClear)

theorem State.snapRequest_keeps {z₀ : State} (s : State) (source : Nat) (scope : Option ShadeIx) (inconsistent : Bool) (h_s : Keeps z₀ s) :
    Keeps z₀ (State.snapRequest s source scope inconsistent) := by
  unfold State.snapRequest
  repeat' first
    | with_reducible assumption
    | with_reducible first | apply State.count_keeps | apply State.setErr_keeps | apply State.setHold_keeps | apply Keeps.foldl
    | split
    | dsimp only
    | (intro)
    | (constructor <;> dsimp only <;> first | with_reducible rfl | with_reducible apply Keeps.pending | with_reducible apply Keeps.power | with_reducible apply Keeps.wf | with_reducible apply Keeps.memSet | with_reducible apply Keeps.memSetList | with_reducible apply Keeps.memClear)

theorem State.cntAct_keeps {z₀ : State} (s : State) (scope : Option ShadeIx) (a : CntAct) (h_s : Keeps z₀ s) : Keeps z₀ (State.cntAct s scope a) := by
  unfold State.cntAct
  repeat' with_reducible first | assumption | apply State.setHold_keeps | apply State.clearScope_keeps | apply State.snapRequest_keeps | split

theorem State.snapCollect_keeps {z₀ : State} (s : State) (h_s : Keeps z₀ s) : Keeps z₀ (State.snapCollect s) := by
  unfold State.snapCollect
  repeat' first
    | with_reducible assumption
    | with_reducible first
        | apply State.shadeRecord_keeps | apply State.deviceRecord_keeps | apply State.recordFlush_keeps | apply State.setHold_keeps
        | apply State.clearsDue_keeps | apply Keeps.foldl
    | split
    | dsimp only
    | (intro)
    | (refine Keeps.ofPair ?_ (by with_reducible assumption))
    | (refine Keeps.ofOk ?_ (by with_reducible assumption))
    | (refine Keeps.ofOver ?_ (by with_reducible assumption))
    | (refine Keeps.ofWait ?_ (by with_reducible assumption))
    | (refine Keeps.ofFault ?_ (by with_reducible assumption))
    | (refine Keeps.ofGo ?_ (by with_reducible assumption))
    | (refine Keeps.ofCommitOver ?_ (by with_reducible assumption))
    | (refine Keeps.ofWritten ?_ (by with_reducible assumption))
    | (constructor <;> dsimp only <;> first | with_reducible rfl | with_reducible apply Keeps.pending | with_reducible apply Keeps.power | with_reducible apply Keeps.wf | with_reducible apply Keeps.memSet | with_reducible apply Keeps.memSetList | with_reducible apply Keeps.memClear)

theorem State.snapCancel_keeps {z₀ : State} (s : State) (sh : ShadeIx) (h_s : Keeps z₀ s) : Keeps z₀ (State.snapCancel s sh) := by
  unfold State.snapCancel
  repeat' first
    | with_reducible assumption
    | with_reducible first | apply State.setHold_keeps | apply State.clearsDue_keeps | apply Keeps.foldl
    | split
    | dsimp only
    | (intro)
    | (constructor <;> dsimp only <;> first | with_reducible rfl | with_reducible apply Keeps.pending | with_reducible apply Keeps.power | with_reducible apply Keeps.wf | with_reducible apply Keeps.memSet | with_reducible apply Keeps.memSetList | with_reducible apply Keeps.memClear)

theorem State.snapFreeze_keeps {z₀ : State} (s : State) (h_s : Keeps z₀ s) : Keeps z₀ (State.snapFreeze s) := by
  unfold State.snapFreeze
  repeat' with_reducible first | assumption | apply State.jorxErr_keeps | apply State.modJorx_keeps | apply State.snapRequest_keeps | split

theorem State.clearCounter_keeps {z₀ : State} (s : State) (k : PageKind) (inst i : Nat) (h_s : Keeps z₀ s) :
    Keeps z₀ (State.clearCounter s k inst i) := by
  unfold State.clearCounter
  repeat' with_reducible first | assumption | apply State.setR64_keeps

theorem State.tagIssue_keeps {z₀ : State} (s : State) (sh : ShadeIx) (baddr : Nat) (ops : List (Nat × Nat)) (h_s : Keeps z₀ s) :
    Keeps z₀ (State.tagIssue s sh baddr ops) := by
  unfold State.tagIssue
  repeat' with_reducible first | assumption | apply State.count_keeps | apply State.modSh_keeps | apply State.tagSettle_keeps | split

end Sys2Proof.Machine
end

