-- ==== Sys2Proof/Laws/KeepsUnits.lean ====
section
/-! SUPPORT. What the issue of bundles, the units, replay and the rows of links keep: the queue of commands, the power modes and the canonical form of memory. -/

set_option linter.unusedTactic false
set_option linter.unreachableTactic false
set_option linter.unusedVariables false

namespace Sys2Proof.Machine

/-! ## Units -/

theorem State.checkMarks_keeps {z₀ : State} (s : State) (sh : ShadeIx) (q : QOp) (code : Nat) (h_s : Keeps z₀ s) :
    Keeps z₀ (State.checkMarks s sh q code) := by
  unfold State.checkMarks
  repeat' with_reducible first | assumption | apply State.setErr_keeps | apply State.lensErr_keeps | split | dsimp only | (intro)

theorem State.take_keeps {z₀ : State} (s : State) (sh : ShadeIx) (q : QOp) (h_s : Keeps z₀ s) : Keeps z₀ (State.take s sh q) := by
  unfold State.take
  repeat' with_reducible first | assumption | apply State.modSh_keeps

theorem Res.opEnd_keeps {z₀ : State} (r : Res) (sh : ShadeIx) (q : QOp) (h_r : Keeps z₀ r.s) : Keeps z₀ (Res.opEnd r sh q) := by
  unfold Res.opEnd
  repeat' with_reducible first | assumption | apply State.finish_keeps | apply State.opFault_keeps | split

theorem State.readyIf_keeps {z₀ : State} (s : State) (b : Bool) (h_s : Keeps z₀ s) : Keeps z₀ (State.readyIf s b).st := by
  unfold State.readyIf
  repeat' with_reducible first
        | assumption | apply Ready.wait_keeps | apply Ready.fault_keeps | apply Ready.go_keeps | apply Sent.ok_keeps | apply Sent.over_keeps
        | split

theorem State.unitReady_keeps {z₀ : State} (s : State) (sh : ShadeIx) (q : QOp) (h_s : Keeps z₀ s) : Keeps z₀ (State.unitReady s sh q).st := by
  unfold State.unitReady
  repeat' with_reducible first
        | assumption | apply State.transferReady_keeps | apply State.collReady_keeps | apply State.readyIf_keeps | apply Ready.wait_keeps
        | apply Ready.fault_keeps | apply Ready.go_keeps | apply Sent.ok_keeps | apply Sent.over_keeps | apply Start.ready_keeps | split

theorem State.maskRun_keeps {z₀ : State} (s : State) (sh : ShadeIx) (q : QOp) (o : MaskOp) (h_s : Keeps z₀ s) :
    Keeps z₀ (State.maskRun s sh q o).s := by
  unfold State.maskRun
  repeat' with_reducible first
        | assumption | apply State.scompRun_keeps | apply State.pruneRun_keeps | apply State.growRun_keeps | apply State.mirrorRun_keeps
        | apply State.silhRun_keeps | apply State.mcommitRun_keeps | split

theorem State.copyGo_keeps {z₀ : State} (s : State) (sh : ShadeIx) (q : QOp) (b : BitVec 4) (tds tdd : BitVec 8) (g : GReg) (h_s : Keeps z₀ s) :
    Keeps z₀ (State.copyGo s sh q b tds tdd g) := by
  unfold State.copyGo
  repeat' first
    | with_reducible assumption
    | with_reducible first
        | apply State.finish_keeps | apply State.opFault_keeps | apply State.copyRun_keeps | apply State.commitStart_keeps
        | apply Res.opEnd_keeps | apply Keeps.foldl
    | split
    | dsimp only
    | (intro)
    | (refine Keeps.ofPair ?_ (by with_reducible assumption))
    | (refine Keeps.ofOk ?_ (by with_reducible assumption))
    | (refine Keeps.ofOver ?_ (by with_reducible assumption))
    | (refine Keeps.ofWait ?_ (by with_reducible assumption))
    | (refine Keeps.ofFault ?_ (by with_reducible assumption))
    | (refine Keeps.ofGo ?_ (by with_reducible assumption))
    | (refine Keeps.ofCommitOver ?_ (by with_reducible assumption))
    | (refine Keeps.ofWritten ?_ (by with_reducible assumption))
    | (constructor <;> dsimp only <;> first | with_reducible rfl | with_reducible apply Keeps.pending | with_reducible apply Keeps.power | with_reducible apply Keeps.wf | with_reducible apply Keeps.memSet | with_reducible apply Keeps.memSetList | with_reducible apply Keeps.memClear)

theorem State.spkGo_keeps {z₀ : State} (s : State) (sh : ShadeIx) (q : QOp) (o : SpkOp) (h_s : Keeps z₀ s) : Keeps z₀ (State.spkGo s sh q o) := by
  unfold State.spkGo
  repeat' with_reducible first
        | assumption | apply State.finish_keeps | apply State.seedRun_keeps | apply State.freshStart_keeps | apply State.drawRun_keeps
        | apply State.umbraRun_keeps | apply Res.opEnd_keeps | split

theorem State.telGo_keeps {z₀ : State} (s : State) (sh : ShadeIx) (q : QOp) (o : TelOp) (h_s : Keeps z₀ s) : Keeps z₀ (State.telGo s sh q o) := by
  unfold State.telGo
  repeat' with_reducible first
        | assumption | apply State.finish_keeps | apply State.glintRun_keeps | apply State.markRun_keeps | apply State.cntAct_keeps | split

theorem State.runOp_keeps {z₀ : State} (s : State) (sh : ShadeIx) (q : QOp) (h_s : Keeps z₀ s) : Keeps z₀ (State.runOp s sh q) := by
  unfold State.runOp
  repeat' with_reducible first
        | assumption | apply State.arrayBegin_keeps | apply State.lensRun_keeps | apply State.focusRun_keeps | apply State.scrubRun_keeps
        | apply State.transferGo_keeps | apply State.collGo_keeps | apply Res.opEnd_keeps | apply State.maskRun_keeps
        | apply State.copyGo_keeps | apply State.spkGo_keeps | apply State.telGo_keeps | split

theorem Ready.act_keeps {z₀ : State} (r : Ready) (sh : ShadeIx) (q : QOp) (go : State → State) (h_r : Keeps z₀ r.st) (h_go : ∀ y, Keeps z₀ y → Keeps z₀ (go y)) :
    Keeps z₀ (Ready.act r sh q go) := by
  unfold Ready.act
  cases r with
  | wait s => exact h_r
  | fault s f => exact State.opFault_keeps _ _ _ _ (State.take_keeps _ _ _ h_r)
  | go s => exact h_go _ h_r

theorem State.startOp_keeps {z₀ : State} (s : State) (sh : ShadeIx) (q : QOp) (h_s : Keeps z₀ s) : Keeps z₀ (State.startOp s sh q) := by
  unfold State.startOp
  repeat' with_reducible first
        | assumption | apply State.tagStart_keeps | apply State.capture_keeps | apply State.take_keeps | apply State.unitReady_keeps
        | apply State.runOp_keeps | apply Ready.act_keeps | split | (intro)

theorem State.startKind_keeps {z₀ : State} (s : State) (sh : ShadeIx) (f : QOp → Bool) (h_s : Keeps z₀ s) : Keeps z₀ (State.startKind s sh f) := by
  unfold State.startKind
  repeat' with_reducible first | assumption | apply State.startOp_keeps | split

/-! ## Issue -/

theorem State.bundleMarks_keeps {z₀ : State} (s : State) (sh : ShadeIx) (ss : List Slot) (h_s : Keeps z₀ s) :
    Keeps z₀ (State.bundleMarks s sh ss) := by
  unfold State.bundleMarks
  repeat' with_reducible first | assumption | apply State.checkMarks_keeps | apply Keeps.foldl | split | (intro)

theorem State.underWay_keeps {z₀ : State} (s : State) (sh : ShadeIx) (r : Running) (h_s : Keeps z₀ s) : Keeps z₀ (State.underWay s sh r) := by
  unfold State.underWay
  repeat' with_reducible first | assumption | apply State.modSh_keeps

theorem State.ldpGo_keeps {z₀ : State} (s : State) (sh : ShadeIx) (q : QOp) (gd ga : GReg) (h_s : Keeps z₀ s) :
    Keeps z₀ (State.ldpGo s sh q gd ga) := by
  unfold State.ldpGo
  repeat' with_reducible first
        | assumption | apply Res.ok_keeps | apply State.opFault_keeps | apply State.underWay_keeps | split | dsimp only | (intro)

theorem State.stpGo_keeps {z₀ : State} (s : State) (sh : ShadeIx) (q : QOp) (ga gb : GReg) (h_s : Keeps z₀ s) :
    Keeps z₀ (State.stpGo s sh q ga gb) := by
  unfold State.stpGo
  repeat' with_reducible first
        | assumption | apply State.finish_keeps | apply State.wrSN_keeps | apply State.opFault_keeps | apply State.underWay_keeps | split
        | dsimp only | (intro)

theorem State.bplGo_keeps {z₀ : State} (s : State) (sh : ShadeIx) (q : QOp) (frame : BitVec 6) (g : GReg) (h_s : Keeps z₀ s) :
    Keeps z₀ (State.bplGo s sh q frame g) := by
  unfold State.bplGo
  repeat' with_reducible first | assumption | apply State.modLan_keeps | apply State.underWay_keeps

theorem State.directGo_keeps {z₀ : State} (s : State) (sh : ShadeIx) (q : QOp) (h_s : Keeps z₀ s) : Keeps z₀ (State.directGo s sh q) := by
  unfold State.directGo
  repeat' with_reducible first | assumption | apply State.ldpGo_keeps | apply State.stpGo_keeps | apply State.bplGo_keeps | split

theorem State.ctlGo_keeps {z₀ : State} (s : State) (sh : ShadeIx) (pc : Nat) (o : Option CtlOp) (h_s : Keeps z₀ s) :
    Keeps z₀ (State.ctlGo s sh pc o) := by
  unfold State.ctlGo
  repeat' with_reducible first
        | assumption | apply State.setR_keeps | apply State.modLan_keeps | apply State.halt_keeps | apply State.phaseSet_keeps | split

theorem State.seedNow_keeps {z₀ : State} (s : State) (sh : ShadeIx) (h_s : Keeps z₀ s) : Keeps z₀ (State.seedNow s sh) := by
  unfold State.seedNow
  repeat' with_reducible first | assumption | apply State.startKind_keeps

theorem State.lockstep_keeps {z₀ : State} (s : State) (sh : ShadeIx) (pc : Nat) (h_s : Keeps z₀ s) : Keeps z₀ (State.lockstep s sh pc) := by
  unfold State.lockstep
  repeat' with_reducible first
        | assumption | apply State.orR_keeps | apply State.clrR_keeps | apply State.blkErr_keeps | apply State.machineFault_keeps | split
        | dsimp only | (intro)

theorem State.issueGo_keeps {z₀ : State} (s : State) (sh : ShadeIx) (as : List Slot) (h_s : Keeps z₀ s) : Keeps z₀ (State.issueGo s sh as) := by
  unfold State.issueGo
  repeat' with_reducible first
        | assumption | apply State.countSpan_keeps | apply State.modSh_keeps | apply State.countLant_keeps | apply State.halt_keeps
        | apply LensJob.units_keeps | apply State.tagIssue_keeps | apply State.directGo_keeps | apply State.ctlGo_keeps
        | apply State.seedNow_keeps | apply State.lockstep_keeps | apply Keeps.foldl | split | (intro)

theorem State.noteWait_keeps {z₀ : State} (s : State) (sh : ShadeIx) (waiting : Bool) (h_s : Keeps z₀ s) :
    Keeps z₀ (State.noteWait s sh waiting) := by
  unfold State.noteWait
  repeat' with_reducible first | assumption | apply State.modLan_keeps

theorem State.issueHeld_keeps {z₀ : State} (s : State) (sh : ShadeIx) (ev : Nat) (h_s : Keeps z₀ s) : Keeps z₀ (State.issueHeld s sh ev) := by
  unfold State.issueHeld
  repeat' with_reducible first | assumption | apply State.cycleEv_keeps | apply Keeps.foldl | (intro)

theorem State.issue_keeps {z₀ : State} (s : State) (sh : ShadeIx) (ds : List (Nat × SlotDec)) (h_s : Keeps z₀ s) :
    Keeps z₀ (State.issue s sh ds) := by
  unfold State.issue
  repeat' with_reducible first
        | assumption | apply State.bundleFault_keeps | apply State.bundleMarks_keeps | apply State.issueGo_keeps | apply State.noteWait_keeps
        | apply State.issueHeld_keeps | split | dsimp only | (intro)

theorem State.fetchFault_keeps {z₀ : State} (s : State) (sh : ShadeIx) (h_s : Keeps z₀ s) : Keeps z₀ (State.fetchFault s sh) := by
  unfold State.fetchFault
  repeat' with_reducible first | assumption | apply State.bundleFault_keeps | apply State.issue_keeps

theorem State.fetchEcc_keeps {z₀ : State} (s : State) (sh : ShadeIx) (k : Nat) (h_s : Keeps z₀ s) : Keeps z₀ (State.fetchEcc s sh k) := by
  unfold State.fetchEcc
  repeat' with_reducible first | assumption | apply State.machineFault_keeps | apply State.eccRecord_keeps

theorem State.fetchIssue_keeps {z₀ : State} (s : State) (sh : ShadeIx) (h_s : Keeps z₀ s) : Keeps z₀ (State.fetchIssue s sh) := by
  unfold State.fetchIssue
  repeat' with_reducible first
        | assumption | apply State.issueHeld_keeps | apply State.issue_keeps | apply State.fetchFault_keeps | apply State.fetchEcc_keeps
        | split | dsimp only | (intro)

theorem State.goClear_keeps {z₀ : State} (s : State) (sh : ShadeIx) (h_s : Keeps z₀ s) : Keeps z₀ (State.goClear s sh) := by
  unfold State.goClear
  repeat' with_reducible first | assumption | apply State.clrR_keeps

theorem State.frameFill_keeps {z₀ : State} (s : State) (sh : ShadeIx) (f : BitVec 6) (src : Nat) (bs : List Byte) (h_s : Keeps z₀ s) :
    Keeps z₀ (State.frameFill s sh f src bs) := by
  unfold State.frameFill
  repeat' with_reducible first | assumption | apply State.modLan_keeps | apply State.countLant_keeps | apply State.wrN_keeps

theorem State.frameFault_keeps {z₀ : State} (s : State) (sh : ShadeIx) (f : BitVec 6) (q : Option QOp) (e : OpFault) (h_s : Keeps z₀ s) :
    Keeps z₀ (State.frameFault s sh f q e) := by
  unfold State.frameFault
  repeat' with_reducible first
        | assumption | apply State.modLan_keeps | apply State.stopFault_keeps | apply State.recordXlate_keeps | apply State.opFault_keeps
        | apply State.goClear_keeps | split

theorem State.frameLoaded_keeps {z₀ : State} (s : State) (sh : ShadeIx) (h_s : Keeps z₀ s) : Keeps z₀ (State.frameLoaded s sh) := by
  unfold State.frameLoaded
  repeat' with_reducible first
        | assumption | apply Res.ok_keeps | apply State.finishNow_keeps | apply State.goClear_keeps | apply State.frameFill_keeps
        | apply State.frameFault_keeps | split | dsimp only | (intro)

theorem State.release_keeps {z₀ : State} (s : State) (sh : ShadeIx) (r : Running) (h_s : Keeps z₀ s) : Keeps z₀ (State.release s sh r) := by
  unfold State.release
  repeat' with_reducible first | assumption | apply State.modSh_keeps | apply Keeps.foldl

theorem State.ldpComplete_keeps {z₀ : State} (s : State) (sh : ShadeIx) (h_s : Keeps z₀ s) : Keeps z₀ (State.ldpComplete s sh) := by
  unfold State.ldpComplete
  repeat' with_reducible first | assumption | apply State.release_keeps | split

theorem State.tokenTimeout_keeps {z₀ : State} (s : State) (sh : ShadeIx) (h_s : Keeps z₀ s) : Keeps z₀ (State.tokenTimeout s sh) := by
  unfold State.tokenTimeout
  repeat' with_reducible first | assumption | apply State.stopFault_keeps | split

theorem State.lantStop_keeps {z₀ : State} (s : State) (sh : ShadeIx) (h_s : Keeps z₀ s) : Keeps z₀ (State.lantStop s sh) := by
  unfold State.lantStop
  repeat' with_reducible first | assumption | apply State.modLan_keeps | split

theorem State.bplByHost_keeps {z₀ : State} (s : State) (sh : ShadeIx) (h_s : Keeps z₀ s) : Keeps z₀ (State.bplByHost s sh) := by
  unfold State.bplByHost
  repeat' with_reducible first
        | assumption | apply State.orR_keeps | apply State.modLan_keeps | apply State.rsvdWr_keeps | apply State.recordFault_keeps
        | apply State.issue_keeps | split | dsimp only | (intro)

/-! ## LanternRows -/

theorem State.issueOne_keeps {z₀ : State} (s : State) (sh : ShadeIx) (ix : Nat) (psel : BitVec 4) (o : SlotOp) (h_s : Keeps z₀ s) :
    Keeps z₀ (State.issueOne s sh ix psel o) := by
  unfold State.issueOne
  repeat' with_reducible first | assumption | apply State.issue_keeps

/-! ## UnitRows -/

theorem State.unitRow_keeps {z₀ : State} {α : Type} (s : State) (sh : ShadeIx) (ix : Nat) (src : Src α) (mk : α → SlotOp) (kind : QOp → Bool) (h_s : Keeps z₀ s) :
    Keeps z₀ (State.unitRow s sh ix src mk kind) := by
  unfold State.unitRow
  repeat' with_reducible first | assumption | apply State.startKind_keeps | apply State.issue_keeps | apply State.issueOne_keeps | split

/-! ## Replay -/

theorem State.writeReplay_keeps {z₀ : State} (s : State) (sh : ShadeIx) (h_s : Keeps z₀ s) : Keeps z₀ (State.writeReplay s sh) := by
  unfold State.writeReplay
  repeat' with_reducible first | assumption | apply State.modSh_keeps

theorem State.windowGo_keeps {z₀ : State} (s : State) (sh : ShadeIx) (h_s : Keeps z₀ s) : Keeps z₀ (State.windowGo s sh) := by
  unfold State.windowGo
  repeat' with_reducible first | assumption | apply State.modSh_keeps | split

theorem State.dvfsHoldGo_keeps {z₀ : State} (s : State) (sh : ShadeIx) (h_s : Keeps z₀ s) : Keeps z₀ (State.dvfsHoldGo s sh) := by
  unfold State.dvfsHoldGo
  repeat' with_reducible first | assumption | apply State.modSh_keeps | split

theorem State.epochEnds_keeps {z₀ : State} (s : State) (sh : ShadeIx) (h_s : Keeps z₀ s) : Keeps z₀ (State.epochEnds s sh) := by
  unfold State.epochEnds
  repeat' with_reducible first | assumption | apply State.clrR_keeps | apply State.modSh_keeps | apply Keeps.foldl | (intro)

theorem State.preemptGo_keeps {z₀ : State} (s : State) (sh : ShadeIx) (h_s : Keeps z₀ s) : Keeps z₀ (State.preemptGo s sh) := by
  unfold State.preemptGo
  repeat' with_reducible first
        | assumption | apply State.count_keeps | apply State.modSh_keeps | apply State.halt_keeps | apply State.dvfsHoldGo_keeps | split

theorem State.yieldActions_keeps {z₀ : State} (s : State) (sh : ShadeIx) (stepEnd : Bool) (h_s : Keeps z₀ s) :
    Keeps z₀ (State.yieldActions s sh stepEnd) := by
  unfold State.yieldActions
  repeat' with_reducible first
        | assumption | apply State.count_keeps | apply State.maskCommits_keeps | apply State.stepBoundary_keeps
        | apply State.phaseBoundary_keeps | apply State.writeReplay_keeps | apply State.windowGo_keeps | apply State.epochEnds_keeps
        | apply State.preemptGo_keeps | split

theorem State.yieldPoint_keeps {z₀ : State} (s : State) (sh : ShadeIx) (h_s : Keeps z₀ s) : Keeps z₀ (State.yieldPoint s sh) := by
  unfold State.yieldPoint
  repeat' with_reducible first
        | assumption | apply State.modLan_keeps | apply State.stopFault_keeps | apply State.yieldActions_keeps | split | dsimp only | (intro)

theorem State.dvfsCancel_keeps {z₀ : State} (s : State) (h_s : Keeps z₀ s) : Keeps z₀ (State.dvfsCancel s) := by
  unfold State.dvfsCancel
  repeat' first
    | with_reducible assumption
    | with_reducible first | apply State.modSh_keeps | apply State.setErr_keeps | apply State.raise_keeps | apply Keeps.foldl
    | split
    | dsimp only
    | (intro)
    | (constructor <;> dsimp only <;> first | with_reducible rfl | with_reducible apply Keeps.pending | with_reducible apply Keeps.power | with_reducible apply Keeps.wf | with_reducible apply Keeps.memSet | with_reducible apply Keeps.memSetList | with_reducible apply Keeps.memClear)

theorem State.yieldLate_keeps {z₀ : State} (s : State) (sh : ShadeIx) (h_s : Keeps z₀ s) : Keeps z₀ (State.yieldLate s sh) := by
  unfold State.yieldLate
  repeat' with_reducible first
        | assumption | apply State.count_keeps | apply State.modLan_keeps | apply State.reportFault_keeps | apply State.replayErr_keeps
        | apply State.dvfsCancel_keeps | split | dsimp only | (intro)

theorem State.firstRecord_keeps {z₀ : State} (s : State) (sh : ShadeIx) (h_s : Keeps z₀ s) : Keeps z₀ (State.firstRecord s sh) := by
  unfold State.firstRecord
  repeat' with_reducible first | assumption | apply State.writeReplay_keeps | split | dsimp only | (intro)

theorem State.lantStart_keeps {z₀ : State} (s : State) (sh : ShadeIx) (h_s : Keeps z₀ s) : Keeps z₀ (State.lantStart s sh) := by
  unfold State.lantStart
  repeat' with_reducible first
        | assumption | apply State.modSh_keeps | apply State.rsvdWr_keeps | apply State.windowGo_keeps | apply State.firstRecord_keeps | split

theorem State.preempt_keeps {z₀ : State} (s : State) (sh : ShadeIx) (h_s : Keeps z₀ s) : Keeps z₀ (State.preempt s sh) := by
  unfold State.preempt
  repeat' with_reducible first | assumption | apply State.modSh_keeps | split

theorem State.askRollback_keeps {z₀ : State} (s : State) (sh : ShadeIx) (trigger : Nat) (h_s : Keeps z₀ s) :
    Keeps z₀ (State.askRollback s sh trigger) := by
  unfold State.askRollback
  repeat' with_reducible first | assumption | apply State.startRolling_keeps | apply State.replayErr_keeps | apply State.haltStop_keeps | split

theorem State.force_keeps {z₀ : State} (s : State) (sh : ShadeIx) (h_s : Keeps z₀ s) : Keeps z₀ (State.force s sh) := by
  unfold State.force
  repeat' with_reducible first | assumption | apply State.modSh_keeps | apply State.askRollback_keeps | split | dsimp only | (intro)

theorem State.rollback_keeps {z₀ : State} (s : State) (sh : ShadeIx) (h_s : Keeps z₀ s) : Keeps z₀ (State.rollback s sh) := by
  unfold State.rollback
  repeat' with_reducible first | assumption | apply State.rsvdWr_keeps | apply State.startRolling_keeps | apply State.replayErr_keeps | split

theorem State.restoreGlints_keeps {z₀ : State} (s : State) (sh : ShadeIx) (sums : List (Nat × W64)) (h_s : Keeps z₀ s) :
    Keeps z₀ (State.restoreGlints s sh sums) := by
  unfold State.restoreGlints
  repeat' first
    | with_reducible assumption
    | with_reducible first | apply Keeps.foldl
    | split
    | dsimp only
    | (intro)
    | (constructor <;> dsimp only <;> first | with_reducible rfl | with_reducible apply Keeps.pending | with_reducible apply Keeps.power | with_reducible apply Keeps.wf | with_reducible apply Keeps.memSet | with_reducible apply Keeps.memSetList | with_reducible apply Keeps.memClear)

theorem State.taintGuards_keeps {z₀ : State} (s : State) (sh : ShadeIx) (h_s : Keeps z₀ s) : Keeps z₀ (State.taintGuards s sh) := by
  unfold State.taintGuards
  repeat' with_reducible first | assumption | apply State.orR_keeps | apply Keeps.foldl | split | (intro)

theorem State.restoreRecord_keeps {z₀ : State} (s : State) (sh : ShadeIx) (r : Record) (h_s : Keeps z₀ s) :
    Keeps z₀ (State.restoreRecord s sh r) := by
  unfold State.restoreRecord
  repeat' first
    | with_reducible assumption
    | with_reducible first
        | apply State.modSh_keeps | apply State.maskRollback_keeps | apply State.phaseSettle_keeps | apply State.goClear_keeps
        | apply State.restoreGlints_keeps | apply State.taintGuards_keeps | apply Keeps.foldl
    | split
    | dsimp only
    | (intro)
    | (constructor <;> dsimp only <;> first | with_reducible rfl | with_reducible apply Keeps.pending | with_reducible apply Keeps.power | with_reducible apply Keeps.wf | with_reducible apply Keeps.memSet | with_reducible apply Keeps.memSetList | with_reducible apply Keeps.memClear)

theorem State.reloadFrames_keeps {z₀ : State} (s : State) (sh : ShadeIx) (fs : List (BitVec 6)) (h_s : Keeps z₀ s) :
    Keeps z₀ (State.reloadFrames s sh fs).s := by
  unfold State.reloadFrames
  repeat' with_reducible first
        | assumption | apply State.modLan_keeps | apply Res.ok_keeps | apply resFold_keeps | apply State.frameFill_keeps | split | dsimp only
        | (intro)

theorem State.rollbackRecord_keeps {z₀ : State} (s : State) (sh : ShadeIx) (r : Rolling) (rec : Record) (h_s : Keeps z₀ s) :
    Keeps z₀ (State.rollbackRecord s sh r rec) := by
  unfold State.rollbackRecord
  repeat' with_reducible first | assumption | apply State.shadeRecord_keeps | apply State.tick_keeps

theorem State.rollbackEnd_keeps {z₀ : State} (s : State) (sh : ShadeIx) (r : Rolling) (h_s : Keeps z₀ s) : Keeps z₀ (State.rollbackEnd s sh r) := by
  unfold State.rollbackEnd
  repeat' with_reducible first
        | assumption | apply State.count_keeps | apply State.modSh_keeps | apply State.halt_keeps | apply State.askRollback_keeps | split

theorem State.rollbackRestore_keeps {z₀ : State} (s : State) (sh : ShadeIx) (h_s : Keeps z₀ s) : Keeps z₀ (State.rollbackRestore s sh) := by
  unfold State.rollbackRestore
  repeat' with_reducible first
        | assumption | apply State.count_keeps | apply State.modSh_keeps | apply State.raise_keeps | apply State.stopFault_keeps
        | apply State.recordXlate_keeps | apply State.replayErr_keeps | apply State.haltStop_keeps | apply State.markFault_keeps
        | apply State.restoreRecord_keeps | apply State.reloadFrames_keeps | apply State.rollbackRecord_keeps | apply State.rollbackEnd_keeps
        | split | dsimp only | (intro)

theorem State.deferExpiry_keeps {z₀ : State} (s : State) (sh : ShadeIx) (h_s : Keeps z₀ s) : Keeps z₀ (State.deferExpiry s sh) := by
  unfold State.deferExpiry
  repeat' with_reducible first | assumption | apply State.count_keeps | apply State.countSpan_keeps | apply State.tick_keeps | split

theorem State.padded_keeps {z₀ : State} (s : State) (sh : ShadeIx) (late : Bool) (h_s : Keeps z₀ s) : Keeps z₀ (State.padded s sh late) := by
  unfold State.padded
  repeat' with_reducible first | assumption | apply State.modSh_keeps | split

/-! ## Access -/

theorem State.write_keeps {z₀ : State} (s : State) (path : Path) (k : PageKind) (inst off : Nat) (f : State → State) (h_s : Keeps z₀ s) (h_f : ∀ y, Keeps z₀ y → Keeps z₀ (f y)) :
    Keeps z₀ (State.write s path k inst off f) := by
  unfold State.write
  repeat' with_reducible first | assumption | apply h_f | apply State.count_keeps | apply State.rsvdWr_keeps | split | dsimp only | (intro)

theorem State.serveRead_keeps {z₀ : State} (s : State) (path : Path) (k : PageKind) (inst : Nat) (f : State → State) (h_s : Keeps z₀ s) (h_f : ∀ y, Keeps z₀ y → Keeps z₀ (f y)) :
    Keeps z₀ (State.serveRead s path k inst f) := by
  unfold State.serveRead
  repeat' with_reducible first | assumption | apply h_f | apply State.count_keeps | split

/-! ## LinkRows -/

theorem State.arrives_keeps {z₀ : State} (s : State) (port : PortIx) (head : Head) (b : Body) (f : Msg → State → State) (h_s : Keeps z₀ s) (h_f : ∀ v0 y, Keeps z₀ y → Keeps z₀ (f v0 y)) :
    Keeps z₀ (State.arrives s port head b f) := by
  unfold State.arrives
  repeat' with_reducible first | assumption | apply h_f | apply State.receive_keeps

end Sys2Proof.Machine
end

