-- ==== Sys2Proof/Laws/KeepsSystem.lean ====
section
/-! SUPPORT. What the operations of shades, health, registers and time keep: the queue of commands, the power modes and the canonical form of memory. -/

set_option linter.unusedTactic false
set_option linter.unreachableTactic false
set_option linter.unusedVariables false

namespace Sys2Proof.Machine

/-! ## Shades -/

theorem State.resetRegs_keeps {z₀ : State} (s : State) (f : PageKind → Nat → Nat → Bool) (h_s : Keeps z₀ s) : Keeps z₀ (State.resetRegs s f) := by
  unfold State.resetRegs
  repeat' first
    | with_reducible assumption
    | with_reducible first | apply Keeps.foldl
    | split
    | dsimp only
    | (intro)
    | (constructor <;> dsimp only <;> first | with_reducible rfl | with_reducible apply Keeps.pending | with_reducible apply Keeps.power | with_reducible apply Keeps.wf | with_reducible apply Keeps.memSet | with_reducible apply Keeps.memSetList | with_reducible apply Keeps.memClear)

theorem State.resetCounts_keeps {z₀ : State} (s : State) (f : PageKind → Nat → Bool) (h_s : Keeps z₀ s) : Keeps z₀ (State.resetCounts s f) := by
  unfold State.resetCounts
  repeat' first
    | with_reducible assumption
    | with_reducible first | apply LensJob.units_keeps | apply Keeps.foldl
    | split
    | dsimp only
    | (intro)
    | (constructor <;> dsimp only <;> first | with_reducible rfl | with_reducible apply Keeps.pending | with_reducible apply Keeps.power | with_reducible apply Keeps.wf | with_reducible apply Keeps.memSet | with_reducible apply Keeps.memSetList | with_reducible apply Keeps.memClear)

theorem State.scrubPrism_keeps {z₀ : State} (s : State) (p : Nat) (h_s : Keeps z₀ s) : Keeps z₀ (State.scrubPrism s p) := by
  unfold State.scrubPrism
  repeat' first
    | with_reducible assumption
    | with_reducible first | apply State.zeroRange_keeps | apply Keeps.foldl
    | split
    | dsimp only
    | (intro)
    | (constructor <;> dsimp only <;> first | with_reducible rfl | with_reducible apply Keeps.pending | with_reducible apply Keeps.power | with_reducible apply Keeps.wf | with_reducible apply Keeps.memSet | with_reducible apply Keeps.memSetList | with_reducible apply Keeps.memClear)

theorem State.resetPrismPages_keeps {z₀ : State} (s : State) (f : Nat → Bool) (h_s : Keeps z₀ s) : Keeps z₀ (State.resetPrismPages s f) := by
  unfold State.resetPrismPages
  repeat' with_reducible first | assumption | apply State.resetRegs_keeps | apply State.resetCounts_keeps

theorem State.prismReset_keeps {z₀ : State} (s : State) (p : Nat) (h_s : Keeps z₀ s) : Keeps z₀ (State.prismReset s p) := by
  unfold State.prismReset
  repeat' with_reducible first | assumption | apply State.scrubPrism_keeps | apply State.resetPrismPages_keeps

theorem State.setUnitOwner_keeps {z₀ : State} (s : State) (deep : Bool) (u v : Nat) (h_s : Keeps z₀ s) :
    Keeps z₀ (State.setUnitOwner s deep u v) := by
  unfold State.setUnitOwner
  repeat' with_reducible first | assumption | apply State.setF_keeps

theorem State.setDirty_keeps {z₀ : State} (s : State) (deep : Bool) (u : Nat) (v : Bool) (h_s : Keeps z₀ s) :
    Keeps z₀ (State.setDirty s deep u v) := by
  unfold State.setDirty
  repeat' with_reducible first | assumption | apply State.setF_keeps

theorem State.clearRetained_keeps {z₀ : State} (s : State) (u : Nat) (h_s : Keeps z₀ s) : Keeps z₀ (State.clearRetained s u) := by
  unfold State.clearRetained
  repeat' with_reducible first | assumption | apply State.clrR_keeps

theorem State.releaseUnit_keeps {z₀ : State} (s : State) (deep : Bool) (u : Nat) (h_s : Keeps z₀ s) : Keeps z₀ (State.releaseUnit s deep u) := by
  unfold State.releaseUnit
  repeat' with_reducible first | assumption | apply State.count_keeps | apply State.setUnitOwner_keeps | apply State.setDirty_keeps

theorem State.unitWrite_keeps {z₀ : State} (s : State) (deep : Bool) (u v : Nat) (h_s : Keeps z₀ s) : Keeps z₀ (State.unitWrite s deep u v) := by
  unfold State.unitWrite
  repeat' with_reducible first
        | assumption | apply State.rsvdWr_keeps | apply State.setUnitOwner_keeps | apply State.clearRetained_keeps
        | apply State.releaseUnit_keeps | split | dsimp only | (intro)

theorem State.ownerWord_keeps {z₀ : State} (s : State) (deep : Bool) (n v : Nat) (h_s : Keeps z₀ s) : Keeps z₀ (State.ownerWord s deep n v) := by
  unfold State.ownerWord
  repeat' with_reducible first | assumption | apply State.rsvdWr_keeps | apply State.unitWrite_keeps | apply Keeps.foldl | split | (intro)

theorem State.retainClear_keeps {z₀ : State} (s : State) (n v : Nat) (h_s : Keeps z₀ s) : Keeps z₀ (State.retainClear s n v) := by
  unfold State.retainClear
  repeat' with_reducible first
        | assumption | apply State.count_keeps | apply State.rsvdWr_keeps | apply State.setDirty_keeps | apply State.clearRetained_keeps
        | apply Keeps.foldl | split | dsimp only | (intro)

theorem State.scrubStart_keeps {z₀ : State} (s : State) (b : Nat) (h_s : Keeps z₀ s) : Keeps z₀ (State.scrubStart s b) := by
  unfold State.scrubStart
  repeat' first
    | with_reducible assumption
    | with_reducible first | apply Keeps.foldl
    | split
    | dsimp only
    | (intro)
    | (refine Keeps.ofPair ?_ (by with_reducible assumption))
    | (refine Keeps.ofOk ?_ (by with_reducible assumption))
    | (refine Keeps.ofOver ?_ (by with_reducible assumption))
    | (refine Keeps.ofWait ?_ (by with_reducible assumption))
    | (refine Keeps.ofFault ?_ (by with_reducible assumption))
    | (refine Keeps.ofGo ?_ (by with_reducible assumption))
    | (refine Keeps.ofCommitOver ?_ (by with_reducible assumption))
    | (refine Keeps.ofWritten ?_ (by with_reducible assumption))
    | (constructor <;> dsimp only <;> first | with_reducible rfl | with_reducible apply Keeps.pending | with_reducible apply Keeps.power | with_reducible apply Keeps.wf | with_reducible apply Keeps.memSet | with_reducible apply Keeps.memSetList | with_reducible apply Keeps.memClear)

theorem State.scrubDone_keeps {z₀ : State} (s : State) (b : Nat) (h_s : Keeps z₀ s) : Keeps z₀ (State.scrubDone s b) := by
  unfold State.scrubDone
  repeat' first
    | with_reducible assumption
    | with_reducible first
        | apply State.count_keeps | apply State.raise_keeps | apply State.zeroRange_keeps | apply State.setDirty_keeps | apply Keeps.foldl
    | split
    | dsimp only
    | (intro)
    | (refine Keeps.ofPair ?_ (by with_reducible assumption))
    | (refine Keeps.ofOk ?_ (by with_reducible assumption))
    | (refine Keeps.ofOver ?_ (by with_reducible assumption))
    | (refine Keeps.ofWait ?_ (by with_reducible assumption))
    | (refine Keeps.ofFault ?_ (by with_reducible assumption))
    | (refine Keeps.ofGo ?_ (by with_reducible assumption))
    | (refine Keeps.ofCommitOver ?_ (by with_reducible assumption))
    | (refine Keeps.ofWritten ?_ (by with_reducible assumption))
    | (constructor <;> dsimp only <;> first | with_reducible rfl | with_reducible apply Keeps.pending | with_reducible apply Keeps.power | with_reducible apply Keeps.wf | with_reducible apply Keeps.memSet | with_reducible apply Keeps.memSetList | with_reducible apply Keeps.memClear)

theorem State.bcnActivate_keeps {z₀ : State} (s : State) (t n : Nat) (h_s : Keeps z₀ s) : Keeps z₀ (State.bcnActivate s t n) := by
  unfold State.bcnActivate
  repeat' first
    | with_reducible assumption
    | with_reducible first | apply State.count_keeps | apply State.bcnAfter_keeps | apply Ready.act_keeps | apply Keeps.foldl
    | split
    | dsimp only
    | (intro)
    | (constructor <;> dsimp only <;> first | with_reducible rfl | with_reducible apply Keeps.pending | with_reducible apply Keeps.power | with_reducible apply Keeps.wf | with_reducible apply Keeps.memSet | with_reducible apply Keeps.memSetList | with_reducible apply Keeps.memClear)

theorem State.bcnComplete_keeps {z₀ : State} (s : State) (t n : Nat) (h_s : Keeps z₀ s) : Keeps z₀ (State.bcnComplete s t n) := by
  unfold State.bcnComplete
  repeat' first
    | with_reducible assumption
    | with_reducible first
        | apply State.satAdd_keeps | apply State.count_keeps | apply State.bcnAfter_keeps | apply Ready.act_keeps | apply Keeps.foldl
    | split
    | dsimp only
    | (intro)
    | (constructor <;> dsimp only <;> first | with_reducible rfl | with_reducible apply Keeps.pending | with_reducible apply Keeps.power | with_reducible apply Keeps.wf | with_reducible apply Keeps.memSet | with_reducible apply Keeps.memSetList | with_reducible apply Keeps.memClear)

theorem State.bcnSrcSet_keeps {z₀ : State} (s : State) (k : PageKind) (inst n v : Nat) (alias_ : Bool) (h_s : Keeps z₀ s) :
    Keeps z₀ (State.bcnSrcSet s k inst n v alias_) := by
  unfold State.bcnSrcSet
  repeat' first
    | with_reducible assumption
    | with_reducible first
        | apply State.setR_keeps | apply State.rsvdWr_keeps | apply State.bcnAfter_keeps | apply Ready.act_keeps | apply Keeps.foldl
    | split
    | dsimp only
    | (intro)
    | (constructor <;> dsimp only <;> first | with_reducible rfl | with_reducible apply Keeps.pending | with_reducible apply Keeps.power | with_reducible apply Keeps.wf | with_reducible apply Keeps.memSet | with_reducible apply Keeps.memSetList | with_reducible apply Keeps.memClear)

theorem State.bcnThresh_keeps {z₀ : State} (s : State) (t v : Nat) (h_s : Keeps z₀ s) : Keeps z₀ (State.bcnThresh s t v) := by
  unfold State.bcnThresh
  repeat' with_reducible first | assumption | apply State.setR_keeps | apply State.rsvdWr_keeps | apply State.bcnAfter_keeps | split

theorem State.bcnIdle_keeps {z₀ : State} (s : State) (t v : Nat) (h_s : Keeps z₀ s) : Keeps z₀ (State.bcnIdle s t v) := by
  unfold State.bcnIdle
  repeat' with_reducible first
        | assumption | apply State.setR_keeps | apply State.count_keeps | apply State.rsvdWr_keeps | apply State.bcnSend_keeps | split
        | dsimp only | (intro)

theorem State.moderationTimer_keeps {z₀ : State} (s : State) (t : Nat) (h_s : Keeps z₀ s) : Keeps z₀ (State.moderationTimer s t) := by
  unfold State.moderationTimer
  repeat' with_reducible first | assumption | apply State.bcnSend_keeps | split

theorem State.bcnReset_keeps {z₀ : State} (s : State) (sh : ShadeIx) (h_s : Keeps z₀ s) : Keeps z₀ (State.bcnReset s sh) := by
  unfold State.bcnReset
  repeat' first
    | with_reducible assumption
    | with_reducible first
        | apply State.bcnAfter_keeps | apply Ready.act_keeps | apply State.resetRegs_keeps | apply State.resetCounts_keeps | apply Keeps.foldl
    | split
    | dsimp only
    | (intro)
    | (constructor <;> dsimp only <;> first | with_reducible rfl | with_reducible apply Keeps.pending | with_reducible apply Keeps.power | with_reducible apply Keeps.wf | with_reducible apply Keeps.memSet | with_reducible apply Keeps.memSetList | with_reducible apply Keeps.memClear)

theorem State.resetBegin_keeps {z₀ : State} (s : State) (sh : ShadeIx) (life : Nat) (h_s : Keeps z₀ s) : Keeps z₀ (State.resetBegin s sh life) := by
  unfold State.resetBegin
  repeat' first
    | with_reducible assumption
    | with_reducible first | apply State.modSh_keeps | apply State.haltStop_keeps | apply State.bcnReset_keeps | apply Keeps.foldl
    | split
    | dsimp only
    | (intro)
    | (constructor <;> dsimp only <;> first | with_reducible rfl | with_reducible apply Keeps.pending | with_reducible apply Keeps.power | with_reducible apply Keeps.wf | with_reducible apply Keeps.memSet | with_reducible apply Keeps.memSetList | with_reducible apply Keeps.memClear)

theorem State.shadeReset_keeps {z₀ : State} (s : State) (sh : ShadeIx) (h_s : Keeps z₀ s) : Keeps z₀ (State.shadeReset s sh) := by
  unfold State.shadeReset
  repeat' with_reducible first | assumption | apply State.resetBegin_keeps | split

theorem State.shadeKill_keeps {z₀ : State} (s : State) (sh : ShadeIx) (h_s : Keeps z₀ s) : Keeps z₀ (State.shadeKill s sh) := by
  unfold State.shadeKill
  repeat' with_reducible first | assumption | apply State.setF_keeps | apply State.modSh_keeps | apply State.resetBegin_keeps | split

theorem State.emptyQueues_keeps {z₀ : State} (s : State) (sh : ShadeIx) (h_s : Keeps z₀ s) : Keeps z₀ (State.emptyQueues s sh) := by
  unfold State.emptyQueues
  repeat' with_reducible first | assumption | apply State.setR_keeps | apply State.setAgQ_keeps | apply Keeps.foldl | (intro)

theorem State.resetState_keeps {z₀ : State} (s : State) (sh : ShadeIx) (h_s : Keeps z₀ s) : Keeps z₀ (State.resetState s sh) := by
  unfold State.resetState
  repeat' first
    | with_reducible assumption
    | with_reducible first
        | apply State.modSh_keeps | apply State.snapCancel_keeps | apply State.resetRegs_keeps | apply State.resetCounts_keeps
        | apply State.scrubPrism_keeps | apply State.resetPrismPages_keeps | apply State.emptyQueues_keeps | apply Keeps.foldl
    | split
    | dsimp only
    | (intro)
    | (constructor <;> dsimp only <;> first | with_reducible rfl | with_reducible apply Keeps.pending | with_reducible apply Keeps.power | with_reducible apply Keeps.wf | with_reducible apply Keeps.memSet | with_reducible apply Keeps.memSetList | with_reducible apply Keeps.memClear)

theorem State.resetEnd_keeps {z₀ : State} (s : State) (sh : ShadeIx) (h_s : Keeps z₀ s) : Keeps z₀ (State.resetEnd s sh) := by
  unfold State.resetEnd
  repeat' with_reducible first
        | assumption | apply State.setF_keeps | apply State.clrR_keeps | apply State.count_keeps | apply State.modSh_keeps
        | apply State.raise_keeps

theorem State.killEnd_keeps {z₀ : State} (s : State) (sh : ShadeIx) (h_s : Keeps z₀ s) : Keeps z₀ (State.killEnd s sh) := by
  unfold State.killEnd
  repeat' with_reducible first
        | assumption | apply State.setF_keeps | apply State.clrR_keeps | apply State.setOwnerP_keeps | apply State.setOwnerQ_keeps
        | apply State.modSh_keeps | apply State.raise_keeps | apply State.releaseUnit_keeps | apply Keeps.foldl | split | (intro)

theorem State.resetScrub_keeps {z₀ : State} (s : State) (sh : ShadeIx) (h_s : Keeps z₀ s) : Keeps z₀ (State.resetScrub s sh) := by
  unfold State.resetScrub
  repeat' with_reducible first
        | assumption | apply State.resetState_keeps | apply State.resetEnd_keeps | apply State.killEnd_keeps | split | dsimp only | (intro)

theorem State.shadeEnable_keeps {z₀ : State} (s : State) (sh : ShadeIx) (h_s : Keeps z₀ s) : Keeps z₀ (State.shadeEnable s sh) := by
  unfold State.shadeEnable
  repeat' with_reducible first
        | assumption | apply State.setF_keeps | apply State.setErr_keeps | apply State.rsvdWr_keeps | apply State.shadeReset_keeps | split

theorem State.shadeResetWrite_keeps {z₀ : State} (s : State) (sh : ShadeIx) (h_s : Keeps z₀ s) : Keeps z₀ (State.shadeResetWrite s sh) := by
  unfold State.shadeResetWrite
  repeat' with_reducible first | assumption | apply State.setF_keeps | apply State.shadeReset_keeps

theorem State.msixReset_keeps {z₀ : State} (s : State) (f : Nat) (h_s : Keeps z₀ s) : Keeps z₀ (State.msixReset s f) := by
  unfold State.msixReset
  repeat' first
    | with_reducible assumption
    | with_reducible first | apply Keeps.foldl
    | split
    | dsimp only
    | (intro)
    | (constructor <;> dsimp only <;> first | with_reducible rfl | with_reducible apply Keeps.pending | with_reducible apply Keeps.power | with_reducible apply Keeps.wf | with_reducible apply Keeps.memSet | with_reducible apply Keeps.memSetList | with_reducible apply Keeps.memClear)

theorem State.vfFlr_keeps {z₀ : State} (s : State) (sh : ShadeIx) (h_s : Keeps z₀ s) : Keeps z₀ (State.vfFlr s sh) := by
  unfold State.vfFlr
  repeat' first
    | with_reducible assumption
    | with_reducible first | apply State.shadeReset_keeps | apply State.msixReset_keeps | apply Keeps.foldl
    | split
    | dsimp only
    | (intro)
    | (constructor <;> dsimp only <;> first | with_reducible rfl | with_reducible apply Keeps.pending | with_reducible apply Keeps.power | with_reducible apply Keeps.wf | with_reducible apply Keeps.memSet | with_reducible apply Keeps.memSetList | with_reducible apply Keeps.memClear)

theorem State.vfGoneOne_keeps {z₀ : State} (s : State) (sh : ShadeIx) (h_s : Keeps z₀ s) : Keeps z₀ (State.vfGoneOne s sh) := by
  unfold State.vfGoneOne
  repeat' with_reducible first | assumption | apply State.setErr_keeps | apply State.shadeKill_keeps | split

theorem State.setVfs_keeps {z₀ : State} (s : State) (n : Nat) (h_s : Keeps z₀ s) : Keeps z₀ (State.setVfs s n) := by
  unfold State.setVfs
  repeat' first
    | with_reducible assumption
    | with_reducible first | apply State.msixReset_keeps | apply State.vfGoneOne_keeps | apply Keeps.foldl
    | split
    | dsimp only
    | (intro)
    | (constructor <;> dsimp only <;> first | with_reducible rfl | with_reducible apply Keeps.pending | with_reducible apply Keeps.power | with_reducible apply Keeps.wf | with_reducible apply Keeps.memSet | with_reducible apply Keeps.memSetList | with_reducible apply Keeps.memClear)

theorem State.prismOwnerWrite_keeps {z₀ : State} (s : State) (k : PageKind) (inst v : Nat) (h_s : Keeps z₀ s) :
    Keeps z₀ (State.prismOwnerWrite s k inst v) := by
  unfold State.prismOwnerWrite
  repeat' with_reducible first
        | assumption | apply State.setOwnerP_keeps | apply State.rsvdWr_keeps | apply State.scrubPrism_keeps | split | dsimp only | (intro)

theorem State.queueOwnerWrite_keeps {z₀ : State} (s : State) (q v : Nat) (h_s : Keeps z₀ s) : Keeps z₀ (State.queueOwnerWrite s q v) := by
  unfold State.queueOwnerWrite
  repeat' with_reducible first | assumption | apply State.setOwnerQ_keeps | apply State.rsvdWr_keeps | split | dsimp only | (intro)

theorem State.ownerWrite_keeps {z₀ : State} (s : State) (k : PageKind) (inst v : Nat) (h_s : Keeps z₀ s) :
    Keeps z₀ (State.ownerWrite s k inst v) := by
  unfold State.ownerWrite
  repeat' with_reducible first | assumption | apply State.rsvdWr_keeps | apply State.prismOwnerWrite_keeps | apply State.queueOwnerWrite_keeps | split

/-! ## Health -/

theorem State.alert_keeps {z₀ : State} (s : State) (bit : Nat) (h_s : Keeps z₀ s) : Keeps z₀ (State.alert s bit) := by
  unfold State.alert
  repeat' first
    | with_reducible assumption
    | with_reducible first | apply State.orR_keeps | apply Keeps.foldl
    | split
    | dsimp only
    | (intro)
    | (constructor <;> dsimp only <;> first | with_reducible rfl | with_reducible apply Keeps.pending | with_reducible apply Keeps.power | with_reducible apply Keeps.wf | with_reducible apply Keeps.memSet | with_reducible apply Keeps.memSetList | with_reducible apply Keeps.memClear)

theorem State.eccCorrected_keeps {z₀ : State} (s : State) (k : Nat) (h_s : Keeps z₀ s) : Keeps z₀ (State.eccCorrected s k) := by
  unfold State.eccCorrected
  repeat' with_reducible first | assumption | apply State.satAdd_keeps | apply State.count_keeps | apply State.blkErr_keeps | split

theorem State.patrol_keeps {z₀ : State} (s : State) (k flips : Nat) (h_s : Keeps z₀ s) : Keeps z₀ (State.patrol s k flips) := by
  unfold State.patrol
  repeat' with_reducible first
        | assumption | apply State.count_keeps | apply State.setEcc_keeps | apply State.machineFault_keeps | apply State.eccRecord_keeps
        | apply State.eccCorrected_keeps | split | dsimp only | (intro)

theorem State.goFatal_keeps {z₀ : State} (s : State) (h_s : Keeps z₀ s) : Keeps z₀ (State.goFatal s) := by
  unfold State.goFatal
  repeat' with_reducible first
        | assumption | apply State.orR_keeps | apply State.raise_keeps | apply State.recordFault_keeps | apply State.haltStop_keeps
        | apply State.alert_keeps | apply Keeps.foldl | split | (intro)

theorem State.testFailed_keeps {z₀ : State} (s : State) (p : Nat) (h_s : Keeps z₀ s) : Keeps z₀ (State.testFailed s p) := by
  unfold State.testFailed
  repeat' with_reducible first | assumption | apply State.count_keeps | apply State.raise_keeps | apply State.fence_keeps | split

theorem State.tested_keeps {z₀ : State} (s : State) (p : Nat) (r : TestResult) (h_s : Keeps z₀ s) : Keeps z₀ (State.tested s p r) := by
  unfold State.tested
  repeat' first
    | with_reducible assumption
    | with_reducible first | apply State.setF_keeps | apply State.clrR_keeps | apply Keeps.foldl
    | split
    | dsimp only
    | (intro)
    | (constructor <;> dsimp only <;> first | with_reducible rfl | with_reducible apply Keeps.pending | with_reducible apply Keeps.power | with_reducible apply Keeps.wf | with_reducible apply Keeps.memSet | with_reducible apply Keeps.memSetList | with_reducible apply Keeps.memClear)

theorem State.windowEnd_keeps {z₀ : State} (s : State) (p : Nat) (r : TestResult) (h_s : Keeps z₀ s) : Keeps z₀ (State.windowEnd s p r) := by
  unfold State.windowEnd
  repeat' with_reducible first | assumption | apply State.count_keeps | apply State.testFailed_keeps | apply State.tested_keeps | split

theorem State.selftestWindow_keeps {z₀ : State} (s : State) (p : Nat) (r : TestResult) (h_s : Keeps z₀ s) :
    Keeps z₀ (State.selftestWindow s p r) := by
  unfold State.selftestWindow
  repeat' with_reducible first | assumption | apply State.modSh_keeps | apply State.windowEnd_keeps | split

theorem State.selftestStale_keeps {z₀ : State} (s : State) (p : Nat) (h_s : Keeps z₀ s) : Keeps z₀ (State.selftestStale s p) := by
  unfold State.selftestStale
  repeat' with_reducible first | assumption | apply State.orR_keeps | apply State.tested_keeps | split

theorem State.maintAnswer_keeps {z₀ : State} (s : State) (who : MaintWho) (v : Nat) (h_s : Keeps z₀ s) : Keeps z₀ (State.maintAnswer s who v) := by
  unfold State.maintAnswer
  repeat' with_reducible first | assumption | apply State.setF_keeps | split

theorem State.maintGrant_keeps {z₀ : State} (s : State) (who : MaintWho) (act arg : Nat) (h_s : Keeps z₀ s) :
    Keeps z₀ (State.maintGrant s who act arg) := by
  unfold State.maintGrant
  repeat' first
    | with_reducible assumption
    | with_reducible first
        | apply State.setR_keeps | apply State.count_keeps | apply State.raise_keeps | apply Ready.act_keeps | apply State.maintAnswer_keeps
        | apply Keeps.foldl
    | split
    | dsimp only
    | (intro)
    | (constructor <;> dsimp only <;> first | with_reducible rfl | with_reducible apply Keeps.pending | with_reducible apply Keeps.power | with_reducible apply Keeps.wf | with_reducible apply Keeps.memSet | with_reducible apply Keeps.memSetList | with_reducible apply Keeps.memClear)

theorem State.maintAsk_keeps {z₀ : State} (s : State) (who : MaintWho) (act arg : Nat) (go : State → State) (h_s : Keeps z₀ s) (h_go : ∀ y, Keeps z₀ y → Keeps z₀ (go y)) :
    Keeps z₀ (State.maintAsk s who act arg go) := by
  unfold State.maintAsk
  repeat' with_reducible first
        | assumption | apply h_go | apply State.count_keeps | apply Ready.act_keeps | apply State.maintAnswer_keeps
        | apply State.maintGrant_keeps | split

theorem State.retrainGo_keeps {z₀ : State} (s : State) (i : Nat) (h_s : Keeps z₀ s) : Keeps z₀ (State.retrainGo s i) := by
  unfold State.retrainGo
  repeat' with_reducible first | assumption | apply State.orR_keeps

theorem State.maintStart_keeps {z₀ : State} (s : State) (act arg : Nat) (h_s : Keeps z₀ s) : Keeps z₀ (State.maintStart s act arg) := by
  unfold State.maintStart
  repeat' first
    | with_reducible assumption
    | with_reducible first | apply Ready.act_keeps | apply State.retrainGo_keeps | apply Keeps.foldl
    | split
    | dsimp only
    | (intro)
    | (refine Keeps.ofPair ?_ (by with_reducible assumption))
    | (refine Keeps.ofOk ?_ (by with_reducible assumption))
    | (refine Keeps.ofOver ?_ (by with_reducible assumption))
    | (refine Keeps.ofWait ?_ (by with_reducible assumption))
    | (refine Keeps.ofFault ?_ (by with_reducible assumption))
    | (refine Keeps.ofGo ?_ (by with_reducible assumption))
    | (refine Keeps.ofCommitOver ?_ (by with_reducible assumption))
    | (refine Keeps.ofWritten ?_ (by with_reducible assumption))
    | (constructor <;> dsimp only <;> first | with_reducible rfl | with_reducible apply Keeps.pending | with_reducible apply Keeps.power | with_reducible apply Keeps.wf | with_reducible apply Keeps.memSet | with_reducible apply Keeps.memSetList | with_reducible apply Keeps.memClear)

theorem State.maintReqWrite_keeps {z₀ : State} (s : State) (who : MaintWho) (v : Nat) (h_s : Keeps z₀ s) :
    Keeps z₀ (State.maintReqWrite s who v) := by
  unfold State.maintReqWrite
  repeat' with_reducible first
        | assumption | apply State.setR_keeps | apply State.rsvdWr_keeps | apply Ready.act_keeps | apply State.maintAsk_keeps
        | apply State.maintStart_keeps | split | dsimp only | (intro)

theorem State.maintRequest_keeps {z₀ : State} (s : State) (who : MaintWho) (act arg : Nat) (h_s : Keeps z₀ s) :
    Keeps z₀ (State.maintRequest s who act arg) := by
  unfold State.maintRequest
  repeat' with_reducible first
        | assumption | apply Ready.act_keeps | apply State.write_keeps | apply State.maintAsk_keeps | apply State.maintStart_keeps
        | apply State.maintReqWrite_keeps | split | (intro)

theorem State.flashGo_keeps {z₀ : State} (s : State) (image : Bool) (data : Option (List Byte)) (h_s : Keeps z₀ s) :
    Keeps z₀ (State.flashGo s image data) := by
  unfold State.flashGo
  repeat' first
    | with_reducible assumption
    | with_reducible first | apply State.wrN_keeps | apply Keeps.foldl
    | split
    | dsimp only
    | (intro)
    | (refine Keeps.ofPair ?_ (by with_reducible assumption))
    | (refine Keeps.ofOk ?_ (by with_reducible assumption))
    | (refine Keeps.ofOver ?_ (by with_reducible assumption))
    | (refine Keeps.ofWait ?_ (by with_reducible assumption))
    | (refine Keeps.ofFault ?_ (by with_reducible assumption))
    | (refine Keeps.ofGo ?_ (by with_reducible assumption))
    | (refine Keeps.ofCommitOver ?_ (by with_reducible assumption))
    | (refine Keeps.ofWritten ?_ (by with_reducible assumption))
    | (constructor <;> dsimp only <;> first | with_reducible rfl | with_reducible apply Keeps.pending | with_reducible apply Keeps.power | with_reducible apply Keeps.wf | with_reducible apply Keeps.memSet | with_reducible apply Keeps.memSetList | with_reducible apply Keeps.memClear)

theorem State.flashRow_keeps {z₀ : State} (s : State) (who : MaintWho) (act : Nat) (data : Option (List Byte)) (h_s : Keeps z₀ s) :
    Keeps z₀ (State.flashRow s who act data) := by
  unfold State.flashRow
  repeat' with_reducible first
        | assumption | apply Ready.act_keeps | apply State.maintRequest_keeps | apply State.flashGo_keeps | split | dsimp only | (intro)

theorem State.setL2p_keeps {z₀ : State} (s : State) (n : Nat) (p : Option Nat) (h_s : Keeps z₀ s) : Keeps z₀ (State.setL2p s n p) := by
  unfold State.setL2p
  repeat' with_reducible first | assumption | apply State.setR_keeps

theorem State.takeLogical_keeps {z₀ : State} (s : State) (p n : Nat) (h_s : Keeps z₀ s) : Keeps z₀ (State.takeLogical s p n) := by
  unfold State.takeLogical
  repeat' with_reducible first | assumption | apply State.setF_keeps | apply State.setL2p_keeps

theorem State.dropRecords_keeps {z₀ : State} (s : State) (p : Nat) (h_s : Keeps z₀ s) : Keeps z₀ (State.dropRecords s p) := by
  unfold State.dropRecords
  repeat' with_reducible first | assumption | apply State.modSh_keeps | split

theorem State.substitute_keeps {z₀ : State} (s : State) (p : Nat) (r : TestResult) (h_s : Keeps z₀ s) : Keeps z₀ (State.substitute s p r) := by
  unfold State.substitute
  repeat' first
    | with_reducible assumption
    | with_reducible first
        | apply State.setF_keeps | apply State.count_keeps | apply State.setOwnerP_keeps | apply State.raise_keeps
        | apply State.prismReset_keeps | apply State.testFailed_keeps | apply State.setL2p_keeps | apply State.takeLogical_keeps
        | apply State.dropRecords_keeps | apply Keeps.foldl
    | split
    | dsimp only
    | (intro)
    | (refine Keeps.ofPair ?_ (by with_reducible assumption))
    | (refine Keeps.ofOk ?_ (by with_reducible assumption))
    | (refine Keeps.ofOver ?_ (by with_reducible assumption))
    | (refine Keeps.ofWait ?_ (by with_reducible assumption))
    | (refine Keeps.ofFault ?_ (by with_reducible assumption))
    | (refine Keeps.ofGo ?_ (by with_reducible assumption))
    | (refine Keeps.ofCommitOver ?_ (by with_reducible assumption))
    | (refine Keeps.ofWritten ?_ (by with_reducible assumption))
    | (constructor <;> dsimp only <;> first | with_reducible rfl | with_reducible apply Keeps.pending | with_reducible apply Keeps.power | with_reducible apply Keeps.wf | with_reducible apply Keeps.memSet | with_reducible apply Keeps.memSetList | with_reducible apply Keeps.memClear)

theorem State.spareSub_keeps {z₀ : State} (s : State) (p : Nat) (r : TestResult) (h_s : Keeps z₀ s) : Keeps z₀ (State.spareSub s p r) := by
  unfold State.spareSub
  repeat' first
    | with_reducible assumption
    | with_reducible first | apply State.maintAsk_keeps | apply State.substitute_keeps | apply Keeps.foldl
    | split
    | dsimp only
    | (intro)
    | (constructor <;> dsimp only <;> first | with_reducible rfl | with_reducible apply Keeps.pending | with_reducible apply Keeps.power | with_reducible apply Keeps.wf | with_reducible apply Keeps.memSet | with_reducible apply Keeps.memSetList | with_reducible apply Keeps.memClear)

theorem State.unfenceResult_keeps {z₀ : State} (s : State) (v : Nat) (h_s : Keeps z₀ s) : Keeps z₀ (State.unfenceResult s v) := by
  unfold State.unfenceResult
  repeat' with_reducible first | assumption | apply State.setF_keeps | apply State.clrR_keeps

theorem State.unfenceAsk_keeps {z₀ : State} (s : State) (p : Nat) (h_s : Keeps z₀ s) : Keeps z₀ (State.unfenceAsk s p) := by
  unfold State.unfenceAsk
  repeat' first
    | with_reducible assumption
    | with_reducible first
        | apply State.setR_keeps | apply State.count_keeps | apply State.maintGrant_keeps | apply State.unfenceResult_keeps | apply Keeps.foldl
    | split
    | dsimp only
    | (intro)
    | (constructor <;> dsimp only <;> first | with_reducible rfl | with_reducible apply Keeps.pending | with_reducible apply Keeps.power | with_reducible apply Keeps.wf | with_reducible apply Keeps.memSet | with_reducible apply Keeps.memSetList | with_reducible apply Keeps.memClear)

theorem State.unfenceTest_keeps {z₀ : State} (s : State) (p : Nat) (r : TestResult) (h_s : Keeps z₀ s) : Keeps z₀ (State.unfenceTest s p r) := by
  unfold State.unfenceTest
  split
  · exact h_s
  split
  · exact State.unfenceResult_keeps _ _ h_s
  have h1 := State.tested_keeps _ p r (State.prismReset_keeps s p h_s)
  dsimp only
  split
  · exact State.unfenceResult_keeps _ _ h1
  · exact Keeps.with_health _ (State.unfenceResult_keeps _ _ (State.takeLogical_keeps _ _ _ h1))

theorem State.retrainFailed_keeps {z₀ : State} (s : State) (deep : Bool) (h_s : Keeps z₀ s) : Keeps z₀ (State.retrainFailed s deep) := by
  unfold State.retrainFailed
  repeat' with_reducible first
        | assumption | apply State.raise_keeps | apply State.machineFaultUnattributed_keeps | apply Keeps.foldl | split | (intro)

theorem State.scrubLine_keeps {z₀ : State} (s : State) (k e : Nat) (h_s : Keeps z₀ s) : Keeps z₀ (State.scrubLine s k e) := by
  unfold State.scrubLine
  repeat' with_reducible first
        | assumption | apply State.setEcc_keeps | apply State.machineFaultUnattributed_keeps | apply State.eccRecord_keeps
        | apply State.eccCorrected_keeps | split | dsimp only | (intro)

theorem State.fullScrub_keeps {z₀ : State} (s : State) (h_s : Keeps z₀ s) : Keeps z₀ (State.fullScrub s) := by
  unfold State.fullScrub
  repeat' with_reducible first | assumption | apply State.scrubLine_keeps | apply Keeps.foldl | (intro)

theorem State.activityEnd_keeps {z₀ : State} (s : State) (ok : Bool) (h_s : Keeps z₀ s) : Keeps z₀ (State.activityEnd s ok) := by
  unfold State.activityEnd
  repeat' with_reducible first
        | assumption | apply State.clrR_keeps | apply State.raise_keeps | apply State.wrN_keeps | apply Res.ok_keeps
        | apply State.retrainFailed_keeps | apply State.fullScrub_keeps | apply Keeps.foldl | split | (intro)

theorem State.maintRelease_keeps {z₀ : State} (s : State) (r : MaintEnd) (h_s : Keeps z₀ s) : Keeps z₀ (State.maintRelease s r) := by
  unfold State.maintRelease
  repeat' first
    | with_reducible assumption
    | with_reducible first
        | apply State.setR_keeps | apply State.count_keeps | apply State.raise_keeps | apply Res.ok_keeps | apply State.maintGrant_keeps
        | apply State.activityEnd_keeps | apply Keeps.foldl
    | split
    | dsimp only
    | (intro)
    | (refine Keeps.ofPair ?_ (by with_reducible assumption))
    | (refine Keeps.ofOk ?_ (by with_reducible assumption))
    | (refine Keeps.ofOver ?_ (by with_reducible assumption))
    | (refine Keeps.ofWait ?_ (by with_reducible assumption))
    | (refine Keeps.ofFault ?_ (by with_reducible assumption))
    | (refine Keeps.ofGo ?_ (by with_reducible assumption))
    | (refine Keeps.ofCommitOver ?_ (by with_reducible assumption))
    | (refine Keeps.ofWritten ?_ (by with_reducible assumption))
    | (constructor <;> dsimp only <;> first | with_reducible rfl | with_reducible apply Keeps.pending | with_reducible apply Keeps.power | with_reducible apply Keeps.wf | with_reducible apply Keeps.memSet | with_reducible apply Keeps.memSetList | with_reducible apply Keeps.memClear)

theorem State.sampleSensors_keeps {z₀ : State} (s : State) (x : DimmerSample) (h_s : Keeps z₀ s) : Keeps z₀ (State.sampleSensors s x) := by
  unfold State.sampleSensors
  repeat' first
    | with_reducible assumption
    | with_reducible first
        | apply State.setErr_keeps | apply State.raise_keeps | apply State.take_keeps | apply State.testFailed_keeps | apply State.tested_keeps
        | apply Keeps.foldl
    | split
    | dsimp only
    | (intro)
    | (constructor <;> dsimp only <;> first | with_reducible rfl | with_reducible apply Keeps.pending | with_reducible apply Keeps.power | with_reducible apply Keeps.wf | with_reducible apply Keeps.memSet | with_reducible apply Keeps.memSetList | with_reducible apply Keeps.memClear)

theorem State.twarn_keeps {z₀ : State} (s : State) (h_s : Keeps z₀ s) : Keeps z₀ (State.twarn s) := by
  unfold State.twarn
  repeat' with_reducible first | assumption | apply State.setErr_keeps | apply State.raise_keeps | apply State.alert_keeps | split

theorem State.demands_keeps {z₀ : State} (s : State) (x : DimmerSample) (h_s : Keeps z₀ s) : Keeps z₀ (State.demands s x) := by
  unfold State.demands
  repeat' first
    | with_reducible assumption
    | with_reducible first | apply State.setR_keeps | apply State.setF_keeps | apply State.raise_keeps | apply State.twarn_keeps | apply Keeps.foldl
    | split
    | dsimp only
    | (intro)
    | (refine Keeps.ofPair ?_ (by with_reducible assumption))
    | (refine Keeps.ofOk ?_ (by with_reducible assumption))
    | (refine Keeps.ofOver ?_ (by with_reducible assumption))
    | (refine Keeps.ofWait ?_ (by with_reducible assumption))
    | (refine Keeps.ofFault ?_ (by with_reducible assumption))
    | (refine Keeps.ofGo ?_ (by with_reducible assumption))
    | (refine Keeps.ofCommitOver ?_ (by with_reducible assumption))
    | (refine Keeps.ofWritten ?_ (by with_reducible assumption))
    | (constructor <;> dsimp only <;> first | with_reducible rfl | with_reducible apply Keeps.pending | with_reducible apply Keeps.power | with_reducible apply Keeps.wf | with_reducible apply Keeps.memSet | with_reducible apply Keeps.memSetList | with_reducible apply Keeps.memClear)

theorem State.dvfsAsk_keeps {z₀ : State} (s : State) (h_s : Keeps z₀ s) : Keeps z₀ (State.dvfsAsk s) := by
  unfold State.dvfsAsk
  repeat' first
    | with_reducible assumption
    | with_reducible first | apply Keeps.foldl
    | split
    | dsimp only
    | (intro)
    | (refine Keeps.ofPair ?_ (by with_reducible assumption))
    | (refine Keeps.ofOk ?_ (by with_reducible assumption))
    | (refine Keeps.ofOver ?_ (by with_reducible assumption))
    | (refine Keeps.ofWait ?_ (by with_reducible assumption))
    | (refine Keeps.ofFault ?_ (by with_reducible assumption))
    | (refine Keeps.ofGo ?_ (by with_reducible assumption))
    | (refine Keeps.ofCommitOver ?_ (by with_reducible assumption))
    | (refine Keeps.ofWritten ?_ (by with_reducible assumption))
    | (constructor <;> dsimp only <;> first | with_reducible rfl | with_reducible apply Keeps.pending | with_reducible apply Keeps.power | with_reducible apply Keeps.wf | with_reducible apply Keeps.memSet | with_reducible apply Keeps.memSetList | with_reducible apply Keeps.memClear)

theorem State.dimmerTick_keeps {z₀ : State} (s : State) (x : DimmerSample) (h_s : Keeps z₀ s) : Keeps z₀ (State.dimmerTick s x) := by
  unfold State.dimmerTick
  repeat' with_reducible first | assumption | apply State.sampleSensors_keeps | apply State.demands_keeps | apply State.dvfsAsk_keeps | split

theorem State.dvfsSwitch_keeps {z₀ : State} (s : State) (h_s : Keeps z₀ s) : Keeps z₀ (State.dvfsSwitch s) := by
  unfold State.dvfsSwitch
  repeat' first
    | with_reducible assumption
    | with_reducible first | apply State.setF_keeps | apply State.count_keeps | apply State.modSh_keeps | apply State.raise_keeps | apply Keeps.foldl
    | split
    | dsimp only
    | (intro)
    | (refine Keeps.ofPair ?_ (by with_reducible assumption))
    | (refine Keeps.ofOk ?_ (by with_reducible assumption))
    | (refine Keeps.ofOver ?_ (by with_reducible assumption))
    | (refine Keeps.ofWait ?_ (by with_reducible assumption))
    | (refine Keeps.ofFault ?_ (by with_reducible assumption))
    | (refine Keeps.ofGo ?_ (by with_reducible assumption))
    | (refine Keeps.ofCommitOver ?_ (by with_reducible assumption))
    | (refine Keeps.ofWritten ?_ (by with_reducible assumption))
    | (constructor <;> dsimp only <;> first | with_reducible rfl | with_reducible apply Keeps.pending | with_reducible apply Keeps.power | with_reducible apply Keeps.wf | with_reducible apply Keeps.memSet | with_reducible apply Keeps.memSetList | with_reducible apply Keeps.memClear)

theorem State.hbmTempPoll_keeps {z₀ : State} (s : State) (ts : List Nat) (h_s : Keeps z₀ s) : Keeps z₀ (State.hbmTempPoll s ts) := by
  unfold State.hbmTempPoll
  repeat' first
    | with_reducible assumption
    | with_reducible first | apply State.setF_keeps | apply State.take_keeps | apply Keeps.foldl
    | split
    | dsimp only
    | (intro)
    | (constructor <;> dsimp only <;> first | with_reducible rfl | with_reducible apply Keeps.pending | with_reducible apply Keeps.power | with_reducible apply Keeps.wf | with_reducible apply Keeps.memSet | with_reducible apply Keeps.memSetList | with_reducible apply Keeps.memClear)

theorem State.pmbus_keeps {z₀ : State} (s : State) (i : Nat) (ok : Bool) (h_s : Keeps z₀ s) : Keeps z₀ (State.pmbus s i ok) := by
  unfold State.pmbus
  repeat' first
    | with_reducible assumption
    | with_reducible first | apply State.count_keeps | apply State.setErr_keeps | apply State.raise_keeps | apply Res.ok_keeps | apply Keeps.foldl
    | split
    | dsimp only
    | (intro)
    | (constructor <;> dsimp only <;> first | with_reducible rfl | with_reducible apply Keeps.pending | with_reducible apply Keeps.power | with_reducible apply Keeps.wf | with_reducible apply Keeps.memSet | with_reducible apply Keeps.memSetList | with_reducible apply Keeps.memClear)

theorem State.pmbusAll_keeps {z₀ : State} (s : State) (n : Nat) (ok : List Bool) (h_s : Keeps z₀ s) : Keeps z₀ (State.pmbusAll s n ok) := by
  unfold State.pmbusAll
  repeat' with_reducible first
        | assumption | apply State.raise_keeps | apply Res.ok_keeps | apply State.pmbus_keeps | apply Keeps.foldl | split | dsimp only
        | (intro)

theorem State.vrmPoll_keeps {z₀ : State} (s : State) (ok : List Bool) (h_s : Keeps z₀ s) : Keeps z₀ (State.vrmPoll s ok) := by
  unfold State.vrmPoll
  repeat' with_reducible first | assumption | apply Res.ok_keeps | apply State.pmbusAll_keeps | split

theorem State.pmbusAlert_keeps {z₀ : State} (s : State) (ok : List Bool) (h_s : Keeps z₀ s) : Keeps z₀ (State.pmbusAlert s ok) := by
  unfold State.pmbusAlert
  repeat' with_reducible first | assumption | apply State.raise_keeps | apply Res.ok_keeps | apply State.pmbusAll_keeps | split

theorem State.droop_keeps {z₀ : State} (s : State) (on : Bool) (h_s : Keeps z₀ s) : Keeps z₀ (State.droop s on) := by
  unfold State.droop
  repeat' first
    | with_reducible assumption
    | with_reducible first | apply Keeps.foldl
    | split
    | dsimp only
    | (intro)
    | (constructor <;> dsimp only <;> first | with_reducible rfl | with_reducible apply Keeps.pending | with_reducible apply Keeps.power | with_reducible apply Keeps.wf | with_reducible apply Keeps.memSet | with_reducible apply Keeps.memSetList | with_reducible apply Keeps.memClear)

theorem State.droopPersist_keeps {z₀ : State} (s : State) (h_s : Keeps z₀ s) : Keeps z₀ (State.droopPersist s) := by
  unfold State.droopPersist
  repeat' first
    | with_reducible assumption
    | with_reducible first | apply State.raise_keeps | apply Keeps.foldl
    | split
    | dsimp only
    | (intro)
    | (constructor <;> dsimp only <;> first | with_reducible rfl | with_reducible apply Keeps.pending | with_reducible apply Keeps.power | with_reducible apply Keeps.wf | with_reducible apply Keeps.memSet | with_reducible apply Keeps.memSetList | with_reducible apply Keeps.memClear)

theorem State.fencedPacket_keeps {z₀ : State} (s : State) (p : Nat) (h_s : Keeps z₀ s) : Keeps z₀ (State.fencedPacket s p) := by
  unfold State.fencedPacket
  repeat' with_reducible first | assumption | apply State.satAdd_keeps | apply State.count_keeps | split

/-! ## Power -/

theorem State.logReset_keeps {z₀ : State} (s : State) (cause : Nat) (h_s : Keeps z₀ s) : Keeps z₀ (State.logReset s cause) := by
  unfold State.logReset
  repeat' with_reducible first | assumption | apply State.setR_keeps | apply State.setR64_keeps | apply Keeps.foldl | (intro)

theorem State.resetPulse_keeps {z₀ : State} (s : State) (p : ResetPin) (h_s : Keeps z₀ s) : Keeps z₀ (State.resetPulse s p) := by
  unfold State.resetPulse
  repeat' with_reducible first | assumption | apply State.count_keeps | split

theorem State.setStage_keeps {z₀ : State} (s : State) (n : Nat) (h_s : Keeps z₀ s) : Keeps z₀ (State.setStage s n) := by
  unfold State.setStage
  repeat' with_reducible first | assumption | apply State.setF_keeps

theorem State.linkTrained_keeps {z₀ : State} (s : State) (rate width : Nat) (h_s : Keeps z₀ s) : Keeps z₀ (State.linkTrained s rate width) := by
  unfold State.linkTrained
  repeat' first
    | with_reducible assumption
    | with_reducible first | apply State.setF_keeps | apply State.raise_keeps | apply Keeps.foldl
    | split
    | dsimp only
    | (intro)
    | (constructor <;> dsimp only <;> first | with_reducible rfl | with_reducible apply Keeps.pending | with_reducible apply Keeps.power | with_reducible apply Keeps.wf | with_reducible apply Keeps.memSet | with_reducible apply Keeps.memSetList | with_reducible apply Keeps.memClear)

theorem State.bootDeep_keeps {z₀ : State} (s : State) (d : DeepFit) (h_s : Keeps z₀ s) : Keeps z₀ (State.bootDeep s d) := by
  unfold State.bootDeep
  repeat' with_reducible first
        | assumption | apply State.setR_keeps | apply State.orR_keeps | apply Res.ok_keeps | apply Keeps.foldl | split | dsimp only | (intro)

theorem State.bootPrisms_keeps {z₀ : State} (s : State) (ts : List (PPrism × TestResult)) (h_s : Keeps z₀ s) : Keeps z₀ (State.bootPrisms s ts) := by
  unfold State.bootPrisms
  repeat' with_reducible first
        | assumption | apply State.setR_keeps | apply State.setF_keeps | apply State.tested_keeps | apply State.takeLogical_keeps
        | apply Keeps.foldl | split | (intro)

theorem State.bootConfig_keeps {z₀ : State} (s : State) (h_s : Keeps z₀ s) : Keeps z₀ (State.bootConfig s) := by
  unfold State.bootConfig
  repeat' first
    | with_reducible assumption
    | with_reducible first | apply State.setR_keeps | apply State.setF_keeps | apply State.raise_keeps | apply State.alert_keeps | apply Keeps.foldl
    | split
    | dsimp only
    | (intro)
    | (refine Keeps.ofPair ?_ (by with_reducible assumption))
    | (refine Keeps.ofOk ?_ (by with_reducible assumption))
    | (refine Keeps.ofOver ?_ (by with_reducible assumption))
    | (refine Keeps.ofWait ?_ (by with_reducible assumption))
    | (refine Keeps.ofFault ?_ (by with_reducible assumption))
    | (refine Keeps.ofGo ?_ (by with_reducible assumption))
    | (refine Keeps.ofCommitOver ?_ (by with_reducible assumption))
    | (refine Keeps.ofWritten ?_ (by with_reducible assumption))
    | (constructor <;> dsimp only <;> first | with_reducible rfl | with_reducible apply Keeps.pending | with_reducible apply Keeps.power | with_reducible apply Keeps.wf | with_reducible apply Keeps.memSet | with_reducible apply Keeps.memSetList | with_reducible apply Keeps.memClear)

theorem State.bootStep_keeps {z₀ : State} (s : State) (h_s : Keeps z₀ s) : Keeps z₀ (State.bootStep s) := by
  unfold State.bootStep
  repeat' with_reducible first | assumption | apply State.setF_keeps | apply State.count_keeps | split

theorem State.linkEvent_keeps {z₀ : State} (s : State) (e : LinkEvent) (h_s : Keeps z₀ s) : Keeps z₀ (State.linkEvent s e) := by
  unfold State.linkEvent
  repeat' first
    | with_reducible assumption
    | with_reducible first | apply State.raise_keeps | apply State.linkTrained_keeps | apply Keeps.foldl
    | split
    | dsimp only
    | (intro)
    | (refine Keeps.ofPair ?_ (by with_reducible assumption))
    | (refine Keeps.ofOk ?_ (by with_reducible assumption))
    | (refine Keeps.ofOver ?_ (by with_reducible assumption))
    | (refine Keeps.ofWait ?_ (by with_reducible assumption))
    | (refine Keeps.ofFault ?_ (by with_reducible assumption))
    | (refine Keeps.ofGo ?_ (by with_reducible assumption))
    | (refine Keeps.ofCommitOver ?_ (by with_reducible assumption))
    | (refine Keeps.ofWritten ?_ (by with_reducible assumption))
    | (constructor <;> dsimp only <;> first | with_reducible rfl | with_reducible apply Keeps.pending | with_reducible apply Keeps.power | with_reducible apply Keeps.wf | with_reducible apply Keeps.memSet | with_reducible apply Keeps.memSetList | with_reducible apply Keeps.memClear)

theorem State.i3cCcc_keeps {z₀ : State} (s : State) (c : I3cCcc) (h_s : Keeps z₀ s) : Keeps z₀ (State.i3cCcc s c) := by
  unfold State.i3cCcc
  repeat' first
    | with_reducible assumption
    | with_reducible first | apply Keeps.foldl
    | split
    | dsimp only
    | (intro)
    | (refine Keeps.ofPair ?_ (by with_reducible assumption))
    | (refine Keeps.ofOk ?_ (by with_reducible assumption))
    | (refine Keeps.ofOver ?_ (by with_reducible assumption))
    | (refine Keeps.ofWait ?_ (by with_reducible assumption))
    | (refine Keeps.ofFault ?_ (by with_reducible assumption))
    | (refine Keeps.ofGo ?_ (by with_reducible assumption))
    | (refine Keeps.ofCommitOver ?_ (by with_reducible assumption))
    | (refine Keeps.ofWritten ?_ (by with_reducible assumption))
    | (constructor <;> dsimp only <;> first | with_reducible rfl | with_reducible apply Keeps.pending | with_reducible apply Keeps.power | with_reducible apply Keeps.wf | with_reducible apply Keeps.memSet | with_reducible apply Keeps.memSetList | with_reducible apply Keeps.memClear)

theorem State.tapLoad_keeps {z₀ : State} (s : State) (i : TapInstr) (h_s : Keeps z₀ s) : Keeps z₀ (State.tapLoad s i) := by
  unfold State.tapLoad
  repeat' first
    | with_reducible assumption
    | with_reducible first | apply Keeps.foldl
    | split
    | dsimp only
    | (intro)
    | (refine Keeps.ofPair ?_ (by with_reducible assumption))
    | (refine Keeps.ofOk ?_ (by with_reducible assumption))
    | (refine Keeps.ofOver ?_ (by with_reducible assumption))
    | (refine Keeps.ofWait ?_ (by with_reducible assumption))
    | (refine Keeps.ofFault ?_ (by with_reducible assumption))
    | (refine Keeps.ofGo ?_ (by with_reducible assumption))
    | (refine Keeps.ofCommitOver ?_ (by with_reducible assumption))
    | (refine Keeps.ofWritten ?_ (by with_reducible assumption))
    | (constructor <;> dsimp only <;> first | with_reducible rfl | with_reducible apply Keeps.pending | with_reducible apply Keeps.power | with_reducible apply Keeps.wf | with_reducible apply Keeps.memSet | with_reducible apply Keeps.memSetList | with_reducible apply Keeps.memClear)

theorem State.tapIdcode_keeps {z₀ : State} (s : State) (h_s : Keeps z₀ s) : Keeps z₀ (State.tapIdcode s) := by
  unfold State.tapIdcode
  repeat' first
    | with_reducible assumption
    | with_reducible first | apply State.tapLoad_keeps | apply Keeps.foldl
    | split
    | dsimp only
    | (intro)
    | (constructor <;> dsimp only <;> first | with_reducible rfl | with_reducible apply Keeps.pending | with_reducible apply Keeps.power | with_reducible apply Keeps.wf | with_reducible apply Keeps.memSet | with_reducible apply Keeps.memSetList | with_reducible apply Keeps.memClear)

theorem State.tapSample_keeps {z₀ : State} (s : State) (pins cells : BitVec 24) (h_s : Keeps z₀ s) : Keeps z₀ (State.tapSample s pins cells) := by
  unfold State.tapSample
  repeat' first
    | with_reducible assumption
    | with_reducible first | apply State.tapLoad_keeps | apply Keeps.foldl
    | split
    | dsimp only
    | (intro)
    | (constructor <;> dsimp only <;> first | with_reducible rfl | with_reducible apply Keeps.pending | with_reducible apply Keeps.power | with_reducible apply Keeps.wf | with_reducible apply Keeps.memSet | with_reducible apply Keeps.memSetList | with_reducible apply Keeps.memClear)

/-! ## Registers -/

theorem State.readClears_keeps {z₀ : State} (s : State) (pg : PageId) (off : Nat) (h_s : Keeps z₀ s) : Keeps z₀ (State.readClears s pg off) := by
  unfold State.readClears
  repeat' with_reducible first | assumption | apply State.clrR_keeps | apply Keeps.foldl | split | dsimp only | (intro)

theorem State.readTicks_keeps {z₀ : State} (s : State) (pg : PageId) (off : Nat) (h_s : Keeps z₀ s) : Keeps z₀ (State.readTicks s pg off) := by
  unfold State.readTicks
  repeat' with_reducible first | assumption | apply State.tick_keeps | split

theorem State.setLatch_keeps {z₀ : State} (s : State) (path : Path) (v : Option W32) (h_s : Keeps z₀ s) : Keeps z₀ (State.setLatch s path v) := by
  unfold State.setLatch
  repeat' first
    | with_reducible assumption
    | with_reducible first | apply Keeps.foldl
    | split
    | dsimp only
    | (intro)
    | (constructor <;> dsimp only <;> first | with_reducible rfl | with_reducible apply Keeps.pending | with_reducible apply Keeps.power | with_reducible apply Keeps.wf | with_reducible apply Keeps.memSet | with_reducible apply Keeps.memSetList | with_reducible apply Keeps.memClear)

theorem State.read4_keeps {z : State} (s : State) (path : Path) (pg : PageId) (off : Nat) (h : Keeps z s) : Keeps z (s.read4 path pg off).2 := by
  unfold State.read4
  repeat' first
    | with_reducible assumption
    | with_reducible first | apply State.setLatch_keeps | apply State.readTicks_keeps | apply State.readClears_keeps
    | split
    | dsimp only

theorem State.readPage_keeps {z₀ : State} (s : State) (path : Path) (pg : PageId) (off : Nat) (wide : Bool) (h_s : Keeps z₀ s) :
    Keeps z₀ (State.readPage s path pg off wide) := by
  unfold State.readPage
  repeat' first
    | with_reducible assumption
    | with_reducible first
        | apply State.count_keeps | apply State.readClears_keeps | apply State.readTicks_keeps | apply State.read4_keeps | apply Keeps.foldl
    | split
    | dsimp only
    | (intro)
    | (constructor <;> dsimp only <;> first | with_reducible rfl | with_reducible apply Keeps.pending | with_reducible apply Keeps.power | with_reducible apply Keeps.wf | with_reducible apply Keeps.memSet | with_reducible apply Keeps.memSetList | with_reducible apply Keeps.memClear)

theorem State.badAccess_keeps {z₀ : State} (s : State) (h_s : Keeps z₀ s) : Keeps z₀ (State.badAccess s) := by
  unfold State.badAccess
  repeat' with_reducible first | assumption | apply State.satAdd_keeps | apply State.count_keeps

theorem State.regRead_keeps {z₀ : State} (s : State) (path : Path) (a : RegAddr) (h_s : Keeps z₀ s) : Keeps z₀ (State.regRead s path a) := by
  unfold State.regRead
  repeat' first
    | with_reducible assumption
    | with_reducible first | apply State.readPage_keeps | apply State.badAccess_keeps | apply Keeps.foldl
    | split
    | dsimp only
    | (intro)
    | (refine Keeps.ofPair ?_ (by with_reducible assumption))
    | (refine Keeps.ofOk ?_ (by with_reducible assumption))
    | (refine Keeps.ofOver ?_ (by with_reducible assumption))
    | (refine Keeps.ofWait ?_ (by with_reducible assumption))
    | (refine Keeps.ofFault ?_ (by with_reducible assumption))
    | (refine Keeps.ofGo ?_ (by with_reducible assumption))
    | (refine Keeps.ofCommitOver ?_ (by with_reducible assumption))
    | (refine Keeps.ofWritten ?_ (by with_reducible assumption))
    | (constructor <;> dsimp only <;> first | with_reducible rfl | with_reducible apply Keeps.pending | with_reducible apply Keeps.power | with_reducible apply Keeps.wf | with_reducible apply Keeps.memSet | with_reducible apply Keeps.memSetList | with_reducible apply Keeps.memClear)

/-! ## RegWrite -/

theorem State.plainWrite_keeps {z₀ : State} (s : State) (pg : PageId) (off v : Nat) (h_s : Keeps z₀ s) : Keeps z₀ (State.plainWrite s pg off v) := by
  unfold State.plainWrite
  repeat' with_reducible first | assumption | apply State.setR_keeps | apply State.rsvdWr_keeps | apply Keeps.foldl | split | dsimp only | (intro)

theorem State.actWrite_keeps {z₀ : State} (s : State) (pg : PageId) (off v : Nat) (f : State → State) (h_s : Keeps z₀ s) (h_f : ∀ y, Keeps z₀ y → Keeps z₀ (f y)) :
    Keeps z₀ (State.actWrite s pg off v f) := by
  unfold State.actWrite
  repeat' with_reducible first | assumption | apply h_f | apply State.rsvdWr_keeps | split

theorem State.onBit_keeps {z₀ : State} (s : State) (v i : Nat) (f : State → State) (h_s : Keeps z₀ s) (h_f : ∀ y, Keeps z₀ y → Keeps z₀ (f y)) :
    Keeps z₀ (State.onBit s v i f) := by
  unfold State.onBit
  repeat' with_reducible first | assumption | apply h_f | split

theorem State.selectWrite_keeps {z₀ : State} (s : State) (k : PageKind) (inst i v : Nat) (h_s : Keeps z₀ s) :
    Keeps z₀ (State.selectWrite s k inst i v) := by
  unfold State.selectWrite
  repeat' with_reducible first
        | assumption | apply State.setR_keeps | apply State.rsvdWr_keeps | apply State.clearCounter_keeps | split | dsimp only | (intro)

theorem State.ctrlWrite_keeps {z₀ : State} (s : State) (k : PageKind) (inst v : Nat) (h_s : Keeps z₀ s) : Keeps z₀ (State.ctrlWrite s k inst v) := by
  unfold State.ctrlWrite
  repeat' with_reducible first
        | assumption | apply State.clrR_keeps | apply State.rsvdWr_keeps | apply State.clearCounters_keeps | apply State.onBit_keeps | split
        | (intro)

theorem State.leadWrite_keeps {z₀ : State} (s : State) (sh : ShadeIx) (v : Nat) (h_s : Keeps z₀ s) : Keeps z₀ (State.leadWrite s sh v) := by
  unfold State.leadWrite
  repeat' with_reducible first | assumption | apply State.setF_keeps | apply State.rsvdWr_keeps | split | dsimp only | (intro)

theorem State.shCtrlWrite_keeps {z₀ : State} (s : State) (sh : ShadeIx) (v : Nat) (h_s : Keeps z₀ s) : Keeps z₀ (State.shCtrlWrite s sh v) := by
  unfold State.shCtrlWrite
  repeat' with_reducible first
        | assumption | apply State.shadeKill_keeps | apply State.shadeEnable_keeps | apply State.shadeResetWrite_keeps
        | apply State.onBit_keeps | apply State.leadWrite_keeps | split | (intro)

theorem State.qosWrite_keeps {z₀ : State} (s : State) (sh : ShadeIx) (v : Nat) (h_s : Keeps z₀ s) : Keeps z₀ (State.qosWrite s sh v) := by
  unfold State.qosWrite
  repeat' with_reducible first | assumption | apply State.setR_keeps | apply State.rsvdWr_keeps | split | dsimp only | (intro)

theorem State.windowWrite_keeps {z₀ : State} (s : State) (p off v : Nat) (h_s : Keeps z₀ s) : Keeps z₀ (State.windowWrite s p off v) := by
  unfold State.windowWrite
  repeat' with_reducible first | assumption | apply State.rsvdWr_keeps | apply State.plainWrite_keeps | split | dsimp only | (intro)

theorem State.bulkOwnerWrite_keeps {z₀ : State} (s : State) (off v : Nat) (h_s : Keeps z₀ s) : Keeps z₀ (State.bulkOwnerWrite s off v) := by
  unfold State.bulkOwnerWrite
  repeat' with_reducible first | assumption | apply State.setF_keeps | apply State.rsvdWr_keeps | apply Keeps.foldl | split | dsimp only | (intro)

theorem State.patBind_keeps {z₀ : State} (s : State) (sh : ShadeIx) (n v : Nat) (h_s : Keeps z₀ s) : Keeps z₀ (State.patBind s sh n v) := by
  unfold State.patBind
  repeat' with_reducible first
        | assumption | apply State.setR_keeps | apply State.modSh_keeps | apply State.rsvdWr_keeps | apply State.modMask_keeps | split
        | dsimp only | (intro)

theorem State.patternWrite_keeps {z₀ : State} (s : State) (sh : ShadeIx) (off v : Nat) (h_s : Keeps z₀ s) :
    Keeps z₀ (State.patternWrite s sh off v) := by
  unfold State.patternWrite
  repeat' with_reducible first
        | assumption | apply State.modSh_keeps | apply State.plainWrite_keeps | apply State.patBind_keeps | split | dsimp only | (intro)

theorem State.replayCtrlWrite_keeps {z₀ : State} (s : State) (sh : ShadeIx) (v : Nat) (h_s : Keeps z₀ s) :
    Keeps z₀ (State.replayCtrlWrite s sh v) := by
  unfold State.replayCtrlWrite
  repeat' with_reducible first
        | assumption | apply State.setF_keeps | apply State.rsvdWr_keeps | apply State.preempt_keeps | apply State.force_keeps
        | apply State.rollback_keeps | apply State.onBit_keeps | split | (intro)

theorem State.rangeWrite_keeps {z₀ : State} (s : State) (sh : ShadeIx) (off v : Nat) (h_s : Keeps z₀ s) : Keeps z₀ (State.rangeWrite s sh off v) := by
  unfold State.rangeWrite
  repeat' with_reducible first | assumption | apply State.rsvdWr_keeps | apply State.plainWrite_keeps | split

theorem State.replayWrite_keeps {z₀ : State} (s : State) (sh : ShadeIx) (off v : Nat) (h_s : Keeps z₀ s) :
    Keeps z₀ (State.replayWrite s sh off v) := by
  unfold State.replayWrite
  repeat' with_reducible first
        | assumption | apply State.plainWrite_keeps | apply State.actWrite_keeps | apply State.replayCtrlWrite_keeps
        | apply State.rangeWrite_keeps | split | (intro)

theorem State.lantWrite_keeps {z₀ : State} (s : State) (p off v : Nat) (h_s : Keeps z₀ s) : Keeps z₀ (State.lantWrite s p off v) := by
  unfold State.lantWrite
  repeat' with_reducible first
        | assumption | apply State.modLan_keeps | apply State.rsvdWr_keeps | apply State.lantStop_keeps | apply State.bplByHost_keeps
        | apply State.lantStart_keeps | apply State.plainWrite_keeps | apply State.actWrite_keeps | apply State.onBit_keeps | split | (intro)

theorem State.syncFollow_keeps {z₀ : State} (before s : State) (h_before : Keeps z₀ before) (h_s : Keeps z₀ s) :
    Keeps z₀ (State.syncFollow before s) := by
  unfold State.syncFollow
  repeat' with_reducible first | assumption | apply State.modJorx_keeps | split

theorem State.groupWrite_keeps {z₀ : State} (s : State) (sh : ShadeIx) (n v : Nat) (h_s : Keeps z₀ s) : Keeps z₀ (State.groupWrite s sh n v) := by
  unfold State.groupWrite
  repeat' with_reducible first
        | assumption | apply State.setR_keeps | apply State.clrR_keeps | apply State.rsvdWr_keeps | apply State.modColl_keeps
        | apply State.plainWrite_keeps | apply State.syncFollow_keeps | split

theorem State.jshadeWrite_keeps {z₀ : State} (s : State) (sh : ShadeIx) (off v : Nat) (h_s : Keeps z₀ s) :
    Keeps z₀ (State.jshadeWrite s sh off v) := by
  unfold State.jshadeWrite
  repeat' with_reducible first | assumption | apply State.plainWrite_keeps | apply State.groupWrite_keeps | split

theorem State.paneWrite_keeps {z₀ : State} (s : State) (v : Nat) (h_s : Keeps z₀ s) : Keeps z₀ (State.paneWrite s v) := by
  unfold State.paneWrite
  repeat' with_reducible first
        | assumption | apply State.rsvdWr_keeps | apply State.modJorx_keeps | apply State.idUpdate_keeps | apply State.plainWrite_keeps | split

theorem State.jorxCtrlWrite_keeps {z₀ : State} (s : State) (v : Nat) (h_s : Keeps z₀ s) : Keeps z₀ (State.jorxCtrlWrite s v) := by
  unfold State.jorxCtrlWrite
  repeat' with_reducible first
        | assumption | apply State.setF_keeps | apply State.mgmtStart_keeps | apply State.aresetStart_keeps | apply State.joinStart_keeps
        | apply State.onBit_keeps | (intro)

theorem State.mgmtWrite_keeps {z₀ : State} (s : State) (v : Nat) (h_s : Keeps z₀ s) : Keeps z₀ (State.mgmtWrite s v) := by
  unfold State.mgmtWrite
  repeat' with_reducible first
        | assumption | apply State.clrR_keeps | apply State.modJorx_keeps | apply State.plainWrite_keeps | split | dsimp only | (intro)

theorem State.jorxWrite_keeps {z₀ : State} (s : State) (off v : Nat) (h_s : Keeps z₀ s) : Keeps z₀ (State.jorxWrite s off v) := by
  unfold State.jorxWrite
  repeat' with_reducible first
        | assumption | apply State.plainWrite_keeps | apply State.actWrite_keeps | apply State.syncFollow_keeps | apply State.paneWrite_keeps
        | apply State.jorxCtrlWrite_keeps | apply State.mgmtWrite_keeps | split | (intro)

theorem State.routeWrite_keeps {z₀ : State} (s : State) (inst off v : Nat) (h_s : Keeps z₀ s) : Keeps z₀ (State.routeWrite s inst off v) := by
  unfold State.routeWrite
  repeat' with_reducible first | assumption | apply State.rsvdWr_keeps | apply State.plainWrite_keeps | split

theorem State.portCtrlWrite_keeps {z₀ : State} (s : State) (i : PortIx) (v : Nat) (h_s : Keeps z₀ s) : Keeps z₀ (State.portCtrlWrite s i v) := by
  unfold State.portCtrlWrite
  repeat' with_reducible first
        | assumption | apply State.setF_keeps | apply State.modPort_keeps | apply State.portTrain_keeps | apply State.plainWrite_keeps | split
        | dsimp only | (intro)

theorem State.cntCtrlWrite_keeps {z₀ : State} (s : State) (v : Nat) (h_s : Keeps z₀ s) : Keeps z₀ (State.cntCtrlWrite s v) := by
  unfold State.cntCtrlWrite
  repeat' with_reducible first | assumption | apply State.cntAct_keeps | apply State.onBit_keeps | (intro)

theorem State.agqCfgWrite_keeps {z₀ : State} (s : State) (q v : Nat) (h_s : Keeps z₀ s) : Keeps z₀ (State.agqCfgWrite s q v) := by
  unfold State.agqCfgWrite
  repeat' with_reducible first | assumption | apply State.setR_keeps | apply State.rsvdWr_keeps | split | dsimp only | (intro)

theorem State.targetWrite_keeps {z₀ : State} (s : State) (t off v : Nat) (h_s : Keeps z₀ s) : Keeps z₀ (State.targetWrite s t off v) := by
  unfold State.targetWrite
  repeat' with_reducible first
        | assumption | apply State.bcnActivate_keeps | apply State.bcnComplete_keeps | apply State.bcnSrcSet_keeps
        | apply State.bcnThresh_keeps | apply State.bcnIdle_keeps | apply State.plainWrite_keeps | apply State.actWrite_keeps | split | (intro)

theorem State.unfenceWrite_keeps {z₀ : State} (s : State) (v : Nat) (h_s : Keeps z₀ s) : Keeps z₀ (State.unfenceWrite s v) := by
  unfold State.unfenceWrite
  repeat' with_reducible first
        | assumption | apply State.setF_keeps | apply State.rsvdWr_keeps | apply State.unfenceAsk_keeps | apply State.actWrite_keeps | split
        | (intro)

theorem State.mbxCmdWrite_keeps {z₀ : State} (s : State) (v : Nat) (h_s : Keeps z₀ s) : Keeps z₀ (State.mbxCmdWrite s v) := by
  unfold State.mbxCmdWrite
  repeat' first
    | with_reducible assumption
    | with_reducible first
        | apply State.setR_keeps | apply State.orR_keeps | apply State.rsvdWr_keeps | apply State.actWrite_keeps | apply Keeps.foldl
    | split
    | dsimp only
    | (intro)
    | (constructor <;> dsimp only <;> first | with_reducible rfl | with_reducible apply Keeps.pending | with_reducible apply Keeps.power | with_reducible apply Keeps.wf | with_reducible apply Keeps.memSet | with_reducible apply Keeps.memSetList | with_reducible apply Keeps.memClear)

theorem State.reqWrite_keeps {z₀ : State} (s : State) (path : Path) (v : Nat) (h_s : Keeps z₀ s) : Keeps z₀ (State.reqWrite s path v) := by
  unfold State.reqWrite
  repeat' with_reducible first | assumption | apply State.rsvdWr_keeps | apply State.maintReqWrite_keeps | split

theorem State.writeReg_keeps {z₀ : State} (s : State) (path : Path) (pg : PageId) (off v : Nat) (h_s : Keeps z₀ s) :
    Keeps z₀ (State.writeReg s path pg off v) := by
  unfold State.writeReg
  repeat' first
    | with_reducible assumption
    | with_reducible first
        | apply State.rsvdWr_keeps | apply State.agPop_keeps | apply State.ownerWord_keeps | apply State.retainClear_keeps
        | apply State.bcnSrcSet_keeps | apply State.ownerWrite_keeps | apply State.plainWrite_keeps | apply State.actWrite_keeps
        | apply State.selectWrite_keeps | apply State.ctrlWrite_keeps | apply State.shCtrlWrite_keeps | apply State.qosWrite_keeps
        | apply State.windowWrite_keeps | apply State.bulkOwnerWrite_keeps | apply State.patternWrite_keeps | apply State.replayWrite_keeps
        | apply State.lantWrite_keeps | apply State.jshadeWrite_keeps | apply State.jorxWrite_keeps | apply State.routeWrite_keeps
        | apply State.portCtrlWrite_keeps | apply State.cntCtrlWrite_keeps | apply State.agqCfgWrite_keeps | apply State.targetWrite_keeps
        | apply State.unfenceWrite_keeps | apply State.mbxCmdWrite_keeps | apply State.reqWrite_keeps | apply Keeps.foldl
    | split
    | dsimp only
    | (intro)
    | (refine Keeps.ofPair ?_ (by with_reducible assumption))
    | (refine Keeps.ofOk ?_ (by with_reducible assumption))
    | (refine Keeps.ofOver ?_ (by with_reducible assumption))
    | (refine Keeps.ofWait ?_ (by with_reducible assumption))
    | (refine Keeps.ofFault ?_ (by with_reducible assumption))
    | (refine Keeps.ofGo ?_ (by with_reducible assumption))
    | (refine Keeps.ofCommitOver ?_ (by with_reducible assumption))
    | (refine Keeps.ofWritten ?_ (by with_reducible assumption))
    | (constructor <;> dsimp only <;> first | with_reducible rfl | with_reducible apply Keeps.pending | with_reducible apply Keeps.power | with_reducible apply Keeps.wf | with_reducible apply Keeps.memSet | with_reducible apply Keeps.memSetList | with_reducible apply Keeps.memClear)

theorem State.write1_keeps {z₀ : State} (s : State) (path : Path) (pg : PageId) (off v : Nat) (h_s : Keeps z₀ s) :
    Keeps z₀ (State.write1 s path pg off v) := by
  unfold State.write1
  repeat' with_reducible first | assumption | apply State.rsvdWr_keeps | apply State.writeReg_keeps | split

theorem State.writePage_keeps {z₀ : State} (s : State) (path : Path) (pg : PageId) (off v : Nat) (wide : Bool) (h_s : Keeps z₀ s) :
    Keeps z₀ (State.writePage s path pg off v wide) := by
  unfold State.writePage
  repeat' with_reducible first | assumption | apply State.count_keeps | apply State.write1_keeps | split

theorem State.i3cXfer_keeps {z₀ : State} (s : State) (page off : Nat) (data : Option W32) (h_s : Keeps z₀ s) :
    Keeps z₀ (State.i3cXfer s page off data) := by
  unfold State.i3cXfer
  repeat' first
    | with_reducible assumption
    | with_reducible first
        | apply State.count_keeps | apply State.rsvdWr_keeps | apply State.readPage_keeps | apply State.writePage_keeps | apply Keeps.foldl
    | split
    | dsimp only
    | (intro)
    | (refine Keeps.ofPair ?_ (by with_reducible assumption))
    | (refine Keeps.ofOk ?_ (by with_reducible assumption))
    | (refine Keeps.ofOver ?_ (by with_reducible assumption))
    | (refine Keeps.ofWait ?_ (by with_reducible assumption))
    | (refine Keeps.ofFault ?_ (by with_reducible assumption))
    | (refine Keeps.ofGo ?_ (by with_reducible assumption))
    | (refine Keeps.ofCommitOver ?_ (by with_reducible assumption))
    | (refine Keeps.ofWritten ?_ (by with_reducible assumption))
    | (constructor <;> dsimp only <;> first | with_reducible rfl | with_reducible apply Keeps.pending | with_reducible apply Keeps.power | with_reducible apply Keeps.wf | with_reducible apply Keeps.memSet | with_reducible apply Keeps.memSetList | with_reducible apply Keeps.memClear)

theorem State.regWrite_keeps {z₀ : State} (s : State) (path : Path) (a : RegAddr) (v : W64) (h_s : Keeps z₀ s) :
    Keeps z₀ (State.regWrite s path a v) := by
  unfold State.regWrite
  repeat' with_reducible first
        | assumption | apply State.badAccess_keeps | apply State.writePage_keeps | apply State.i3cXfer_keeps | split | dsimp only | (intro)

theorem State.pageWrite_keeps {z₀ : State} (s : State) (path : Path) (page off : Nat) (v : W32) (h_s : Keeps z₀ s) :
    Keeps z₀ (State.pageWrite s path page off v) := by
  unfold State.pageWrite
  repeat' with_reducible first | assumption | apply State.regWrite_keeps

theorem State.anyRead_keeps {z₀ : State} (s : State) (path : Path) (a : RegAddr) (h_s : Keeps z₀ s) : Keeps z₀ (State.anyRead s path a) := by
  unfold State.anyRead
  repeat' with_reducible first | assumption | apply State.regRead_keeps | apply State.i3cXfer_keeps | split

theorem State.mbxDone_keeps {z₀ : State} (s : State) (h_s : Keeps z₀ s) : Keeps z₀ (State.mbxDone s) := by
  unfold State.mbxDone
  repeat' first
    | with_reducible assumption
    | with_reducible first | apply State.setR_keeps | apply State.count_keeps | apply State.raise_keeps | apply State.take_keeps | apply Keeps.foldl
    | split
    | dsimp only
    | (intro)
    | (refine Keeps.ofPair ?_ (by with_reducible assumption))
    | (refine Keeps.ofOk ?_ (by with_reducible assumption))
    | (refine Keeps.ofOver ?_ (by with_reducible assumption))
    | (refine Keeps.ofWait ?_ (by with_reducible assumption))
    | (refine Keeps.ofFault ?_ (by with_reducible assumption))
    | (refine Keeps.ofGo ?_ (by with_reducible assumption))
    | (refine Keeps.ofCommitOver ?_ (by with_reducible assumption))
    | (refine Keeps.ofWritten ?_ (by with_reducible assumption))
    | (constructor <;> dsimp only <;> first | with_reducible rfl | with_reducible apply Keeps.pending | with_reducible apply Keeps.power | with_reducible apply Keeps.wf | with_reducible apply Keeps.memSet | with_reducible apply Keeps.memSetList | with_reducible apply Keeps.memClear)

/-! ## SystemRows -/

theorem State.mbxGo_keeps {z₀ : State} (s : State) (path : Path) (op : Nat) (h_s : Keeps z₀ s) : Keeps z₀ (State.mbxGo s path op) := by
  unfold State.mbxGo
  repeat' with_reducible first | assumption | apply State.write_keeps | apply State.mbxCmdWrite_keeps | (intro)

/-! ## Tick -/

theorem State.gatedIssue_keeps {z₀ : State} (s : State) (sh : ShadeIx) (on : Bool) (h_s : Keeps z₀ s) : Keeps z₀ (State.gatedIssue s sh on) := by
  unfold State.gatedIssue
  repeat' with_reducible first | assumption | apply State.cycleEv_keeps | apply Keeps.foldl | (intro)

theorem State.shadeCycle_keeps {z₀ : State} (s : State) (gated : Bool) (sh : ShadeIx) (h_s : Keeps z₀ s) :
    Keeps z₀ (State.shadeCycle s gated sh) := by
  unfold State.shadeCycle
  repeat' with_reducible first
        | assumption | apply State.cycleEv_keeps | apply State.modSh_keeps | apply State.gatedIssue_keeps | split | dsimp only | (intro)

theorem State.countFree_keeps {z₀ : State} (s : State) (k : PageKind) (inst ev q : Nat) (h_s : Keeps z₀ s) :
    Keeps z₀ (State.countFree s k inst ev q) := by
  unfold State.countFree
  repeat' with_reducible first | assumption | apply State.countAs_keeps

theorem State.freeCounts_keeps {z₀ : State} (s : State) (h_s : Keeps z₀ s) : Keeps z₀ (State.freeCounts s) := by
  unfold State.freeCounts
  repeat' with_reducible first
        | assumption | apply State.count_keeps | apply State.tick_keeps | apply State.countFree_keeps | apply Keeps.foldl | (intro)

theorem State.coreCycle_keeps {z₀ : State} (s : State) (k : Nat) (h_s : Keeps z₀ s) : Keeps z₀ (State.coreCycle s k) := by
  unfold State.coreCycle
  repeat' with_reducible first
        | assumption | apply State.cycleEv_keeps | apply State.shadeCycle_keeps | apply State.freeCounts_keeps | apply Keeps.foldl | (intro)

theorem State.noBeamTick_keeps {z₀ : State} (s : State) (h_s : Keeps z₀ s) : Keeps z₀ (State.noBeamTick s) := by
  unfold State.noBeamTick
  repeat' first
    | with_reducible assumption
    | with_reducible first | apply State.count_keeps | apply LensJob.units_keeps | apply Keeps.foldl
    | split
    | dsimp only
    | (intro)
    | (constructor <;> dsimp only <;> first | with_reducible rfl | with_reducible apply Keeps.pending | with_reducible apply Keeps.power | with_reducible apply Keeps.wf | with_reducible apply Keeps.memSet | with_reducible apply Keeps.memSetList | with_reducible apply Keeps.memClear)

theorem State.coreTick_keeps {z₀ : State} (s : State) (h_s : Keeps z₀ s) : Keeps z₀ (State.coreTick s) := by
  unfold State.coreTick
  repeat' first
    | with_reducible assumption
    | with_reducible first | apply State.coreCycle_keeps | apply Keeps.foldl
    | split
    | dsimp only
    | (intro)
    | (constructor <;> dsimp only <;> first | with_reducible rfl | with_reducible apply Keeps.pending | with_reducible apply Keeps.power | with_reducible apply Keeps.wf | with_reducible apply Keeps.memSet | with_reducible apply Keeps.memSetList | with_reducible apply Keeps.memClear)

theorem State.elapse_keeps {z₀ : State} (s : State) (h_s : Keeps z₀ s) : Keeps z₀ (State.elapse s) := by
  unfold State.elapse
  repeat' with_reducible first | assumption | apply State.slewTick_keeps | apply State.noBeamTick_keeps | apply State.coreTick_keeps | split

end Sys2Proof.Machine
end

