-- ==== Sys2Proof/Laws/Holds.lean ====
section
/-! SUPPORT. What the operations of power, reset and boot keep (R493, R495, R499): the queue of commands and the invariant. -/

namespace Sys2Proof.Machine

/-- s has the queue of z, and the invariant if z has it. -/
structure Holds (z s : State) : Prop where
  pending : s.pending = z.pending
  inv : z.Inv → s.Inv

theorem Holds.refl (s : State) : Holds s s := ⟨rfl, id⟩

theorem Holds.trans {s t u : State} (h1 : Holds s t) (h2 : Holds t u) : Holds s u := ⟨h2.pending.trans h1.pending, fun h => h2.inv (h1.inv h)⟩

theorem Keeps.holds {z s : State} (h : Keeps z s) : Holds z s := ⟨h.pending, fun hz => ⟨h.wf hz.1, by rw [h.power]; exact hz.2⟩⟩

/-- Only the power state differs, and its modes are those that can be. -/
theorem Holds.power {s : State} (p : PowerSt) (h : s.power.ok = true → p.ok = true) : Holds s { s with power := p } := ⟨rfl, fun hs => ⟨hs.1, h hs.2⟩⟩

/-- The registers and memory that a device reset leaves. -/
theorem State.resetDevice_regs_keeps (s : State) : Keeps s ((List.range 30).foldl (fun (s : State) n => s.setR .scrub 0 (0x200 + 4 * n) 0xFFFFFFFF)
    ((((s.resetRegs fun k _ off => !keptReg k off).setR .boot 0 0x104 ((s.resetRegs fun k _ off => !keptReg k off).getR .boot 0 0x104 &&& 9)).clrR
      .jorx 0 0x10C 65536).zeroRange (tsKey 0 0 0) (storeKey 64 0))) :=
  Keeps.foldl _ _ _ (State.zeroRange_keeps _ _ _ (State.clrR_keeps _ _ _ _ _ (State.setR_keeps _ _ _ _ _ (State.resetRegs_keeps _ _ (Keeps.refl s)))))
    fun _ _ hy => State.setR_keeps _ _ _ _ _ hy

theorem State.resetDevice_spec (s : State) (k : Bool) :
    (s.resetDevice k).pending = s.pending ∧ (s.resetDevice k).power = { s.power with inReset := true, booting := false, railLow := false }
    ∧ (Memory.wf s.mem = true → Memory.wf (s.resetDevice k).mem = true) := by
  have h := s.resetDevice_regs_keeps
  unfold State.resetDevice
  dsimp only
  generalize (List.range 30).foldl (fun (s : State) n => s.setR .scrub 0 (0x200 + 4 * n) 0xFFFFFFFF)
    ((((s.resetRegs fun k _ off => !keptReg k off).setR .boot 0 0x104 ((s.resetRegs fun k _ off => !keptReg k off).getR .boot 0 0x104 &&& 9)).clrR
      .jorx 0 0x10C 65536).zeroRange (tsKey 0 0 0) (storeKey 64 0)) = t at h ⊢
  exact ⟨h.pending, by rw [h.power], h.wf⟩

/-- A device reset: the queue stays, memory stays in canonical form, and the device is in reset whatever the modes before. -/
theorem State.enterReset_spec (s : State) (cause : Nat) (k : Bool) :
    (s.enterReset cause k).pending = s.pending ∧ (s.enterReset cause k).power = { s.power with inReset := true, booting := false, railLow := false }
    ∧ (Memory.wf s.mem = true → Memory.wf (s.enterReset cause k).mem = true) := by
  have h : Keeps s ((s.logReset cause).count .boot 0 1 1) := State.count_keeps _ _ _ _ _ (State.logReset_keeps _ _ (Keeps.refl s))
  obtain ⟨h1, h2, h3⟩ := State.resetDevice_spec ((s.logReset cause).count .boot 0 1 1) k
  unfold State.enterReset
  exact ⟨h1.trans h.pending, h2.trans (by rw [h.power]), fun hs => h3 (h.wf hs)⟩

theorem State.enterReset_holds {z : State} (s : State) (cause : Nat) (k : Bool) (h : Holds z s) : Holds z (s.enterReset cause k) := by
  obtain ⟨h1, h2, h3⟩ := s.enterReset_spec cause k
  refine h.trans ⟨h1, fun hs => ⟨h3 hs.1, ?_⟩⟩
  rw [h2]; simp [PowerSt.ok]

theorem State.bootBegin_holds {z : State} (s : State) (h : Holds z s) : Holds z s.bootBegin := by
  refine h.trans ?_
  unfold State.bootBegin
  split
  · rename_i hc
    refine ⟨rfl, fun hs => ⟨hs.1, ?_⟩⟩
    simp only [State.mayBoot, Bool.and_eq_true, Bool.not_eq_true'] at hc
    simp [PowerSt.ok, hc]
  · exact Holds.refl s

theorem State.resetAssert_holds {z : State} (s : State) (p : ResetPin) (h : Holds z s) : Holds z (s.resetAssert p) := by
  refine h.trans ?_
  unfold State.resetAssert
  split
  · exact Holds.refl s
  · have key : ∀ (u : State) (c : Nat), u.pending = s.pending → u.mem = s.mem → Holds s (u.enterReset c false) := fun u c hq hm => by
      obtain ⟨h1, h2, h3⟩ := u.enterReset_spec c false
      refine ⟨h1.trans hq, fun hs => ⟨h3 (by rw [hm]; exact hs.1), ?_⟩⟩
      rw [h2]; simp [PowerSt.ok]
    cases p <;> exact key _ _ rfl rfl

theorem State.resetRelease_holds {z : State} (s : State) (h : Holds z s) : Holds z s.resetRelease := by
  refine h.trans ?_
  unfold State.resetRelease
  split
  · exact Holds.refl s
  · refine State.bootBegin_holds _ ⟨rfl, fun hs => ⟨hs.1, ?_⟩⟩
    have := hs.2
    revert this
    simp only [PowerSt.ok]
    cases s.power.booting <;> cases s.power.inReset <;> cases s.power.railLow <;> cases s.power.rstLow <;> cases s.power.perstLow <;>
      cases s.power.tripped <;> cases s.power.noRef <;> simp

theorem State.rstHeld_holds {z : State} (s : State) (p : ResetPin) (h : Holds z s) : Holds z (s.rstHeld p) := by
  refine h.trans ?_
  unfold State.rstHeld
  split
  · exact Holds.refl s
  · exact (State.alert_keeps s 0 (Keeps.refl s)).holds.trans (Holds.power _ fun hp => hp)

theorem State.pfFlr_holds {z : State} (s : State) (h : Holds z s) : Holds z s.pfFlr := by
  refine h.trans ?_
  unfold State.pfFlr
  split
  · exact State.bootBegin_holds _ (State.enterReset_holds _ _ _ (Holds.refl s))
  · exact Holds.refl s

theorem State.brownout_holds {z : State} (s : State) (h : Holds z s) : Holds z s.brownout := by
  refine h.trans ?_
  unfold State.brownout
  split
  · exact Holds.refl s
  · obtain ⟨h1, h2, h3⟩ := s.enterReset_spec 5 false
    have h4 := State.alert_keeps (s.enterReset 5 false) 3 (Keeps.refl _)
    refine ⟨h4.pending.trans h1, fun hs => ⟨h4.wf (h3 hs.1), ?_⟩⟩
    dsimp only
    rw [h4.power, h2]; simp [PowerSt.ok]

theorem State.arrayReset_holds {z : State} (s : State) (h : Holds z s) : Holds z s.arrayReset := by
  refine h.trans ?_
  unfold State.arrayReset
  split
  · split
    · exact Holds.refl s
    · exact State.bootBegin_holds _ (State.enterReset_holds _ _ _ (State.epochUp_keeps _ (Keeps.refl s)).holds)
  · exact Holds.refl s

theorem State.clocksStop_holds {z : State} (s : State) (f : PowerSt → PowerSt)
    (hf : ∀ p, p.inReset = true → p.booting = false → (f p).inReset = true ∧ (f p).booting = false) (h : Holds z s) : Holds z (s.clocksStop f) := by
  refine h.trans ?_
  obtain ⟨h1, h2, h3⟩ := State.resetDevice_spec s false
  have h4 := hf (s.resetDevice false).power (by rw [h2]) (by rw [h2])
  unfold State.clocksStop
  generalize s.resetDevice false = t at *
  exact ⟨h1, fun hs => ⟨h3 hs.1, by simp [PowerSt.ok, h4]⟩⟩

theorem State.thermtrip_holds {z : State} (s : State) (h : Holds z s) : Holds z s.thermtrip := by
  unfold State.thermtrip
  split
  · exact h
  · exact State.clocksStop_holds _ _ (fun p h1 h2 => ⟨h1, h2⟩) h

theorem State.refclkStop_holds {z : State} (s : State) (h : Holds z s) : Holds z s.refclkStop :=
  State.clocksStop_holds _ _ (fun _ h1 h2 => ⟨h1, h2⟩) h

theorem State.powerOn_holds {z : State} (s : State) (h : Holds z s) : Holds z s.powerOn :=
  h.trans ⟨rfl, fun hs => ⟨FMap.wf_clearRange _ _ _ _ hs.1, by rfl⟩⟩

theorem State.bootFails_holds {z : State} (s : State) (stage fail : Nat) (h : Holds z s) : Holds z (s.bootFails stage fail) := by
  have h1 := State.setF_keeps (s.setStage stage) .boot 0 0x100 8 5 fail (State.setStage_keeps s stage (Keeps.refl s))
  refine (h.trans h1.holds).trans (Holds.power _ fun hp => ?_)
  revert hp
  simp only [PowerSt.ok, Bool.and_eq_true]
  exact fun hp => ⟨⟨by simp, hp.1.2⟩, hp.2⟩

theorem State.bootTrain_holds {z : State} (s : State) (b : BootIn) (h : Holds z s) : Holds z (s.bootTrain b) := by
  refine h.trans ?_
  unfold State.bootTrain
  split
  · exact State.bootFails_holds _ _ _ (Holds.refl s)
  · refine Keeps.holds ?_
    repeat' with_reducible first
      | assumption
      | apply Keeps.refl | apply State.setStage_keeps | apply State.setR_keeps | apply State.bootPrisms_keeps | apply State.bootDeep_keeps | apply Keeps.foldl
      | dsimp only
      | (intro)

theorem State.boot_holds {z : State} (s : State) (b : BootIn) (h : Holds z s) : Holds z (s.boot b) := by
  refine h.trans ?_
  unfold State.boot
  have h0 : Holds s (if s.power.railLow then s.bootBegin else s) := by
    split
    · exact State.bootBegin_holds _ (Holds.refl s)
    · exact Holds.refl s
  generalize (if s.power.railLow then s.bootBegin else s) = u at h0
  dsimp only
  split
  · exact h0
  · refine h0.trans ?_
    have h1 : Keeps u ((u.setR .boot 0 0x108 0x7FF).setF .dimmer 0 0x108 4 0 8) := State.setF_keeps _ _ _ _ _ _ _ (State.setR_keeps _ _ _ _ _ (Keeps.refl u))
    generalize (u.setR .boot 0 0x108 0x7FF).setF .dimmer 0 0x108 4 0 8 = v at h1
    have h2 : Keeps u (if v.pcie.l0 = true then v else v.linkTrained b.pcieRate b.pcieWidth) := by
      split
      · exact h1
      · exact State.linkTrained_keeps _ _ _ h1
    generalize (if v.pcie.l0 = true then v else v.linkTrained b.pcieRate b.pcieWidth) = w at h2
    split
    · exact State.bootFails_holds _ _ _ h2.holds
    · rename_i i _
      have h3 := State.bootConfig_keeps _ (State.setR_keeps _ .boot 0 0x10C (w.areaHdr false i).seq (State.setF_keeps _ .boot 0 0x100 11 11 i h2))
      split
      · exact State.bootFails_holds _ _ _ h3.holds
      · exact State.bootTrain_holds _ _ (State.bootStep_keeps _ h3).holds

theorem State.pllFail_holds {z : State} (s : State) (i : Nat) (h : Holds z s) : Holds z (s.pllFail i) := by
  unfold State.pllFail
  split
  · exact h
  · exact State.bootFails_holds _ _ _ (h.trans (State.setR_keeps _ _ _ _ _ (Keeps.refl s)).holds)

theorem State.bootReady_holds {z : State} (s : State) (h : Holds z s) : Holds z s.bootReady := by
  refine h.trans ?_
  unfold State.bootReady
  split
  · exact Holds.refl s
  · have h1 : Keeps s (((((List.range 9).foldl (fun s n => s.setR .scrub 0 (0x140 + 4 * n) 0) (s.zeroRange 0 hbmTop)).setR .bulk 0 0x100 0xFFFFFFFF).setR
        .bulk 0 0x104 0xFEFEFFFF).setStage 6 |>.orR .boot 0 0x100 1) := by
      repeat' with_reducible first
        | assumption
        | apply Keeps.refl | apply State.orR_keeps | apply State.setStage_keeps | apply State.setR_keeps | apply State.zeroRange_keeps | apply Keeps.foldl
        | (intro)
    refine h1.holds.trans (Holds.power _ fun hp => ?_)
    revert hp
    simp only [PowerSt.ok, Bool.and_eq_true]
    exact fun hp => ⟨⟨by simp, hp.1.2⟩, hp.2⟩

end Sys2Proof.Machine
end

