-- ==== Sys2Proof/Laws/State.lean ====
section
/-! SUPPORT. What each update of the state leaves alone: one lemma for each field and update, and the reads of what was written. -/

namespace Sys2Proof.Machine

@[simp] theorem State.setR_pending (s : State) (k : PageKind) (i o v : Nat) : (s.setR k i o v).pending = s.pending := rfl
@[simp] theorem State.setR_fresh (s : State) (k : PageKind) (i o v : Nat) : (s.setR k i o v).fresh = s.fresh := rfl
@[simp] theorem State.setR_tb (s : State) (k : PageKind) (i o v : Nat) : (s.setR k i o v).tb = s.tb := rfl
@[simp] theorem State.setR_mem (s : State) (k : PageKind) (i o v : Nat) : (s.setR k i o v).mem = s.mem := rfl
@[simp] theorem State.setR_ecc (s : State) (k : PageKind) (i o v : Nat) : (s.setR k i o v).ecc = s.ecc := rfl
@[simp] theorem State.setR_tiles (s : State) (k : PageKind) (i o v : Nat) : (s.setR k i o v).tiles = s.tiles := rfl
@[simp] theorem State.setR_glints (s : State) (k : PageKind) (i o v : Nat) : (s.setR k i o v).glints = s.glints := rfl
@[simp] theorem State.setR_units (s : State) (k : PageKind) (i o v : Nat) : (s.setR k i o v).units = s.units := rfl
@[simp] theorem State.setR_owner (s : State) (k : PageKind) (i o v : Nat) : (s.setR k i o v).owner = s.owner := rfl
@[simp] theorem State.setR_shades (s : State) (k : PageKind) (i o v : Nat) : (s.setR k i o v).shades = s.shades := rfl
@[simp] theorem State.setR_bcn (s : State) (k : PageKind) (i o v : Nat) : (s.setR k i o v).bcn = s.bcn := rfl
@[simp] theorem State.setR_agq (s : State) (k : PageKind) (i o v : Nat) : (s.setR k i o v).agq = s.agq := rfl
@[simp] theorem State.setR_host (s : State) (k : PageKind) (i o v : Nat) : (s.setR k i o v).host = s.host := rfl
@[simp] theorem State.setR_health (s : State) (k : PageKind) (i o v : Nat) : (s.setR k i o v).health = s.health := rfl
@[simp] theorem State.setR_noise (s : State) (k : PageKind) (i o v : Nat) : (s.setR k i o v).noise = s.noise := rfl
@[simp] theorem State.setR_jorx (s : State) (k : PageKind) (i o v : Nat) : (s.setR k i o v).jorx = s.jorx := rfl
@[simp] theorem State.setR_maint (s : State) (k : PageKind) (i o v : Nat) : (s.setR k i o v).maint = s.maint := rfl
@[simp] theorem State.setR_dim (s : State) (k : PageKind) (i o v : Nat) : (s.setR k i o v).dim = s.dim := rfl
@[simp] theorem State.setR_power (s : State) (k : PageKind) (i o v : Nat) : (s.setR k i o v).power = s.power := rfl
@[simp] theorem State.setR_config (s : State) (k : PageKind) (i o v : Nat) : (s.setR k i o v).config = s.config := rfl
@[simp] theorem State.setR_i3c (s : State) (k : PageKind) (i o v : Nat) : (s.setR k i o v).i3c = s.i3c := rfl
@[simp] theorem State.setR_tap (s : State) (k : PageKind) (i o v : Nat) : (s.setR k i o v).tap = s.tap := rfl
@[simp] theorem State.setR_pcie (s : State) (k : PageKind) (i o v : Nat) : (s.setR k i o v).pcie = s.pcie := rfl
@[simp] theorem State.setR_mbx (s : State) (k : PageKind) (i o v : Nat) : (s.setR k i o v).mbx = s.mbx := rfl
@[simp] theorem State.setR_scrubs (s : State) (k : PageKind) (i o v : Nat) : (s.setR k i o v).scrubs = s.scrubs := rfl
@[simp] theorem State.setR_coreFrac (s : State) (k : PageKind) (i o v : Nat) : (s.setR k i o v).coreFrac = s.coreFrac := rfl
@[simp] theorem State.setR_inCond (s : State) (k : PageKind) (i o v : Nat) : (s.setR k i o v).inCond = s.inCond := rfl

@[simp] theorem State.setF_pending (s : State) (k : PageKind) (i o hi lo v : Nat) : (s.setF k i o hi lo v).pending = s.pending := rfl
@[simp] theorem State.setF_fresh (s : State) (k : PageKind) (i o hi lo v : Nat) : (s.setF k i o hi lo v).fresh = s.fresh := rfl
@[simp] theorem State.setF_tb (s : State) (k : PageKind) (i o hi lo v : Nat) : (s.setF k i o hi lo v).tb = s.tb := rfl
@[simp] theorem State.setF_mem (s : State) (k : PageKind) (i o hi lo v : Nat) : (s.setF k i o hi lo v).mem = s.mem := rfl
@[simp] theorem State.setF_ecc (s : State) (k : PageKind) (i o hi lo v : Nat) : (s.setF k i o hi lo v).ecc = s.ecc := rfl
@[simp] theorem State.setF_tiles (s : State) (k : PageKind) (i o hi lo v : Nat) : (s.setF k i o hi lo v).tiles = s.tiles := rfl
@[simp] theorem State.setF_glints (s : State) (k : PageKind) (i o hi lo v : Nat) : (s.setF k i o hi lo v).glints = s.glints := rfl
@[simp] theorem State.setF_units (s : State) (k : PageKind) (i o hi lo v : Nat) : (s.setF k i o hi lo v).units = s.units := rfl
@[simp] theorem State.setF_owner (s : State) (k : PageKind) (i o hi lo v : Nat) : (s.setF k i o hi lo v).owner = s.owner := rfl
@[simp] theorem State.setF_shades (s : State) (k : PageKind) (i o hi lo v : Nat) : (s.setF k i o hi lo v).shades = s.shades := rfl
@[simp] theorem State.setF_bcn (s : State) (k : PageKind) (i o hi lo v : Nat) : (s.setF k i o hi lo v).bcn = s.bcn := rfl
@[simp] theorem State.setF_agq (s : State) (k : PageKind) (i o hi lo v : Nat) : (s.setF k i o hi lo v).agq = s.agq := rfl
@[simp] theorem State.setF_host (s : State) (k : PageKind) (i o hi lo v : Nat) : (s.setF k i o hi lo v).host = s.host := rfl
@[simp] theorem State.setF_health (s : State) (k : PageKind) (i o hi lo v : Nat) : (s.setF k i o hi lo v).health = s.health := rfl
@[simp] theorem State.setF_noise (s : State) (k : PageKind) (i o hi lo v : Nat) : (s.setF k i o hi lo v).noise = s.noise := rfl
@[simp] theorem State.setF_jorx (s : State) (k : PageKind) (i o hi lo v : Nat) : (s.setF k i o hi lo v).jorx = s.jorx := rfl
@[simp] theorem State.setF_maint (s : State) (k : PageKind) (i o hi lo v : Nat) : (s.setF k i o hi lo v).maint = s.maint := rfl
@[simp] theorem State.setF_dim (s : State) (k : PageKind) (i o hi lo v : Nat) : (s.setF k i o hi lo v).dim = s.dim := rfl
@[simp] theorem State.setF_power (s : State) (k : PageKind) (i o hi lo v : Nat) : (s.setF k i o hi lo v).power = s.power := rfl
@[simp] theorem State.setF_config (s : State) (k : PageKind) (i o hi lo v : Nat) : (s.setF k i o hi lo v).config = s.config := rfl
@[simp] theorem State.setF_i3c (s : State) (k : PageKind) (i o hi lo v : Nat) : (s.setF k i o hi lo v).i3c = s.i3c := rfl
@[simp] theorem State.setF_tap (s : State) (k : PageKind) (i o hi lo v : Nat) : (s.setF k i o hi lo v).tap = s.tap := rfl
@[simp] theorem State.setF_pcie (s : State) (k : PageKind) (i o hi lo v : Nat) : (s.setF k i o hi lo v).pcie = s.pcie := rfl
@[simp] theorem State.setF_mbx (s : State) (k : PageKind) (i o hi lo v : Nat) : (s.setF k i o hi lo v).mbx = s.mbx := rfl
@[simp] theorem State.setF_scrubs (s : State) (k : PageKind) (i o hi lo v : Nat) : (s.setF k i o hi lo v).scrubs = s.scrubs := rfl
@[simp] theorem State.setF_coreFrac (s : State) (k : PageKind) (i o hi lo v : Nat) : (s.setF k i o hi lo v).coreFrac = s.coreFrac := rfl
@[simp] theorem State.setF_inCond (s : State) (k : PageKind) (i o hi lo v : Nat) : (s.setF k i o hi lo v).inCond = s.inCond := rfl

@[simp] theorem State.orR_pending (s : State) (k : PageKind) (i o m : Nat) : (s.orR k i o m).pending = s.pending := rfl
@[simp] theorem State.orR_fresh (s : State) (k : PageKind) (i o m : Nat) : (s.orR k i o m).fresh = s.fresh := rfl
@[simp] theorem State.orR_tb (s : State) (k : PageKind) (i o m : Nat) : (s.orR k i o m).tb = s.tb := rfl
@[simp] theorem State.orR_mem (s : State) (k : PageKind) (i o m : Nat) : (s.orR k i o m).mem = s.mem := rfl
@[simp] theorem State.orR_ecc (s : State) (k : PageKind) (i o m : Nat) : (s.orR k i o m).ecc = s.ecc := rfl
@[simp] theorem State.orR_tiles (s : State) (k : PageKind) (i o m : Nat) : (s.orR k i o m).tiles = s.tiles := rfl
@[simp] theorem State.orR_glints (s : State) (k : PageKind) (i o m : Nat) : (s.orR k i o m).glints = s.glints := rfl
@[simp] theorem State.orR_units (s : State) (k : PageKind) (i o m : Nat) : (s.orR k i o m).units = s.units := rfl
@[simp] theorem State.orR_owner (s : State) (k : PageKind) (i o m : Nat) : (s.orR k i o m).owner = s.owner := rfl
@[simp] theorem State.orR_shades (s : State) (k : PageKind) (i o m : Nat) : (s.orR k i o m).shades = s.shades := rfl
@[simp] theorem State.orR_bcn (s : State) (k : PageKind) (i o m : Nat) : (s.orR k i o m).bcn = s.bcn := rfl
@[simp] theorem State.orR_agq (s : State) (k : PageKind) (i o m : Nat) : (s.orR k i o m).agq = s.agq := rfl
@[simp] theorem State.orR_host (s : State) (k : PageKind) (i o m : Nat) : (s.orR k i o m).host = s.host := rfl
@[simp] theorem State.orR_health (s : State) (k : PageKind) (i o m : Nat) : (s.orR k i o m).health = s.health := rfl
@[simp] theorem State.orR_noise (s : State) (k : PageKind) (i o m : Nat) : (s.orR k i o m).noise = s.noise := rfl
@[simp] theorem State.orR_jorx (s : State) (k : PageKind) (i o m : Nat) : (s.orR k i o m).jorx = s.jorx := rfl
@[simp] theorem State.orR_maint (s : State) (k : PageKind) (i o m : Nat) : (s.orR k i o m).maint = s.maint := rfl
@[simp] theorem State.orR_dim (s : State) (k : PageKind) (i o m : Nat) : (s.orR k i o m).dim = s.dim := rfl
@[simp] theorem State.orR_power (s : State) (k : PageKind) (i o m : Nat) : (s.orR k i o m).power = s.power := rfl
@[simp] theorem State.orR_config (s : State) (k : PageKind) (i o m : Nat) : (s.orR k i o m).config = s.config := rfl
@[simp] theorem State.orR_i3c (s : State) (k : PageKind) (i o m : Nat) : (s.orR k i o m).i3c = s.i3c := rfl
@[simp] theorem State.orR_tap (s : State) (k : PageKind) (i o m : Nat) : (s.orR k i o m).tap = s.tap := rfl
@[simp] theorem State.orR_pcie (s : State) (k : PageKind) (i o m : Nat) : (s.orR k i o m).pcie = s.pcie := rfl
@[simp] theorem State.orR_mbx (s : State) (k : PageKind) (i o m : Nat) : (s.orR k i o m).mbx = s.mbx := rfl
@[simp] theorem State.orR_scrubs (s : State) (k : PageKind) (i o m : Nat) : (s.orR k i o m).scrubs = s.scrubs := rfl
@[simp] theorem State.orR_coreFrac (s : State) (k : PageKind) (i o m : Nat) : (s.orR k i o m).coreFrac = s.coreFrac := rfl
@[simp] theorem State.orR_inCond (s : State) (k : PageKind) (i o m : Nat) : (s.orR k i o m).inCond = s.inCond := rfl

@[simp] theorem State.clrR_pending (s : State) (k : PageKind) (i o m : Nat) : (s.clrR k i o m).pending = s.pending := rfl
@[simp] theorem State.clrR_fresh (s : State) (k : PageKind) (i o m : Nat) : (s.clrR k i o m).fresh = s.fresh := rfl
@[simp] theorem State.clrR_tb (s : State) (k : PageKind) (i o m : Nat) : (s.clrR k i o m).tb = s.tb := rfl
@[simp] theorem State.clrR_mem (s : State) (k : PageKind) (i o m : Nat) : (s.clrR k i o m).mem = s.mem := rfl
@[simp] theorem State.clrR_ecc (s : State) (k : PageKind) (i o m : Nat) : (s.clrR k i o m).ecc = s.ecc := rfl
@[simp] theorem State.clrR_tiles (s : State) (k : PageKind) (i o m : Nat) : (s.clrR k i o m).tiles = s.tiles := rfl
@[simp] theorem State.clrR_glints (s : State) (k : PageKind) (i o m : Nat) : (s.clrR k i o m).glints = s.glints := rfl
@[simp] theorem State.clrR_units (s : State) (k : PageKind) (i o m : Nat) : (s.clrR k i o m).units = s.units := rfl
@[simp] theorem State.clrR_owner (s : State) (k : PageKind) (i o m : Nat) : (s.clrR k i o m).owner = s.owner := rfl
@[simp] theorem State.clrR_shades (s : State) (k : PageKind) (i o m : Nat) : (s.clrR k i o m).shades = s.shades := rfl
@[simp] theorem State.clrR_bcn (s : State) (k : PageKind) (i o m : Nat) : (s.clrR k i o m).bcn = s.bcn := rfl
@[simp] theorem State.clrR_agq (s : State) (k : PageKind) (i o m : Nat) : (s.clrR k i o m).agq = s.agq := rfl
@[simp] theorem State.clrR_host (s : State) (k : PageKind) (i o m : Nat) : (s.clrR k i o m).host = s.host := rfl
@[simp] theorem State.clrR_health (s : State) (k : PageKind) (i o m : Nat) : (s.clrR k i o m).health = s.health := rfl
@[simp] theorem State.clrR_noise (s : State) (k : PageKind) (i o m : Nat) : (s.clrR k i o m).noise = s.noise := rfl
@[simp] theorem State.clrR_jorx (s : State) (k : PageKind) (i o m : Nat) : (s.clrR k i o m).jorx = s.jorx := rfl
@[simp] theorem State.clrR_maint (s : State) (k : PageKind) (i o m : Nat) : (s.clrR k i o m).maint = s.maint := rfl
@[simp] theorem State.clrR_dim (s : State) (k : PageKind) (i o m : Nat) : (s.clrR k i o m).dim = s.dim := rfl
@[simp] theorem State.clrR_power (s : State) (k : PageKind) (i o m : Nat) : (s.clrR k i o m).power = s.power := rfl
@[simp] theorem State.clrR_config (s : State) (k : PageKind) (i o m : Nat) : (s.clrR k i o m).config = s.config := rfl
@[simp] theorem State.clrR_i3c (s : State) (k : PageKind) (i o m : Nat) : (s.clrR k i o m).i3c = s.i3c := rfl
@[simp] theorem State.clrR_tap (s : State) (k : PageKind) (i o m : Nat) : (s.clrR k i o m).tap = s.tap := rfl
@[simp] theorem State.clrR_pcie (s : State) (k : PageKind) (i o m : Nat) : (s.clrR k i o m).pcie = s.pcie := rfl
@[simp] theorem State.clrR_mbx (s : State) (k : PageKind) (i o m : Nat) : (s.clrR k i o m).mbx = s.mbx := rfl
@[simp] theorem State.clrR_scrubs (s : State) (k : PageKind) (i o m : Nat) : (s.clrR k i o m).scrubs = s.scrubs := rfl
@[simp] theorem State.clrR_coreFrac (s : State) (k : PageKind) (i o m : Nat) : (s.clrR k i o m).coreFrac = s.coreFrac := rfl
@[simp] theorem State.clrR_inCond (s : State) (k : PageKind) (i o m : Nat) : (s.clrR k i o m).inCond = s.inCond := rfl

@[simp] theorem State.satAdd_pending (s : State) (k : PageKind) (i o hi lo n : Nat) : (s.satAdd k i o hi lo n).pending = s.pending := rfl
@[simp] theorem State.satAdd_fresh (s : State) (k : PageKind) (i o hi lo n : Nat) : (s.satAdd k i o hi lo n).fresh = s.fresh := rfl
@[simp] theorem State.satAdd_tb (s : State) (k : PageKind) (i o hi lo n : Nat) : (s.satAdd k i o hi lo n).tb = s.tb := rfl
@[simp] theorem State.satAdd_mem (s : State) (k : PageKind) (i o hi lo n : Nat) : (s.satAdd k i o hi lo n).mem = s.mem := rfl
@[simp] theorem State.satAdd_ecc (s : State) (k : PageKind) (i o hi lo n : Nat) : (s.satAdd k i o hi lo n).ecc = s.ecc := rfl
@[simp] theorem State.satAdd_tiles (s : State) (k : PageKind) (i o hi lo n : Nat) : (s.satAdd k i o hi lo n).tiles = s.tiles := rfl
@[simp] theorem State.satAdd_glints (s : State) (k : PageKind) (i o hi lo n : Nat) : (s.satAdd k i o hi lo n).glints = s.glints := rfl
@[simp] theorem State.satAdd_units (s : State) (k : PageKind) (i o hi lo n : Nat) : (s.satAdd k i o hi lo n).units = s.units := rfl
@[simp] theorem State.satAdd_owner (s : State) (k : PageKind) (i o hi lo n : Nat) : (s.satAdd k i o hi lo n).owner = s.owner := rfl
@[simp] theorem State.satAdd_shades (s : State) (k : PageKind) (i o hi lo n : Nat) : (s.satAdd k i o hi lo n).shades = s.shades := rfl
@[simp] theorem State.satAdd_bcn (s : State) (k : PageKind) (i o hi lo n : Nat) : (s.satAdd k i o hi lo n).bcn = s.bcn := rfl
@[simp] theorem State.satAdd_agq (s : State) (k : PageKind) (i o hi lo n : Nat) : (s.satAdd k i o hi lo n).agq = s.agq := rfl
@[simp] theorem State.satAdd_host (s : State) (k : PageKind) (i o hi lo n : Nat) : (s.satAdd k i o hi lo n).host = s.host := rfl
@[simp] theorem State.satAdd_health (s : State) (k : PageKind) (i o hi lo n : Nat) : (s.satAdd k i o hi lo n).health = s.health := rfl
@[simp] theorem State.satAdd_noise (s : State) (k : PageKind) (i o hi lo n : Nat) : (s.satAdd k i o hi lo n).noise = s.noise := rfl
@[simp] theorem State.satAdd_jorx (s : State) (k : PageKind) (i o hi lo n : Nat) : (s.satAdd k i o hi lo n).jorx = s.jorx := rfl
@[simp] theorem State.satAdd_maint (s : State) (k : PageKind) (i o hi lo n : Nat) : (s.satAdd k i o hi lo n).maint = s.maint := rfl
@[simp] theorem State.satAdd_dim (s : State) (k : PageKind) (i o hi lo n : Nat) : (s.satAdd k i o hi lo n).dim = s.dim := rfl
@[simp] theorem State.satAdd_power (s : State) (k : PageKind) (i o hi lo n : Nat) : (s.satAdd k i o hi lo n).power = s.power := rfl
@[simp] theorem State.satAdd_config (s : State) (k : PageKind) (i o hi lo n : Nat) : (s.satAdd k i o hi lo n).config = s.config := rfl
@[simp] theorem State.satAdd_i3c (s : State) (k : PageKind) (i o hi lo n : Nat) : (s.satAdd k i o hi lo n).i3c = s.i3c := rfl
@[simp] theorem State.satAdd_tap (s : State) (k : PageKind) (i o hi lo n : Nat) : (s.satAdd k i o hi lo n).tap = s.tap := rfl
@[simp] theorem State.satAdd_pcie (s : State) (k : PageKind) (i o hi lo n : Nat) : (s.satAdd k i o hi lo n).pcie = s.pcie := rfl
@[simp] theorem State.satAdd_mbx (s : State) (k : PageKind) (i o hi lo n : Nat) : (s.satAdd k i o hi lo n).mbx = s.mbx := rfl
@[simp] theorem State.satAdd_scrubs (s : State) (k : PageKind) (i o hi lo n : Nat) : (s.satAdd k i o hi lo n).scrubs = s.scrubs := rfl
@[simp] theorem State.satAdd_coreFrac (s : State) (k : PageKind) (i o hi lo n : Nat) : (s.satAdd k i o hi lo n).coreFrac = s.coreFrac := rfl
@[simp] theorem State.satAdd_inCond (s : State) (k : PageKind) (i o hi lo n : Nat) : (s.satAdd k i o hi lo n).inCond = s.inCond := rfl

@[simp] theorem State.setR64_pending (s : State) (k : PageKind) (i o v : Nat) : (s.setR64 k i o v).pending = s.pending := rfl
@[simp] theorem State.setR64_fresh (s : State) (k : PageKind) (i o v : Nat) : (s.setR64 k i o v).fresh = s.fresh := rfl
@[simp] theorem State.setR64_tb (s : State) (k : PageKind) (i o v : Nat) : (s.setR64 k i o v).tb = s.tb := rfl
@[simp] theorem State.setR64_mem (s : State) (k : PageKind) (i o v : Nat) : (s.setR64 k i o v).mem = s.mem := rfl
@[simp] theorem State.setR64_ecc (s : State) (k : PageKind) (i o v : Nat) : (s.setR64 k i o v).ecc = s.ecc := rfl
@[simp] theorem State.setR64_tiles (s : State) (k : PageKind) (i o v : Nat) : (s.setR64 k i o v).tiles = s.tiles := rfl
@[simp] theorem State.setR64_glints (s : State) (k : PageKind) (i o v : Nat) : (s.setR64 k i o v).glints = s.glints := rfl
@[simp] theorem State.setR64_units (s : State) (k : PageKind) (i o v : Nat) : (s.setR64 k i o v).units = s.units := rfl
@[simp] theorem State.setR64_owner (s : State) (k : PageKind) (i o v : Nat) : (s.setR64 k i o v).owner = s.owner := rfl
@[simp] theorem State.setR64_shades (s : State) (k : PageKind) (i o v : Nat) : (s.setR64 k i o v).shades = s.shades := rfl
@[simp] theorem State.setR64_bcn (s : State) (k : PageKind) (i o v : Nat) : (s.setR64 k i o v).bcn = s.bcn := rfl
@[simp] theorem State.setR64_agq (s : State) (k : PageKind) (i o v : Nat) : (s.setR64 k i o v).agq = s.agq := rfl
@[simp] theorem State.setR64_host (s : State) (k : PageKind) (i o v : Nat) : (s.setR64 k i o v).host = s.host := rfl
@[simp] theorem State.setR64_health (s : State) (k : PageKind) (i o v : Nat) : (s.setR64 k i o v).health = s.health := rfl
@[simp] theorem State.setR64_noise (s : State) (k : PageKind) (i o v : Nat) : (s.setR64 k i o v).noise = s.noise := rfl
@[simp] theorem State.setR64_jorx (s : State) (k : PageKind) (i o v : Nat) : (s.setR64 k i o v).jorx = s.jorx := rfl
@[simp] theorem State.setR64_maint (s : State) (k : PageKind) (i o v : Nat) : (s.setR64 k i o v).maint = s.maint := rfl
@[simp] theorem State.setR64_dim (s : State) (k : PageKind) (i o v : Nat) : (s.setR64 k i o v).dim = s.dim := rfl
@[simp] theorem State.setR64_power (s : State) (k : PageKind) (i o v : Nat) : (s.setR64 k i o v).power = s.power := rfl
@[simp] theorem State.setR64_config (s : State) (k : PageKind) (i o v : Nat) : (s.setR64 k i o v).config = s.config := rfl
@[simp] theorem State.setR64_i3c (s : State) (k : PageKind) (i o v : Nat) : (s.setR64 k i o v).i3c = s.i3c := rfl
@[simp] theorem State.setR64_tap (s : State) (k : PageKind) (i o v : Nat) : (s.setR64 k i o v).tap = s.tap := rfl
@[simp] theorem State.setR64_pcie (s : State) (k : PageKind) (i o v : Nat) : (s.setR64 k i o v).pcie = s.pcie := rfl
@[simp] theorem State.setR64_mbx (s : State) (k : PageKind) (i o v : Nat) : (s.setR64 k i o v).mbx = s.mbx := rfl
@[simp] theorem State.setR64_scrubs (s : State) (k : PageKind) (i o v : Nat) : (s.setR64 k i o v).scrubs = s.scrubs := rfl
@[simp] theorem State.setR64_coreFrac (s : State) (k : PageKind) (i o v : Nat) : (s.setR64 k i o v).coreFrac = s.coreFrac := rfl
@[simp] theorem State.setR64_inCond (s : State) (k : PageKind) (i o v : Nat) : (s.setR64 k i o v).inCond = s.inCond := rfl

@[simp] theorem State.modSh_pending (s : State) (sh : ShadeIx) (f : ShadeSt → ShadeSt) : (s.modSh sh f).pending = s.pending := rfl
@[simp] theorem State.modSh_fresh (s : State) (sh : ShadeIx) (f : ShadeSt → ShadeSt) : (s.modSh sh f).fresh = s.fresh := rfl
@[simp] theorem State.modSh_tb (s : State) (sh : ShadeIx) (f : ShadeSt → ShadeSt) : (s.modSh sh f).tb = s.tb := rfl
@[simp] theorem State.modSh_regs (s : State) (sh : ShadeIx) (f : ShadeSt → ShadeSt) : (s.modSh sh f).regs = s.regs := rfl
@[simp] theorem State.modSh_mem (s : State) (sh : ShadeIx) (f : ShadeSt → ShadeSt) : (s.modSh sh f).mem = s.mem := rfl
@[simp] theorem State.modSh_ecc (s : State) (sh : ShadeIx) (f : ShadeSt → ShadeSt) : (s.modSh sh f).ecc = s.ecc := rfl
@[simp] theorem State.modSh_tiles (s : State) (sh : ShadeIx) (f : ShadeSt → ShadeSt) : (s.modSh sh f).tiles = s.tiles := rfl
@[simp] theorem State.modSh_glints (s : State) (sh : ShadeIx) (f : ShadeSt → ShadeSt) : (s.modSh sh f).glints = s.glints := rfl
@[simp] theorem State.modSh_units (s : State) (sh : ShadeIx) (f : ShadeSt → ShadeSt) : (s.modSh sh f).units = s.units := rfl
@[simp] theorem State.modSh_owner (s : State) (sh : ShadeIx) (f : ShadeSt → ShadeSt) : (s.modSh sh f).owner = s.owner := rfl
@[simp] theorem State.modSh_bcn (s : State) (sh : ShadeIx) (f : ShadeSt → ShadeSt) : (s.modSh sh f).bcn = s.bcn := rfl
@[simp] theorem State.modSh_agq (s : State) (sh : ShadeIx) (f : ShadeSt → ShadeSt) : (s.modSh sh f).agq = s.agq := rfl
@[simp] theorem State.modSh_host (s : State) (sh : ShadeIx) (f : ShadeSt → ShadeSt) : (s.modSh sh f).host = s.host := rfl
@[simp] theorem State.modSh_health (s : State) (sh : ShadeIx) (f : ShadeSt → ShadeSt) : (s.modSh sh f).health = s.health := rfl
@[simp] theorem State.modSh_noise (s : State) (sh : ShadeIx) (f : ShadeSt → ShadeSt) : (s.modSh sh f).noise = s.noise := rfl
@[simp] theorem State.modSh_jorx (s : State) (sh : ShadeIx) (f : ShadeSt → ShadeSt) : (s.modSh sh f).jorx = s.jorx := rfl
@[simp] theorem State.modSh_maint (s : State) (sh : ShadeIx) (f : ShadeSt → ShadeSt) : (s.modSh sh f).maint = s.maint := rfl
@[simp] theorem State.modSh_dim (s : State) (sh : ShadeIx) (f : ShadeSt → ShadeSt) : (s.modSh sh f).dim = s.dim := rfl
@[simp] theorem State.modSh_power (s : State) (sh : ShadeIx) (f : ShadeSt → ShadeSt) : (s.modSh sh f).power = s.power := rfl
@[simp] theorem State.modSh_config (s : State) (sh : ShadeIx) (f : ShadeSt → ShadeSt) : (s.modSh sh f).config = s.config := rfl
@[simp] theorem State.modSh_i3c (s : State) (sh : ShadeIx) (f : ShadeSt → ShadeSt) : (s.modSh sh f).i3c = s.i3c := rfl
@[simp] theorem State.modSh_tap (s : State) (sh : ShadeIx) (f : ShadeSt → ShadeSt) : (s.modSh sh f).tap = s.tap := rfl
@[simp] theorem State.modSh_pcie (s : State) (sh : ShadeIx) (f : ShadeSt → ShadeSt) : (s.modSh sh f).pcie = s.pcie := rfl
@[simp] theorem State.modSh_mbx (s : State) (sh : ShadeIx) (f : ShadeSt → ShadeSt) : (s.modSh sh f).mbx = s.mbx := rfl
@[simp] theorem State.modSh_scrubs (s : State) (sh : ShadeIx) (f : ShadeSt → ShadeSt) : (s.modSh sh f).scrubs = s.scrubs := rfl
@[simp] theorem State.modSh_coreFrac (s : State) (sh : ShadeIx) (f : ShadeSt → ShadeSt) : (s.modSh sh f).coreFrac = s.coreFrac := rfl
@[simp] theorem State.modSh_inCond (s : State) (sh : ShadeIx) (f : ShadeSt → ShadeSt) : (s.modSh sh f).inCond = s.inCond := rfl

@[simp] theorem State.modLan_pending (s : State) (sh : ShadeIx) (f : Lantern → Lantern) : (s.modLan sh f).pending = s.pending := rfl
@[simp] theorem State.modLan_fresh (s : State) (sh : ShadeIx) (f : Lantern → Lantern) : (s.modLan sh f).fresh = s.fresh := rfl
@[simp] theorem State.modLan_tb (s : State) (sh : ShadeIx) (f : Lantern → Lantern) : (s.modLan sh f).tb = s.tb := rfl
@[simp] theorem State.modLan_regs (s : State) (sh : ShadeIx) (f : Lantern → Lantern) : (s.modLan sh f).regs = s.regs := rfl
@[simp] theorem State.modLan_mem (s : State) (sh : ShadeIx) (f : Lantern → Lantern) : (s.modLan sh f).mem = s.mem := rfl
@[simp] theorem State.modLan_ecc (s : State) (sh : ShadeIx) (f : Lantern → Lantern) : (s.modLan sh f).ecc = s.ecc := rfl
@[simp] theorem State.modLan_tiles (s : State) (sh : ShadeIx) (f : Lantern → Lantern) : (s.modLan sh f).tiles = s.tiles := rfl
@[simp] theorem State.modLan_glints (s : State) (sh : ShadeIx) (f : Lantern → Lantern) : (s.modLan sh f).glints = s.glints := rfl
@[simp] theorem State.modLan_units (s : State) (sh : ShadeIx) (f : Lantern → Lantern) : (s.modLan sh f).units = s.units := rfl
@[simp] theorem State.modLan_owner (s : State) (sh : ShadeIx) (f : Lantern → Lantern) : (s.modLan sh f).owner = s.owner := rfl
@[simp] theorem State.modLan_bcn (s : State) (sh : ShadeIx) (f : Lantern → Lantern) : (s.modLan sh f).bcn = s.bcn := rfl
@[simp] theorem State.modLan_agq (s : State) (sh : ShadeIx) (f : Lantern → Lantern) : (s.modLan sh f).agq = s.agq := rfl
@[simp] theorem State.modLan_host (s : State) (sh : ShadeIx) (f : Lantern → Lantern) : (s.modLan sh f).host = s.host := rfl
@[simp] theorem State.modLan_health (s : State) (sh : ShadeIx) (f : Lantern → Lantern) : (s.modLan sh f).health = s.health := rfl
@[simp] theorem State.modLan_noise (s : State) (sh : ShadeIx) (f : Lantern → Lantern) : (s.modLan sh f).noise = s.noise := rfl
@[simp] theorem State.modLan_jorx (s : State) (sh : ShadeIx) (f : Lantern → Lantern) : (s.modLan sh f).jorx = s.jorx := rfl
@[simp] theorem State.modLan_maint (s : State) (sh : ShadeIx) (f : Lantern → Lantern) : (s.modLan sh f).maint = s.maint := rfl
@[simp] theorem State.modLan_dim (s : State) (sh : ShadeIx) (f : Lantern → Lantern) : (s.modLan sh f).dim = s.dim := rfl
@[simp] theorem State.modLan_power (s : State) (sh : ShadeIx) (f : Lantern → Lantern) : (s.modLan sh f).power = s.power := rfl
@[simp] theorem State.modLan_config (s : State) (sh : ShadeIx) (f : Lantern → Lantern) : (s.modLan sh f).config = s.config := rfl
@[simp] theorem State.modLan_i3c (s : State) (sh : ShadeIx) (f : Lantern → Lantern) : (s.modLan sh f).i3c = s.i3c := rfl
@[simp] theorem State.modLan_tap (s : State) (sh : ShadeIx) (f : Lantern → Lantern) : (s.modLan sh f).tap = s.tap := rfl
@[simp] theorem State.modLan_pcie (s : State) (sh : ShadeIx) (f : Lantern → Lantern) : (s.modLan sh f).pcie = s.pcie := rfl
@[simp] theorem State.modLan_mbx (s : State) (sh : ShadeIx) (f : Lantern → Lantern) : (s.modLan sh f).mbx = s.mbx := rfl
@[simp] theorem State.modLan_scrubs (s : State) (sh : ShadeIx) (f : Lantern → Lantern) : (s.modLan sh f).scrubs = s.scrubs := rfl
@[simp] theorem State.modLan_coreFrac (s : State) (sh : ShadeIx) (f : Lantern → Lantern) : (s.modLan sh f).coreFrac = s.coreFrac := rfl
@[simp] theorem State.modLan_inCond (s : State) (sh : ShadeIx) (f : Lantern → Lantern) : (s.modLan sh f).inCond = s.inCond := rfl

@[simp] theorem State.modTile_pending (s : State) (p t : Nat) (f : TileSt → TileSt) : (s.modTile p t f).pending = s.pending := rfl
@[simp] theorem State.modTile_fresh (s : State) (p t : Nat) (f : TileSt → TileSt) : (s.modTile p t f).fresh = s.fresh := rfl
@[simp] theorem State.modTile_tb (s : State) (p t : Nat) (f : TileSt → TileSt) : (s.modTile p t f).tb = s.tb := rfl
@[simp] theorem State.modTile_regs (s : State) (p t : Nat) (f : TileSt → TileSt) : (s.modTile p t f).regs = s.regs := rfl
@[simp] theorem State.modTile_mem (s : State) (p t : Nat) (f : TileSt → TileSt) : (s.modTile p t f).mem = s.mem := rfl
@[simp] theorem State.modTile_ecc (s : State) (p t : Nat) (f : TileSt → TileSt) : (s.modTile p t f).ecc = s.ecc := rfl
@[simp] theorem State.modTile_glints (s : State) (p t : Nat) (f : TileSt → TileSt) : (s.modTile p t f).glints = s.glints := rfl
@[simp] theorem State.modTile_units (s : State) (p t : Nat) (f : TileSt → TileSt) : (s.modTile p t f).units = s.units := rfl
@[simp] theorem State.modTile_owner (s : State) (p t : Nat) (f : TileSt → TileSt) : (s.modTile p t f).owner = s.owner := rfl
@[simp] theorem State.modTile_shades (s : State) (p t : Nat) (f : TileSt → TileSt) : (s.modTile p t f).shades = s.shades := rfl
@[simp] theorem State.modTile_bcn (s : State) (p t : Nat) (f : TileSt → TileSt) : (s.modTile p t f).bcn = s.bcn := rfl
@[simp] theorem State.modTile_agq (s : State) (p t : Nat) (f : TileSt → TileSt) : (s.modTile p t f).agq = s.agq := rfl
@[simp] theorem State.modTile_host (s : State) (p t : Nat) (f : TileSt → TileSt) : (s.modTile p t f).host = s.host := rfl
@[simp] theorem State.modTile_health (s : State) (p t : Nat) (f : TileSt → TileSt) : (s.modTile p t f).health = s.health := rfl
@[simp] theorem State.modTile_noise (s : State) (p t : Nat) (f : TileSt → TileSt) : (s.modTile p t f).noise = s.noise := rfl
@[simp] theorem State.modTile_jorx (s : State) (p t : Nat) (f : TileSt → TileSt) : (s.modTile p t f).jorx = s.jorx := rfl
@[simp] theorem State.modTile_maint (s : State) (p t : Nat) (f : TileSt → TileSt) : (s.modTile p t f).maint = s.maint := rfl
@[simp] theorem State.modTile_dim (s : State) (p t : Nat) (f : TileSt → TileSt) : (s.modTile p t f).dim = s.dim := rfl
@[simp] theorem State.modTile_power (s : State) (p t : Nat) (f : TileSt → TileSt) : (s.modTile p t f).power = s.power := rfl
@[simp] theorem State.modTile_config (s : State) (p t : Nat) (f : TileSt → TileSt) : (s.modTile p t f).config = s.config := rfl
@[simp] theorem State.modTile_i3c (s : State) (p t : Nat) (f : TileSt → TileSt) : (s.modTile p t f).i3c = s.i3c := rfl
@[simp] theorem State.modTile_tap (s : State) (p t : Nat) (f : TileSt → TileSt) : (s.modTile p t f).tap = s.tap := rfl
@[simp] theorem State.modTile_pcie (s : State) (p t : Nat) (f : TileSt → TileSt) : (s.modTile p t f).pcie = s.pcie := rfl
@[simp] theorem State.modTile_mbx (s : State) (p t : Nat) (f : TileSt → TileSt) : (s.modTile p t f).mbx = s.mbx := rfl
@[simp] theorem State.modTile_scrubs (s : State) (p t : Nat) (f : TileSt → TileSt) : (s.modTile p t f).scrubs = s.scrubs := rfl
@[simp] theorem State.modTile_coreFrac (s : State) (p t : Nat) (f : TileSt → TileSt) : (s.modTile p t f).coreFrac = s.coreFrac := rfl
@[simp] theorem State.modTile_inCond (s : State) (p t : Nat) (f : TileSt → TileSt) : (s.modTile p t f).inCond = s.inCond := rfl

@[simp] theorem State.setOwnerP_pending (s : State) (p v : Nat) : (s.setOwnerP p v).pending = s.pending := rfl
@[simp] theorem State.setOwnerP_fresh (s : State) (p v : Nat) : (s.setOwnerP p v).fresh = s.fresh := rfl
@[simp] theorem State.setOwnerP_tb (s : State) (p v : Nat) : (s.setOwnerP p v).tb = s.tb := rfl
@[simp] theorem State.setOwnerP_regs (s : State) (p v : Nat) : (s.setOwnerP p v).regs = s.regs := rfl
@[simp] theorem State.setOwnerP_mem (s : State) (p v : Nat) : (s.setOwnerP p v).mem = s.mem := rfl
@[simp] theorem State.setOwnerP_ecc (s : State) (p v : Nat) : (s.setOwnerP p v).ecc = s.ecc := rfl
@[simp] theorem State.setOwnerP_tiles (s : State) (p v : Nat) : (s.setOwnerP p v).tiles = s.tiles := rfl
@[simp] theorem State.setOwnerP_glints (s : State) (p v : Nat) : (s.setOwnerP p v).glints = s.glints := rfl
@[simp] theorem State.setOwnerP_units (s : State) (p v : Nat) : (s.setOwnerP p v).units = s.units := rfl
@[simp] theorem State.setOwnerP_shades (s : State) (p v : Nat) : (s.setOwnerP p v).shades = s.shades := rfl
@[simp] theorem State.setOwnerP_bcn (s : State) (p v : Nat) : (s.setOwnerP p v).bcn = s.bcn := rfl
@[simp] theorem State.setOwnerP_agq (s : State) (p v : Nat) : (s.setOwnerP p v).agq = s.agq := rfl
@[simp] theorem State.setOwnerP_host (s : State) (p v : Nat) : (s.setOwnerP p v).host = s.host := rfl
@[simp] theorem State.setOwnerP_health (s : State) (p v : Nat) : (s.setOwnerP p v).health = s.health := rfl
@[simp] theorem State.setOwnerP_noise (s : State) (p v : Nat) : (s.setOwnerP p v).noise = s.noise := rfl
@[simp] theorem State.setOwnerP_jorx (s : State) (p v : Nat) : (s.setOwnerP p v).jorx = s.jorx := rfl
@[simp] theorem State.setOwnerP_maint (s : State) (p v : Nat) : (s.setOwnerP p v).maint = s.maint := rfl
@[simp] theorem State.setOwnerP_dim (s : State) (p v : Nat) : (s.setOwnerP p v).dim = s.dim := rfl
@[simp] theorem State.setOwnerP_power (s : State) (p v : Nat) : (s.setOwnerP p v).power = s.power := rfl
@[simp] theorem State.setOwnerP_config (s : State) (p v : Nat) : (s.setOwnerP p v).config = s.config := rfl
@[simp] theorem State.setOwnerP_i3c (s : State) (p v : Nat) : (s.setOwnerP p v).i3c = s.i3c := rfl
@[simp] theorem State.setOwnerP_tap (s : State) (p v : Nat) : (s.setOwnerP p v).tap = s.tap := rfl
@[simp] theorem State.setOwnerP_pcie (s : State) (p v : Nat) : (s.setOwnerP p v).pcie = s.pcie := rfl
@[simp] theorem State.setOwnerP_mbx (s : State) (p v : Nat) : (s.setOwnerP p v).mbx = s.mbx := rfl
@[simp] theorem State.setOwnerP_scrubs (s : State) (p v : Nat) : (s.setOwnerP p v).scrubs = s.scrubs := rfl
@[simp] theorem State.setOwnerP_coreFrac (s : State) (p v : Nat) : (s.setOwnerP p v).coreFrac = s.coreFrac := rfl
@[simp] theorem State.setOwnerP_inCond (s : State) (p v : Nat) : (s.setOwnerP p v).inCond = s.inCond := rfl

@[simp] theorem State.setOwnerQ_pending (s : State) (q v : Nat) : (s.setOwnerQ q v).pending = s.pending := rfl
@[simp] theorem State.setOwnerQ_fresh (s : State) (q v : Nat) : (s.setOwnerQ q v).fresh = s.fresh := rfl
@[simp] theorem State.setOwnerQ_tb (s : State) (q v : Nat) : (s.setOwnerQ q v).tb = s.tb := rfl
@[simp] theorem State.setOwnerQ_regs (s : State) (q v : Nat) : (s.setOwnerQ q v).regs = s.regs := rfl
@[simp] theorem State.setOwnerQ_mem (s : State) (q v : Nat) : (s.setOwnerQ q v).mem = s.mem := rfl
@[simp] theorem State.setOwnerQ_ecc (s : State) (q v : Nat) : (s.setOwnerQ q v).ecc = s.ecc := rfl
@[simp] theorem State.setOwnerQ_tiles (s : State) (q v : Nat) : (s.setOwnerQ q v).tiles = s.tiles := rfl
@[simp] theorem State.setOwnerQ_glints (s : State) (q v : Nat) : (s.setOwnerQ q v).glints = s.glints := rfl
@[simp] theorem State.setOwnerQ_units (s : State) (q v : Nat) : (s.setOwnerQ q v).units = s.units := rfl
@[simp] theorem State.setOwnerQ_shades (s : State) (q v : Nat) : (s.setOwnerQ q v).shades = s.shades := rfl
@[simp] theorem State.setOwnerQ_bcn (s : State) (q v : Nat) : (s.setOwnerQ q v).bcn = s.bcn := rfl
@[simp] theorem State.setOwnerQ_agq (s : State) (q v : Nat) : (s.setOwnerQ q v).agq = s.agq := rfl
@[simp] theorem State.setOwnerQ_host (s : State) (q v : Nat) : (s.setOwnerQ q v).host = s.host := rfl
@[simp] theorem State.setOwnerQ_health (s : State) (q v : Nat) : (s.setOwnerQ q v).health = s.health := rfl
@[simp] theorem State.setOwnerQ_noise (s : State) (q v : Nat) : (s.setOwnerQ q v).noise = s.noise := rfl
@[simp] theorem State.setOwnerQ_jorx (s : State) (q v : Nat) : (s.setOwnerQ q v).jorx = s.jorx := rfl
@[simp] theorem State.setOwnerQ_maint (s : State) (q v : Nat) : (s.setOwnerQ q v).maint = s.maint := rfl
@[simp] theorem State.setOwnerQ_dim (s : State) (q v : Nat) : (s.setOwnerQ q v).dim = s.dim := rfl
@[simp] theorem State.setOwnerQ_power (s : State) (q v : Nat) : (s.setOwnerQ q v).power = s.power := rfl
@[simp] theorem State.setOwnerQ_config (s : State) (q v : Nat) : (s.setOwnerQ q v).config = s.config := rfl
@[simp] theorem State.setOwnerQ_i3c (s : State) (q v : Nat) : (s.setOwnerQ q v).i3c = s.i3c := rfl
@[simp] theorem State.setOwnerQ_tap (s : State) (q v : Nat) : (s.setOwnerQ q v).tap = s.tap := rfl
@[simp] theorem State.setOwnerQ_pcie (s : State) (q v : Nat) : (s.setOwnerQ q v).pcie = s.pcie := rfl
@[simp] theorem State.setOwnerQ_mbx (s : State) (q v : Nat) : (s.setOwnerQ q v).mbx = s.mbx := rfl
@[simp] theorem State.setOwnerQ_scrubs (s : State) (q v : Nat) : (s.setOwnerQ q v).scrubs = s.scrubs := rfl
@[simp] theorem State.setOwnerQ_coreFrac (s : State) (q v : Nat) : (s.setOwnerQ q v).coreFrac = s.coreFrac := rfl
@[simp] theorem State.setOwnerQ_inCond (s : State) (q v : Nat) : (s.setOwnerQ q v).inCond = s.inCond := rfl

@[simp] theorem State.setEcc_pending (s : State) (k e : Nat) : (s.setEcc k e).pending = s.pending := rfl
@[simp] theorem State.setEcc_fresh (s : State) (k e : Nat) : (s.setEcc k e).fresh = s.fresh := rfl
@[simp] theorem State.setEcc_tb (s : State) (k e : Nat) : (s.setEcc k e).tb = s.tb := rfl
@[simp] theorem State.setEcc_regs (s : State) (k e : Nat) : (s.setEcc k e).regs = s.regs := rfl
@[simp] theorem State.setEcc_mem (s : State) (k e : Nat) : (s.setEcc k e).mem = s.mem := rfl
@[simp] theorem State.setEcc_tiles (s : State) (k e : Nat) : (s.setEcc k e).tiles = s.tiles := rfl
@[simp] theorem State.setEcc_glints (s : State) (k e : Nat) : (s.setEcc k e).glints = s.glints := rfl
@[simp] theorem State.setEcc_units (s : State) (k e : Nat) : (s.setEcc k e).units = s.units := rfl
@[simp] theorem State.setEcc_owner (s : State) (k e : Nat) : (s.setEcc k e).owner = s.owner := rfl
@[simp] theorem State.setEcc_shades (s : State) (k e : Nat) : (s.setEcc k e).shades = s.shades := rfl
@[simp] theorem State.setEcc_bcn (s : State) (k e : Nat) : (s.setEcc k e).bcn = s.bcn := rfl
@[simp] theorem State.setEcc_agq (s : State) (k e : Nat) : (s.setEcc k e).agq = s.agq := rfl
@[simp] theorem State.setEcc_host (s : State) (k e : Nat) : (s.setEcc k e).host = s.host := rfl
@[simp] theorem State.setEcc_health (s : State) (k e : Nat) : (s.setEcc k e).health = s.health := rfl
@[simp] theorem State.setEcc_noise (s : State) (k e : Nat) : (s.setEcc k e).noise = s.noise := rfl
@[simp] theorem State.setEcc_jorx (s : State) (k e : Nat) : (s.setEcc k e).jorx = s.jorx := rfl
@[simp] theorem State.setEcc_maint (s : State) (k e : Nat) : (s.setEcc k e).maint = s.maint := rfl
@[simp] theorem State.setEcc_dim (s : State) (k e : Nat) : (s.setEcc k e).dim = s.dim := rfl
@[simp] theorem State.setEcc_power (s : State) (k e : Nat) : (s.setEcc k e).power = s.power := rfl
@[simp] theorem State.setEcc_config (s : State) (k e : Nat) : (s.setEcc k e).config = s.config := rfl
@[simp] theorem State.setEcc_i3c (s : State) (k e : Nat) : (s.setEcc k e).i3c = s.i3c := rfl
@[simp] theorem State.setEcc_tap (s : State) (k e : Nat) : (s.setEcc k e).tap = s.tap := rfl
@[simp] theorem State.setEcc_pcie (s : State) (k e : Nat) : (s.setEcc k e).pcie = s.pcie := rfl
@[simp] theorem State.setEcc_mbx (s : State) (k e : Nat) : (s.setEcc k e).mbx = s.mbx := rfl
@[simp] theorem State.setEcc_scrubs (s : State) (k e : Nat) : (s.setEcc k e).scrubs = s.scrubs := rfl
@[simp] theorem State.setEcc_coreFrac (s : State) (k e : Nat) : (s.setEcc k e).coreFrac = s.coreFrac := rfl
@[simp] theorem State.setEcc_inCond (s : State) (k e : Nat) : (s.setEcc k e).inCond = s.inCond := rfl

/-! ## Reads of what was written -/

theorem rkey_inj {k k' : PageKind} {i i' o o' : Nat} (hi : i < 1024) (hi' : i' < 1024) (ho : o < 4096) (ho' : o' < 4096)
    (h : rkey k i o = rkey k' i' o') : k = k' ∧ i = i' ∧ o = o' := by
  unfold rkey at h
  have h1 : o = o' := by omega
  have h2 : i = i' := by omega
  have h3 : k.ix = k'.ix := by omega
  refine ⟨?_, h2, h1⟩
  cases k <;> cases k' <;> first | rfl | (exact Not.elim (by decide) h3)

@[simp] theorem State.getR_setR_same (s : State) (k : PageKind) (i o v : Nat) : (s.setR k i o v).getR k i o = v % 2 ^ 32 := by
  simp [State.getR, State.setR]

theorem State.getR_setR_ne (s : State) {k k' : PageKind} {i i' o o' : Nat} (v : Nat) (h : rkey k' i' o' ≠ rkey k i o) :
    (s.setR k i o v).getR k' i' o' = s.getR k' i' o' := by
  simp [State.getR, State.setR, FMap.get_set_other _ _ _ _ _ h]

theorem State.getR_lt (s : State) (k : PageKind) (i o : Nat) : s.getR k i o < 2 ^ 32 := by
  unfold State.getR; exact BitVec.isLt _

@[simp] theorem State.sh_modSh_same (s : State) (sh : ShadeIx) (f : ShadeSt → ShadeSt) : (s.modSh sh f).sh sh = f (s.sh sh) := by
  simp [State.sh, State.modSh]

theorem State.sh_modSh_ne (s : State) {sh j : ShadeIx} (f : ShadeSt → ShadeSt) (h : j ≠ sh) : (s.modSh sh f).sh j = s.sh j := by
  have : sh.val ≠ j.val := fun e => h (Fin.ext e.symm)
  simp [State.sh, State.modSh, this]

@[simp] theorem State.sh_modLan_same (s : State) (sh : ShadeIx) (f : Lantern → Lantern) :
    (s.modLan sh f).sh sh = { s.sh sh with lan := f (s.sh sh).lan } := by simp [State.modLan]

theorem State.sh_modLan_ne (s : State) {sh j : ShadeIx} (f : Lantern → Lantern) (h : j ≠ sh) : (s.modLan sh f).sh j = s.sh j :=
  State.sh_modSh_ne _ _ h

@[simp] theorem State.tile_modTile_same (s : State) (p t : Nat) (f : TileSt → TileSt) : (s.modTile p t f).tile p t = f (s.tile p t) := by
  simp [State.tile, State.modTile]

theorem State.tile_modTile_ne (s : State) {p t p' t' : Nat} (f : TileSt → TileSt) (h : tileKey p' t' ≠ tileKey p t) :
    (s.modTile p t f).tile p' t' = s.tile p' t' := by
  simp [State.tile, State.modTile, FMap.get_set_other _ _ _ _ _ h]

/-! ## Reads that depend on one field -/

theorem State.getR_congr {s t : State} (k : PageKind) (i o : Nat) (h : t.regs = s.regs) : t.getR k i o = s.getR k i o := by
  simp only [State.getR, h]
theorem State.sh_congr {s t : State} (sh : ShadeIx) (h : t.shades = s.shades) : t.sh sh = s.sh sh := by simp only [State.sh, h]
theorem State.tile_congr {s t : State} (p q : Nat) (h : t.tiles = s.tiles) : t.tile p q = s.tile p q := by simp only [State.tile, h]
theorem State.ownerP_congr {s t : State} (p : Nat) (h : t.owner = s.owner) : t.ownerP p = s.ownerP p := by simp only [State.ownerP, h]
theorem State.rd_congr {s t : State} (a : Nat) (h : t.mem = s.mem) : t.rd a = s.rd a := by simp only [State.rd, h]

@[simp] theorem State.getR_modSh (s : State) (sh : ShadeIx) (f : ShadeSt → ShadeSt) (k : PageKind) (i o : Nat) :
    (s.modSh sh f).getR k i o = s.getR k i o := rfl
@[simp] theorem State.getR_modLan (s : State) (sh : ShadeIx) (f : Lantern → Lantern) (k : PageKind) (i o : Nat) :
    (s.modLan sh f).getR k i o = s.getR k i o := rfl
@[simp] theorem State.getR_modTile (s : State) (p t : Nat) (f : TileSt → TileSt) (k : PageKind) (i o : Nat) :
    (s.modTile p t f).getR k i o = s.getR k i o := rfl
@[simp] theorem State.sh_setR (s : State) (k : PageKind) (i o v : Nat) (sh : ShadeIx) : (s.setR k i o v).sh sh = s.sh sh := rfl
@[simp] theorem State.sh_modTile (s : State) (p t : Nat) (f : TileSt → TileSt) (sh : ShadeIx) : (s.modTile p t f).sh sh = s.sh sh := rfl
@[simp] theorem State.tile_modSh (s : State) (sh : ShadeIx) (f : ShadeSt → ShadeSt) (p t : Nat) : (s.modSh sh f).tile p t = s.tile p t := rfl

end Sys2Proof.Machine
end

