-- ==== Sys2Proof/Laws/Report.lean ====
section
/-! SUPPORT. What the shared reporting operations can do: counters (R457), error registers (R524), Beacon (R433 to R435), MSI-X (R434)
and Afterglow records (R451) change registers, counter remainders, Beacon, the host's tables and Afterglow, and nothing else. -/

namespace Sys2Proof.Machine

/-- t differs from s at most in registers, counter state, Beacon, the host's tables and Afterglow. -/
def Reports (s t : State) : Prop :=
  t = { s with regs := t.regs, units := t.units, inCond := t.inCond, bcn := t.bcn, host := t.host, agq := t.agq }

/-- Registers outside P are the same in s and t. -/
def RegsOff (P : Nat → Prop) (s t : State) : Prop := ∀ key, ¬ P key → t.regs.get regDefault key = s.regs.get regDefault key

/-- The key lies in a page. -/
def inPage (k : PageKind) (i : Nat) (key : Nat) : Prop := key / 4096 = k.ix * 1024 + i

/-- The key is one of a page's counter values (R457). -/
def isCounter (k : PageKind) (i : Nat) (key : Nat) : Prop := inPage k i key ∧ 0x80 ≤ key % 4096 ∧ key % 4096 < 0xC0

/-- The key lies in a Beacon target's page. -/
def inTarget (key : Nat) : Prop := key / 4096 / 1024 = PageKind.bcnTgt.ix

theorem Reports.refl (s : State) : Reports s s := rfl

theorem Reports.trans {s t u : State} (h1 : Reports s t) (h2 : Reports t u) : Reports s u := by
  unfold Reports at *
  rw [h2, h1]

theorem RegsOff.refl (P : Nat → Prop) (s : State) : RegsOff P s s := fun _ _ => rfl

theorem RegsOff.trans {P : Nat → Prop} {s t u : State} (h1 : RegsOff P s t) (h2 : RegsOff P t u) : RegsOff P s u :=
  fun k hk => (h2 k hk).trans (h1 k hk)

theorem RegsOff.mono {P Q : Nat → Prop} {s t : State} (h : RegsOff P s t) (hPQ : ∀ k, P k → Q k) : RegsOff Q s t :=
  fun k hk => h k fun hp => hk (hPQ k hp)

theorem RegsOff.of_regs {P : Nat → Prop} {s t : State} (h : t.regs = s.regs) : RegsOff P s t := fun k _ => by rw [h]

theorem RegsOff.getR {P : Nat → Prop} {s t : State} (h : RegsOff P s t) (k : PageKind) (i o : Nat) (hk : ¬ P (rkey k i o)) :
    t.getR k i o = s.getR k i o := by
  unfold State.getR; rw [h _ hk]

theorem inPage_rkey {k k' : PageKind} {i i' o : Nat} (ho : o < 4096) : inPage k i (rkey k' i' o) ↔ k'.ix * 1024 + i' = k.ix * 1024 + i := by
  unfold inPage rkey; constructor <;> intro h <;> omega

theorem PageKind.ix_inj {k k' : PageKind} (h : k.ix = k'.ix) : k = k' := by
  cases k <;> cases k' <;> first | rfl | (exact Not.elim (by decide) h)

theorem inPage_rkey_iff {k k' : PageKind} {i i' o : Nat} (hi : i < 1024) (hi' : i' < 1024) (ho : o < 4096) :
    inPage k i (rkey k' i' o) ↔ k' = k ∧ i' = i := by
  rw [inPage_rkey ho]
  constructor
  · intro h
    exact ⟨PageKind.ix_inj (by omega), by omega⟩
  · rintro ⟨rfl, rfl⟩; rfl

theorem isCounter_rkey_iff {k k' : PageKind} {i i' o : Nat} (hi : i < 1024) (hi' : i' < 1024) (ho : o < 4096) :
    isCounter k i (rkey k' i' o) ↔ k' = k ∧ i' = i ∧ 0x80 ≤ o ∧ o < 0xC0 := by
  unfold isCounter
  rw [inPage_rkey_iff hi hi' ho]
  have : rkey k' i' o % 4096 = o := by unfold rkey; omega
  rw [this, and_assoc]

theorem inTarget_rkey_iff {k : PageKind} {i o : Nat} (hi : i < 1024) (ho : o < 4096) : inTarget (rkey k i o) ↔ k = .bcnTgt := by
  have : rkey k i o / 4096 / 1024 = k.ix := by unfold rkey; omega
  unfold inTarget
  rw [this]
  exact ⟨PageKind.ix_inj, fun h => by rw [h]⟩

theorem RegsOff.setR {P : Nat → Prop} (s : State) (k : PageKind) (i o v : Nat) (h : P (rkey k i o)) : RegsOff P s (s.setR k i o v) := by
  intro key hk
  have hne : key ≠ rkey k i o := fun e => hk (e ▸ h)
  simp [State.setR, FMap.get_set_other _ _ _ _ _ hne]

theorem Reports.of_regs (s : State) (r : FMap W32) : Reports s { s with regs := r } := rfl

theorem Reports.setR (s : State) (k : PageKind) (i o v : Nat) : Reports s (s.setR k i o v) := rfl

/-! ## Counters -/

/-- Adding to a counter changes counter values of its page only. -/
theorem State.addCounter_touch (s : State) (k : PageKind) (i n m : Nat) (hn : n < 8) :
    Reports s (s.addCounter k i n m) ∧ RegsOff (isCounter k i) s (s.addCounter k i n m) := by
  have key : ∀ j b, j < 8 → b < 8 → b % 4 = 0 → isCounter k i (rkey k i (0x80 + 8 * j + b)) := by
    intro j b hj hb hb4
    unfold isCounter inPage rkey
    omega
  have two : ∀ (u : State) j v, j < 8 → Reports u (u.setR64 k i (0x80 + 8 * j) v) ∧ RegsOff (isCounter k i) u (u.setR64 k i (0x80 + 8 * j) v) := by
    intro u j v hj
    refine ⟨rfl, ?_⟩
    unfold State.setR64
    exact (RegsOff.setR _ _ _ _ _ (by simpa using key j 0 hj (by omega) rfl)).trans
      (RegsOff.setR _ _ _ _ _ (key j 4 hj (by omega) rfl))
  unfold State.addCounter
  extract_lets v s1
  have h1 := two s n (v % 2 ^ 48) hn
  split
  · rename_i hc
    have h2 := two s1 (n + 1) ((s1.getR64 k i (0x80 + 8 * (n + 1)) + v / 2 ^ 48) % 2 ^ 48) (by omega)
    exact ⟨h1.1.trans h2.1, h1.2.trans h2.2⟩
  · exact h1

/-- A relation that holds of each turn of a fold holds of the fold. -/
theorem foldl_rel {α σ : Type} (R : σ → σ → Prop) (hr : ∀ s, R s s) (ht : ∀ s t u, R s t → R t u → R s u) (f : σ → α → σ) :
    ∀ (l : List α) (s : σ), (∀ s a, a ∈ l → R s (f s a)) → R s (l.foldl f s)
  | [], s, _ => hr s
  | a :: l, s, h => ht _ _ _ (h s a (by simp)) (foldl_rel R hr ht f l _ fun s b hb => h s b (by simp [hb]))

/-- Counting changes counter values of its page only. -/
theorem State.countAs_touch (s : State) (k : PageKind) (i ev q n e : Nat) :
    Reports s (s.countAs k i ev q n e) ∧ RegsOff (isCounter k i) s (s.countAs k i ev q n e) := by
  unfold State.countAs
  split
  · exact ⟨Reports.refl s, RegsOff.refl _ s⟩
  · refine foldl_rel (fun a b => Reports a b ∧ RegsOff (isCounter k i) a b) (fun s => ⟨Reports.refl s, RegsOff.refl _ s⟩)
      (fun _ _ _ h1 h2 => ⟨h1.1.trans h2.1, h1.2.trans h2.2⟩) _ _ _ ?_
    intro s a ha
    split
    · exact State.addCounter_touch s k i a _ (by simpa using ha)
    · exact ⟨Reports.refl s, RegsOff.refl _ s⟩

theorem State.count_touch (s : State) (k : PageKind) (i ev n : Nat) :
    Reports s (s.count k i ev n) ∧ RegsOff (isCounter k i) s (s.count k i ev n) := State.countAs_touch _ _ _ _ _ _ _

theorem State.countSpan_touch (s : State) (k : PageKind) (i ev n : Nat) :
    Reports s (s.countSpan k i ev n) ∧ RegsOff (isCounter k i) s (s.countSpan k i ev n) := State.countAs_touch _ _ _ _ _ _ _

theorem State.cycleEv_touch (s : State) (k : PageKind) (i ev : Nat) (on : Bool) :
    Reports s (s.cycleEv k i ev on) ∧ RegsOff (isCounter k i) s (s.cycleEv k i ev on) := by
  unfold State.cycleEv
  extract_lets key s'
  have h : Reports s s' ∧ RegsOff (isCounter k i) s s' := by
    show Reports s (if on then _ else s) ∧ RegsOff _ s (if on then _ else s)
    split
    · exact State.countAs_touch _ _ _ _ _ _ _
    · exact ⟨Reports.refl s, RegsOff.refl _ s⟩
  exact ⟨h.1.trans rfl, h.2.trans (RegsOff.of_regs rfl)⟩

theorem State.countUnits_touch (s : State) (k : PageKind) (i ev n : Nat) :
    Reports s (s.countUnits k i ev n) ∧ RegsOff (isCounter k i) s (s.countUnits k i ev n) := by
  unfold State.countUnits
  extract_lets key v
  have h := State.count_touch { s with units := s.units.set (fun _ => 0) key (v % 256) } k i ev (v / 256)
  exact ⟨Reports.trans (t := { s with units := s.units.set (fun _ => 0) key (v % 256) }) rfl h.1,
    RegsOff.trans (t := { s with units := s.units.set (fun _ => 0) key (v % 256) }) (RegsOff.of_regs rfl) h.2⟩

/-! ## What a report leaves alone -/

theorem Reports.pending {s t : State} (h : Reports s t) : t.pending = s.pending := by rw [h]
theorem Reports.fresh {s t : State} (h : Reports s t) : t.fresh = s.fresh := by rw [h]
theorem Reports.tb {s t : State} (h : Reports s t) : t.tb = s.tb := by rw [h]
theorem Reports.mem {s t : State} (h : Reports s t) : t.mem = s.mem := by rw [h]
theorem Reports.ecc {s t : State} (h : Reports s t) : t.ecc = s.ecc := by rw [h]
theorem Reports.tiles {s t : State} (h : Reports s t) : t.tiles = s.tiles := by rw [h]
theorem Reports.glints {s t : State} (h : Reports s t) : t.glints = s.glints := by rw [h]
theorem Reports.owner {s t : State} (h : Reports s t) : t.owner = s.owner := by rw [h]
theorem Reports.shades {s t : State} (h : Reports s t) : t.shades = s.shades := by rw [h]
theorem Reports.health {s t : State} (h : Reports s t) : t.health = s.health := by rw [h]
theorem Reports.noise {s t : State} (h : Reports s t) : t.noise = s.noise := by rw [h]
theorem Reports.jorx {s t : State} (h : Reports s t) : t.jorx = s.jorx := by rw [h]
theorem Reports.maint {s t : State} (h : Reports s t) : t.maint = s.maint := by rw [h]
theorem Reports.dim {s t : State} (h : Reports s t) : t.dim = s.dim := by rw [h]
theorem Reports.power {s t : State} (h : Reports s t) : t.power = s.power := by rw [h]
theorem Reports.sh {s t : State} (h : Reports s t) (x : ShadeIx) : t.sh x = s.sh x := State.sh_congr x h.shades

/-! ## Beacon -/

/-- What Beacon's operations can do: registers of Beacon target pages, Beacon and the host's tables. -/
def Rings (s t : State) : Prop := t = { s with regs := t.regs, bcn := t.bcn, host := t.host } ∧ RegsOff inTarget s t

theorem Rings.refl (s : State) : Rings s s := ⟨rfl, RegsOff.refl _ s⟩

theorem Rings.trans {s t u : State} (h1 : Rings s t) (h2 : Rings t u) : Rings s u := by
  refine ⟨?_, h1.2.trans h2.2⟩
  rw [h2.1, h1.1]

theorem Rings.reports {s t : State} (h : Rings s t) : Reports s t := by
  unfold Reports
  rw [h.1]

theorem addCounter_regs_only (s : State) (k : PageKind) (i n m : Nat) : s.addCounter k i n m = { s with regs := (s.addCounter k i n m).regs } := by
  unfold State.addCounter
  extract_lets v s1
  split <;> rfl

/-- Counting changes registers only. -/
theorem State.countAs_eq (s : State) (k : PageKind) (i ev q n e : Nat) : s.countAs k i ev q n e = { s with regs := (s.countAs k i ev q n e).regs } := by
  unfold State.countAs
  split
  · rfl
  · refine foldl_rel (fun (a b : State) => b = { a with regs := b.regs }) (fun _ => rfl)
      (fun a b c h1 h2 => by show c = _; rw [h2, h1]) _ _ _ ?_
    intro s a _
    split
    · exact addCounter_regs_only s k i a _
    · rfl

theorem Rings.count (s : State) (t ev n : Nat) (ht : t < 1024) : Rings s (s.count .bcnTgt t ev n) := by
  refine ⟨?_, (State.count_touch s .bcnTgt t ev n).2.mono ?_⟩
  · have := State.countAs_eq s .bcnTgt t ev 0 n n
    unfold State.count State.countQ
    rw [this]
  · intro key hk
    have := hk.1
    unfold inPage at this
    unfold inTarget
    omega

theorem State.msixSend_rings (s : State) (f e : Nat) : Rings s (s.msixSend f e) := by
  unfold State.msixSend
  split
  · exact ⟨rfl, RegsOff.of_regs rfl⟩
  · exact ⟨rfl, RegsOff.of_regs rfl⟩

theorem State.bcnUnhold_rings (s : State) (t : Nat) (ht : t < 1024) : Rings s (s.bcnUnhold t) := by
  unfold State.bcnUnhold
  split
  · exact Rings.refl s
  · exact Rings.trans (t := { s with bcn := _ }) ⟨rfl, RegsOff.of_regs rfl⟩ (Rings.count _ _ _ _ ht)

theorem Rings.clrR (s : State) (t o m : Nat) (ht : t < 1024) (ho : o < 4096) : Rings s (s.clrR .bcnTgt t o m) :=
  ⟨rfl, RegsOff.setR _ _ _ _ _ ((inTarget_rkey_iff ht ho).2 rfl)⟩

theorem State.bcnSend_rings (s : State) (t : Nat) (ht : t < 1024) : Rings s (s.bcnSend t) := by
  unfold State.bcnSend
  extract_lets s1
  have h1 : Rings s s1 := State.bcnUnhold_rings s t ht
  split
  · exact h1.trans (Rings.count _ _ _ _ ht)
  · split
    · exact h1
    · exact ((h1.trans (State.msixSend_rings _ _ _)).trans (Rings.clrR _ _ _ _ ht (by omega))).trans (Rings.count _ _ _ _ ht)

theorem State.bcnAfter_rings (s : State) (t d0 : Nat) (ht : t < 1024) : Rings s (s.bcnAfter t d0) := by
  unfold State.bcnAfter
  extract_lets d
  split
  · exact State.bcnUnhold_rings s t ht
  · split
    · exact Rings.refl s
    · split
      · exact State.bcnSend_rings s t ht
      · split
        · exact State.bcnSend_rings s t ht
        · split
          · exact (State.bcnSend_rings s t ht).trans (Rings.count _ _ _ _ ht)
          · exact ⟨rfl, RegsOff.of_regs rfl⟩

theorem State.bcnCount_rings (s : State) (t n : Nat) (ht : t < 1024) : Rings s (s.bcnCount t n) := by
  unfold State.bcnCount
  split
  · exact Rings.refl s
  · split
    · extract_lets c lim
      split
      · exact State.bcnSend_rings s t ht
      · exact ⟨rfl, RegsOff.of_regs rfl⟩
    · exact Rings.refl s

theorem bitsOf_lt (w hi lo : Nat) : bitsOf w hi lo < 2 ^ (hi + 1 - lo) := Nat.mod_lt _ (by positivity)

theorem State.bcnTarget_lt (s : State) (n : Nat) : s.bcnTarget n < 32 := by
  unfold State.bcnTarget State.getF; exact bitsOf_lt _ 8 4

/-- Raising a source changes Beacon, the host's tables and Beacon target pages only. -/
theorem State.raise_rings (s : State) (n : Nat) : Rings s (s.raise n) := by
  unfold State.raise
  split
  · exact Rings.refl s
  · extract_lets t d0
    have ht : t < 1024 := Nat.lt_trans (s.bcnTarget_lt n) (by omega)
    exact (Rings.trans (t := { s with bcn := { s.bcn with pend := insSorted n s.bcn.pend } }) ⟨rfl, RegsOff.of_regs rfl⟩
      (State.bcnAfter_rings _ t d0 ht)).trans
      (State.bcnCount_rings _ t n ht)

theorem State.raise_reports (s : State) (n : Nat) : Reports s (s.raise n) := (s.raise_rings n).reports

/-! ## Error registers and records -/

theorem State.blkErr_reports (s : State) (k : PageKind) (p i : Nat) : Reports s (s.blkErr k p i) := by
  unfold State.blkErr; split <;> rfl

theorem State.setErr_reports (s : State) (k : PageKind) (i p o m : Nat) : Reports s (s.setErr k i p o m) :=
  Reports.trans (t := s.orR k i o m) rfl (State.blkErr_reports _ _ _ _)

theorem State.rsvdWr_reports (s : State) (k : PageKind) (p : Nat) : Reports s (s.rsvdWr k p) :=
  Reports.trans (t := s.orR k p 0x14 1) rfl (State.count_touch _ _ _ _ _).1

theorem State.dropRecord_reports (s : State) : Reports s s.dropRecord := rfl

theorem State.stageTo_reports (s : State) (q typ : Nat) (sh : Option ShadeIx) (b : List Nat) : Reports s (s.stageTo q typ sh b) := by
  unfold State.stageTo
  extract_lets len
  split <;> rfl

theorem State.shadeRecord_reports (s : State) (sh : ShadeIx) (typ : Nat) (b : List Nat) : Reports s (s.shadeRecord sh typ b) := by
  unfold State.shadeRecord
  extract_lets r
  split
  · exact State.stageTo_reports _ _ _ _ _
  · rfl

theorem State.deviceRecord_reports (s : State) (typ : Nat) (b : List Nat) : Reports s (s.deviceRecord typ b) := by
  unfold State.deviceRecord
  extract_lets q
  split
  · exact State.stageTo_reports _ _ _ _ _
  · rfl

/-- Recording a fault reports it and changes nothing else (R222). -/
theorem State.recordFault_reports (s : State) (sh : ShadeIx) (code : Nat) (c : FClass) (src : FSrc) :
    Reports s (s.recordFault sh code c src) := by
  unfold State.recordFault
  split
  · exact Reports.refl s
  · extract_lets i s1
    have h : Reports s s1 := by
      show Reports s (if _ then _ else _)
      split
      · exact (State.count_touch _ _ _ _ _).1
      · exact Reports.trans (Reports.setR _ _ _ _ _) (Reports.setR _ _ _ _ _)
    exact (h.trans (State.raise_reports _ _)).trans (State.shadeRecord_reports _ _ _ _)

end Sys2Proof.Machine
end

