-- ==== Sys2Proof/Laws/Issue.lean ====
section
/-! SUPPORT. What the issue of a bundle of one slot can do (R227 to R246): the cycle's event counters, and the slot's own effect. -/

namespace Sys2Proof.Machine

/-- t differs from s at most in the counter values of one page and in what cycle events remember. -/
def CountsOn (k : PageKind) (i : Nat) (s t : State) : Prop :=
  t = { s with regs := t.regs, inCond := t.inCond } ∧ RegsOff (isCounter k i) s t

theorem CountsOn.refl (k : PageKind) (i : Nat) (s : State) : CountsOn k i s s := ⟨rfl, RegsOff.refl _ s⟩

theorem CountsOn.trans {k : PageKind} {i : Nat} {s t u : State} (h1 : CountsOn k i s t) (h2 : CountsOn k i t u) : CountsOn k i s u := by
  refine ⟨?_, h1.2.trans h2.2⟩
  rw [h2.1, h1.1]

theorem CountsOn.countAs (s : State) (k : PageKind) (i ev q n e : Nat) : CountsOn k i s (s.countAs k i ev q n e) := by
  refine ⟨?_, (State.countAs_touch s k i ev q n e).2⟩
  rw [State.countAs_eq]

theorem CountsOn.count (s : State) (k : PageKind) (i ev n : Nat) : CountsOn k i s (s.count k i ev n) := CountsOn.countAs _ _ _ _ _ _ _

theorem CountsOn.countSpan (s : State) (k : PageKind) (i ev n : Nat) : CountsOn k i s (s.countSpan k i ev n) := CountsOn.countAs _ _ _ _ _ _ _

theorem CountsOn.cycleEv (s : State) (k : PageKind) (i ev : Nat) (on : Bool) : CountsOn k i s (s.cycleEv k i ev on) := by
  unfold State.cycleEv
  extract_lets key s'
  have h : CountsOn k i s s' := by
    show CountsOn k i s (if on then _ else s)
    split
    · exact CountsOn.countAs _ _ _ _ _ _ _
    · exact CountsOn.refl _ _ s
  exact h.trans ⟨rfl, RegsOff.of_regs rfl⟩

theorem CountsOn.shades {k : PageKind} {i : Nat} {s t : State} (h : CountsOn k i s t) : t.shades = s.shades := by rw [h.1]

theorem CountsOn.sh {k : PageKind} {i : Nat} {s t : State} (h : CountsOn k i s t) (x : ShadeIx) : t.sh x = s.sh x := State.sh_congr x h.shades

/-- A register that is no counter value reads the same. -/
theorem CountsOn.getR {k : PageKind} {i : Nat} {s t : State} (h : CountsOn k i s t) (hi : i < 1024) (k' : PageKind) (i' o : Nat)
    (hi' : i' < 1024) (ho : o < 4096) (hne : ¬ (k' = k ∧ i' = i ∧ 0x80 ≤ o ∧ o < 0xC0)) : t.getR k' i' o = s.getR k' i' o :=
  h.2.getR k' i' o fun hc => hne ((isCounter_rkey_iff hi hi' ho).1 hc)

theorem CountsOn.getR_other {k : PageKind} {i : Nat} {s t : State} (h : CountsOn k i s t) (hi : i < 1024) (k' : PageKind) (i' o : Nat)
    (hi' : i' < 1024) (ho : o < 4096) (hne : k' ≠ k) : t.getR k' i' o = s.getR k' i' o := h.getR hi k' i' o hi' ho fun e => hne e.1

theorem State.leadL_lt (s : State) (sh : ShadeIx) : s.leadL sh < 64 := by unfold State.leadL State.getF; exact bitsOf_lt _ 9 4

theorem State.l2p_lt (s : State) (n p : Nat) (h : s.l2p n = some p) : p < 64 := by
  unfold State.l2p at h
  simp only at h
  split at h
  · cases h; exact bitsOf_lt _ 5 0
  · exact absurd h (by simp)

theorem State.leadP_lt (s : State) (sh : ShadeIx) : s.leadP sh < 64 := by
  unfold State.leadP
  cases h : s.l2p (s.leadL sh) with
  | none => simp
  | some p => simpa using s.l2p_lt _ p h

theorem CountsOn.l2p {i : Nat} {s t : State} (h : CountsOn .lant i s t) (hi : i < 1024) (n : Nat) (hn : n < 64) : t.l2p n = s.l2p n := by
  unfold State.l2p
  rw [h.getR_other hi .device 0 _ (by omega) (by omega) (by decide)]

theorem CountsOn.leadL {i : Nat} {s t : State} (h : CountsOn .lant i s t) (hi : i < 1024) (sh : ShadeIx) : t.leadL sh = s.leadL sh := by
  unfold State.leadL State.getF
  rw [h.getR_other hi .shcfg _ _ (by omega) (by omega) (by decide)]

theorem CountsOn.leadP {i : Nat} {s t : State} (h : CountsOn .lant i s t) (hi : i < 1024) (sh : ShadeIx) : t.leadP sh = s.leadP sh := by
  unfold State.leadP
  rw [h.leadL hi, h.l2p hi _ (s.leadL_lt sh)]

theorem State.issueHeld_counts (s : State) (sh : ShadeIx) (ev : Nat) : CountsOn .lant (s.leadP sh) s (s.issueHeld sh ev) := by
  unfold State.issueHeld
  suffices h : ∀ (l : List Nat) (u : State), CountsOn .lant (s.leadP sh) s u →
      CountsOn .lant (s.leadP sh) s (l.foldl (fun s e => s.cycleEv .lant (s.leadP sh) e (e == ev)) u) from h _ s (CountsOn.refl _ _ s)
  intro l
  induction l with
  | nil => intro u h; exact h
  | cons e l ih =>
    intro u h
    refine ih _ (h.trans ?_)
    show CountsOn .lant (s.leadP sh) u (u.cycleEv .lant (u.leadP sh) e (e == ev))
    rw [h.leadP (Nat.lt_trans (s.leadP_lt sh) (by omega))]
    exact CountsOn.cycleEv _ _ _ _ _

/-! ## The issue of a bundle -/

theorem State.modSh_id (s : State) (sh : ShadeIx) (f : ShadeSt → ShadeSt) (h : f (s.sh sh) = s.sh sh) : s.modSh sh f = s := by
  unfold State.modSh
  have : f s.shades[sh.val] = s.shades[sh.val] := h
  rw [this]
  simp

theorem State.modSh_modSh (s : State) (sh : ShadeIx) (f g : ShadeSt → ShadeSt) : (s.modSh sh f).modSh sh g = s.modSh sh fun x => g (f x) := by
  simp [State.modSh]

theorem State.gen_congr {s t : State} (sh : ShadeIx) (h : ∀ o, o < 4096 → t.getR .speckle (shInst sh) o = s.getR .speckle (shInst sh) o) :
    t.gen sh = s.gen sh := by
  unfold State.gen State.bitR
  rw [h _ (by omega)]

theorem shInst_lt (sh : ShadeIx) : shInst sh < 1024 := by unfold shInst; omega

theorem CountsOn.tagDrawn {i : Nat} {s t : State} (h : CountsOn .lant i s t) (hi : i < 1024) (sh : ShadeIx) :
    t.tagDrawn sh = s.tagDrawn sh := by
  unfold State.tagDrawn State.getF State.getR64
  rw [h.getR_other hi .agqm 0 _ (by omega) (by omega) (by decide), h.getR_other hi .speckle _ _ (shInst_lt sh) (by omega) (by decide),
    h.getR_other hi .speckle _ _ (shInst_lt sh) (by omega) (by decide), h.sh,
    State.gen_congr sh fun o ho => h.getR_other hi .speckle _ o (shInst_lt sh) ho (by decide)]

theorem CountsOn.modSh {k : PageKind} {i : Nat} {s t : State} (h : CountsOn k i s t) (sh : ShadeIx) (f : ShadeSt → ShadeSt) :
    CountsOn k i (s.modSh sh f) (t.modSh sh f) := by
  refine ⟨?_, h.2⟩
  have h1 := h.1
  unfold State.modSh
  rw [h1]

/-- What follows the effects of slots: control flow that acts later, a SEED, a stop, an injected compare. -/
def State.issueTail (z : State) (sh : ShadeIx) (old : Lantern) (o : Option CtlOp) : State :=
  let z := z.ctlGo sh old.pc.toNat o
  let z := z.seedNow sh
  let z := if old.stopReq then z.halt sh else z
  z.lockstep sh old.pc.toNat

theorem CountsOn.mkQ {i : Nat} {s t : State} (h : CountsOn .lant i s t) (hi : i < 1024) (sh : ShadeIx) (id : Nat) (x : Slot) :
    t.mkQ sh id x = s.mkQ sh id x := by
  have hs := shInst_lt sh
  have g : ∀ k o, o < 4096 → k ≠ .lant → t.getR k (shInst sh) o = s.getR k (shInst sh) o := fun k o ho hne =>
    h.getR_other hi k _ o hs ho hne
  unfold State.mkQ State.getR64 State.getF State.bitR
  rw [h.sh, g .speckle _ (by omega) (by decide), g .speckle _ (by omega) (by decide), g .safe _ (by omega) (by decide),
    g .safe _ (by omega) (by decide), State.gen_congr sh fun o ho => g .speckle o ho (by decide)]

theorem CountsOn.captured {i : Nat} {s t : State} (h : CountsOn .lant i s t) (hi : i < 1024) (sh : ShadeIx) (as : List Slot) :
    t.captured sh as = s.captured sh as := by
  unfold State.captured
  rw [h.sh]
  exact List.map_congr_left fun x _ => h.mkQ hi sh _ _

/-- The units' part of what a bundle captures. -/
def State.capturedUnits (s : State) (sh : ShadeIx) (as : List Slot) : List QOp :=
  (s.captured sh as).filter fun q => (unitKeys q.slot q.op) != []

/-- A bundle that has passed its conditions issues: its unit operations enter their queues, the Lantern and the descriptor file take
its results, the cycle is counted, and loads, stores and what slot 0 leaves follow. -/
theorem State.issueGo_eq (s : State) (sh : ShadeIx) (as : List Slot) (ht : s.tagDrawn sh = false) :
    ∃ z, CountsOn .lant (s.leadP sh)
        (s.modSh sh fun y => { (as.foldl (dwrResults (s.sh sh).lan) { y with
          queue := y.queue ++ s.capturedUnits sh as, nextId := y.nextId + (s.captured sh as).length }) with
          lan := issuedLantern s sh as }) z
      ∧ s.issueGo sh as = ((s.captured sh as).foldl (fun z q => z.directGo sh q) z).issueTail sh (s.sh sh).lan (ctlOf as) := by
  unfold State.issueGo
  extract_lets old qs l units z1 z2 z3 z4 z5 z6 z7 z8
  have e2 : z2 = z1 := by
    show z1.tagIssue sh _ _ = z1
    have : z1.tagDrawn sh = false := by
      unfold State.tagDrawn
      have hl : (z1.sh sh).lan = (s.sh sh).lan := by simp [z1]
      rw [hl]
      exact ht
    unfold State.tagIssue
    simp [this]
  refine ⟨z4, ?_, rfl⟩
  have e3 : z3 = s.modSh sh fun y => { (as.foldl (dwrResults (s.sh sh).lan) { y with
      queue := y.queue ++ s.capturedUnits sh as, nextId := y.nextId + (s.captured sh as).length }) with
      lan := issuedLantern s sh as } := by
    show z2.modSh sh _ = _
    rw [e2]
    exact State.modSh_modSh _ _ _ _
  have hp : z3.leadP sh = s.leadP sh := by rw [e3]; rfl
  have h1 : CountsOn .lant (s.leadP sh) z3 (z3.countLant sh 1 1) := by
    unfold State.countLant; rw [hp]; exact CountsOn.count _ _ _ _ _
  have h2 : CountsOn .lant (s.leadP sh) (z3.countLant sh 1 1) z4 := by
    show CountsOn _ _ _ ((z3.countLant sh 1 1).countSpan .lant (z3.leadP sh) 8 _)
    rw [hp]; exact CountsOn.countSpan _ _ _ _ _
  rw [← e3]
  exact h1.trans h2

theorem firstStart_none (f : QOp → Bool) : ∀ (l before : List QOp), (∀ q ∈ l, f q = false) → firstStart f before l = none
  | [], _, _ => rfl
  | q :: l, before, h => by
    unfold firstStart
    simp [h q (by simp), firstStart_none f l _ fun x hx => h x (by simp [hx])]

/-- No SEED starts with a bundle when none waits. -/
theorem State.seedNow_none (s : State) (sh : ShadeIx) (h : ((s.sh sh).queue.all fun q => !q.isSeed) = true) : s.seedNow sh = s := by
  unfold State.seedNow State.startKind
  split
  · rfl
  · rw [firstStart_none]
    intro q hq
    simpa using List.all_eq_true.1 h q hq

theorem State.lockstep_none (s : State) (sh : ShadeIx) (pc : Nat) (h : s.bitR .lant (s.leadP sh) 0x20 3 = false) : s.lockstep sh pc = s := by
  unfold State.lockstep; simp [h]

theorem State.issuesFree_iff (s : State) (sh : ShadeIx) (psel : BitVec 4) : s.issuesFree sh psel = true ↔
    (s.sh sh).issues = true ∧ (s.sh sh).lan.pred psel = true ∧ (s.sh sh).lan.yielding = none ∧ (s.sh sh).lan.stopReq = false
    ∧ ((s.sh sh).queue.all fun q => !q.isSeed) = true ∧ s.bitR .lant (s.leadP sh) 0x20 3 = false ∧ s.tagDrawn sh = false := by
  unfold State.issuesFree
  simp only [Bool.and_eq_true, Bool.not_eq_true', Option.isNone_iff_eq_none]
  tauto

/-- A slot 0 operation that only directs the next issue, or none. -/
def plainCtl : Option CtlOp → Bool
  | some (.phase _) => false
  | some (.yield _) => false
  | some (.halt _) => false
  | _ => true

theorem dwrResults_queue (l : Lantern) (y : ShadeSt) (x : Slot) : (dwrResults l y x).queue = y.queue := by
  unfold dwrResults
  split
  · rename_i ga d _
    unfold ShadeSt.dwr
    have : ∀ (ts : List Nat) (z : ShadeSt), (ts.foldl (dwrOne (dwrLd d).1 (dwrLd d).2 (l.greg ga) d) z).queue = z.queue := by
      intro ts
      induction ts with
      | nil => intro z; rfl
      | cons t ts ih => intro z; rw [List.foldl_cons, ih]; rfl
    exact this _ _
  · rfl

theorem dwrResults_foldl_queue (l : Lantern) : ∀ (as : List Slot) (y : ShadeSt), (as.foldl (dwrResults l) y).queue = y.queue
  | [], _ => rfl
  | x :: as, y => by rw [List.foldl_cons, dwrResults_foldl_queue, dwrResults_queue]

/-- A bundle that is ready and passes its checks is issued. -/
theorem State.issue_go (s : State) (sh : ShadeIx) (ds : List (Nat × SlotDec)) (as : List Slot) (hi : (s.sh sh).issues = true)
    (hd : decodedSlots ds = as) (ha : actingSlots (s.sh sh).lan as = as) (hw : (s.sh sh).issueWaits as as = none)
    (hc : s.bundleFirst sh as ds = none) : s.issue sh ds = (s.issueHeld sh 0).issueGo sh as := by
  unfold State.issue
  simp only [hi, Bool.not_true, Bool.false_eq_true, if_false, hd, ha, hw, hc]

/-- The whole of what a ready bundle does, before its loads, stores and late control. -/
theorem State.issue_eq (s : State) (sh : ShadeIx) (ds : List (Nat × SlotDec)) (as : List Slot) (hi : (s.sh sh).issues = true)
    (ht : s.tagDrawn sh = false) (hd : decodedSlots ds = as) (ha : actingSlots (s.sh sh).lan as = as)
    (hw : (s.sh sh).issueWaits as as = none) (hc : s.bundleFirst sh as ds = none) :
    ∃ h z, CountsOn .lant (s.leadP sh) s h ∧ CountsOn .lant (s.leadP sh)
        (s.modSh sh fun y => { (as.foldl (dwrResults (s.sh sh).lan) { y with
          queue := y.queue ++ s.capturedUnits sh as, nextId := y.nextId + (s.captured sh as).length }) with
          lan := issuedLantern h sh as }) z
      ∧ s.issue sh ds = ((s.captured sh as).foldl (fun z q => z.directGo sh q) z).issueTail sh (s.sh sh).lan (ctlOf as) := by
  have hlt : s.leadP sh < 1024 := Nat.lt_trans (s.leadP_lt sh) (by omega)
  have hcnt := s.issueHeld_counts sh 0
  obtain ⟨z, hz1, hz2⟩ := (s.issueHeld sh 0).issueGo_eq sh as (by rw [hcnt.tagDrawn hlt sh]; exact ht)
  rw [hcnt.leadP hlt sh, hcnt.sh] at hz1
  rw [hcnt.sh, hcnt.captured hlt] at hz2
  have hu : (s.issueHeld sh 0).capturedUnits sh as = s.capturedUnits sh as := by
    unfold State.capturedUnits; rw [hcnt.captured hlt]
  rw [hu, hcnt.captured hlt] at hz1
  refine ⟨s.issueHeld sh 0, z, hcnt, (hcnt.modSh sh _).trans hz1, ?_⟩
  rw [s.issue_go sh ds as hi hd ha hw hc, hz2]

/-- After a bundle that leaves nothing to slot 0, when no SEED waits, no stop is asked for and no compare is injected, nothing follows. -/
theorem State.issueTail_plain (z : State) (sh : ShadeIx) (old : Lantern) (o : Option CtlOp) (ho : plainCtl o = true)
    (hq : ((z.sh sh).queue.all fun q => !q.isSeed) = true) (hs : old.stopReq = false)
    (hb : z.bitR .lant (z.leadP sh) 0x20 3 = false) : z.issueTail sh old o = z := by
  have hct : z.ctlGo sh old.pc.toNat o = z := by
    unfold State.ctlGo
    split <;> simp_all [plainCtl]
  unfold State.issueTail
  simp only [hct, State.seedNow_none z sh hq, hs]
  exact State.lockstep_none z sh _ hb

/-! ## Light bundles: nothing in a queue, no token, no load or store -/

/-- A slot whose operation outlasts nothing, names no token and has no asynchronous register. -/
def Slot_light (x : Slot) : Prop := slotOutlasts x = false ∧ unitKeys x.ix x.op = [] ∧ x.op.tok = none ∧ x.op.gAsync = []

theorem captured_light (s : State) (sh : ShadeIx) (as : List Slot) (hl : ∀ x ∈ as, Slot_light x) : s.captured sh as = [] := by
  unfold State.captured
  have : as.filter slotOutlasts = [] := List.filter_eq_nil_iff.2 fun x hx => by simp [(hl x hx).1]
  rw [this]; rfl

theorem issueWaits_light (x : ShadeSt) (as : List Slot) (hl : ∀ y ∈ as, Slot_light y) (hy : x.lan.yielding = none)
    (hw : waitDone x.lan as = true) : x.issueWaits as as = none := by
  have h1 : queuesHaveRoom x.queue as = true := by
    unfold queuesHaveRoom
    have : (as.flatMap fun s => unitKeys s.ix s.op) = [] := List.flatMap_eq_nil_iff.2 fun y hy => (hl y hy).2.1
    simp [this]
  have h2 : tokensRoom x.lan as as = true := by
    unfold tokensRoom tokensFree
    rw [Bool.and_eq_true]
    constructor
    · exact List.all_eq_true.2 fun y hy => by simp [(hl y hy).2.2.1]
    · exact List.all_eq_true.2 fun y hy => by simp [(hl y hy).2.2.1]
  simp [ShadeSt.issueWaits, hw, h1, h2, hy]

/-- A ready bundle of light slots issues. -/
theorem State.issue_light (s : State) (sh : ShadeIx) (ds : List (Nat × SlotDec)) (as : List Slot) (psel : BitVec 4)
    (hf : s.issuesFree sh psel = true) (hd : decodedSlots ds = as) (ha : actingSlots (s.sh sh).lan as = as)
    (hl : ∀ x ∈ as, Slot_light x) (hwt : waitDone (s.sh sh).lan as = true) (hc : s.bundleFirst sh as ds = none) :
    ∃ h z, CountsOn .lant (s.leadP sh) s h ∧ CountsOn .lant (s.leadP sh)
        (s.modSh sh fun y => { (as.foldl (dwrResults (s.sh sh).lan) y) with lan := issuedLantern h sh as }) z
      ∧ s.issue sh ds = z.issueTail sh (s.sh sh).lan (ctlOf as) := by
  obtain ⟨h1, h2, h3, h4, h5, h6, h7⟩ := (s.issuesFree_iff sh psel).1 hf
  obtain ⟨h, z, hh, hz, he⟩ := s.issue_eq sh ds as h1 h7 hd ha (issueWaits_light _ as hl h3 hwt) hc
  have hcap := captured_light s sh as hl
  refine ⟨h, z, hh, ?_, ?_⟩
  · simpa [State.capturedUnits, hcap] using hz
  · rw [he, hcap]; rfl

/-- The same where slot 0 leaves nothing to do after the bundle. -/
theorem State.issue_plain (s : State) (sh : ShadeIx) (ds : List (Nat × SlotDec)) (as : List Slot) (psel : BitVec 4)
    (hf : s.issuesFree sh psel = true) (hd : decodedSlots ds = as) (ha : actingSlots (s.sh sh).lan as = as)
    (hl : ∀ x ∈ as, Slot_light x) (hwt : waitDone (s.sh sh).lan as = true) (hc : s.bundleFirst sh as ds = none)
    (hp : plainCtl (ctlOf as) = true) :
    ∃ h, CountsOn .lant (s.leadP sh) s h ∧ CountsOn .lant (s.leadP sh)
        (s.modSh sh fun y => { (as.foldl (dwrResults (s.sh sh).lan) y) with lan := issuedLantern h sh as }) (s.issue sh ds) := by
  obtain ⟨h, z, hh, hz, he⟩ := s.issue_light sh ds as psel hf hd ha hl hwt hc
  obtain ⟨h1, h2, h3, h4, h5, h6, h7⟩ := (s.issuesFree_iff sh psel).1 hf
  have hlt : s.leadP sh < 1024 := Nat.lt_trans (s.leadP_lt sh) (by omega)
  have hsh : z.sh sh = { (as.foldl (dwrResults (s.sh sh).lan) (s.sh sh)) with lan := issuedLantern h sh as } := by
    rw [hz.sh]; simp
  have hbit : z.bitR .lant (z.leadP sh) 0x20 3 = false := by
    rw [hz.leadP hlt]
    unfold State.bitR
    rw [hz.getR hlt .lant _ _ (Nat.lt_trans (State.leadP_lt _ _) (by omega)) (by omega) (by omega)]
    exact h6
  refine ⟨h, hh, ?_⟩
  rw [he, z.issueTail_plain sh _ _ hp (by rw [hsh]; simpa [dwrResults_foldl_queue] using h5) h4 hbit]
  exact hz

/-- A bundle of one slot passes its checks. -/
theorem bundleFirst_one (s : State) (sh : ShadeIx) (ix : Nat) (psel : BitVec 4) (o : SlotOp) (hr : o.rsvd = false)
    (hb : bundleBad (s.sh sh).lan.pendG (s.sh sh).lan.rep.isSome [⟨ix, psel, o⟩] ⟨ix, psel, o⟩ = false)
    (hc : s.opCheck sh (s.mkQ sh 0 ⟨ix, psel, o⟩) = none) : s.bundleFirst sh [⟨ix, psel, o⟩] [oneSlot ix psel o] = none := by
  simp [State.bundleFirst, oneSlot, hr, hb, hc]

theorem decodedSlots_one (ix : Nat) (psel : BitVec 4) (o : SlotOp) (hr : o.rsvd = false) :
    decodedSlots [oneSlot ix psel o] = [⟨ix, psel, o⟩] := by simp [decodedSlots, oneSlot, hr]

theorem actingSlots_one (l : Lantern) (ix : Nat) (psel : BitVec 4) (o : SlotOp) (hp : l.pred psel = true) (ho : o ≠ .hold) :
    actingSlots l [⟨ix, psel, o⟩] = [⟨ix, psel, o⟩] := by simp [actingSlots, acts, hp, ho]

/-- A ready bundle of one light slot. -/
theorem State.issueOne_plain (s : State) (sh : ShadeIx) (ix : Nat) (psel : BitVec 4) (o : SlotOp) (hf : s.issuesFree sh psel = true)
    (ho : o ≠ .hold) (hr : o.rsvd = false) (hl : Slot_light ⟨ix, psel, o⟩) (hwt : waitDone (s.sh sh).lan [⟨ix, psel, o⟩] = true)
    (hb : bundleBad (s.sh sh).lan.pendG (s.sh sh).lan.rep.isSome [⟨ix, psel, o⟩] ⟨ix, psel, o⟩ = false)
    (hc : s.opCheck sh (s.mkQ sh 0 ⟨ix, psel, o⟩) = none) (hp : plainCtl (ctlOf [⟨ix, psel, o⟩]) = true) :
    ∃ h, CountsOn .lant (s.leadP sh) s h ∧
      CountsOn .lant (s.leadP sh) (s.modSh sh fun y => { dwrResults (s.sh sh).lan y ⟨ix, psel, o⟩ with lan := issuedLantern h sh [⟨ix, psel, o⟩] })
        (s.issueOne sh ix psel o) := by
  obtain ⟨h1, h2, h3, h4, h5, h6, h7⟩ := (s.issuesFree_iff sh psel).1 hf
  exact s.issue_plain sh [oneSlot ix psel o] [⟨ix, psel, o⟩] psel hf (decodedSlots_one ix psel o hr)
    (actingSlots_one _ ix psel o h2 ho) (by simpa using hl) hwt (bundleFirst_one s sh ix psel o hr hb hc) hp

/-! ## Scalar results -/

theorem CountsOn.becomes {s t : State} {sh : ShadeIx} {x : ShadeSt} (h : CountsOn .lant (s.leadP sh) (s.modSh sh fun _ => x) t) :
    s.shadeBecomes sh x t := by
  refine ⟨h.1, ?_⟩
  intro k i o hi ho hne
  exact h.getR (Nat.lt_trans (s.leadP_lt sh) (by omega)) k i o hi ho hne

theorem CountsOn.gResult {i : Nat} {s t : State} (h : CountsOn .lant i s t) (hi : i < 1024) (sh : ShadeIx) (e : Option (BitVec 32)) (o : ScalarOp) :
    t.gResult sh e o = s.gResult sh e o := by
  have hr : ∀ sel, t.rdsVal sh sel = s.rdsVal sh sel := by
    intro sel
    have g : ∀ k i' o, i' < 1024 → o < 4096 → k ≠ .lant → t.getR k i' o = s.getR k i' o := fun k i' o hi' ho hne =>
      h.getR_other hi k i' o hi' ho hne
    have hs := shInst_lt sh
    have hlo : t.logicalOf sh = s.logicalOf sh := by
      unfold State.logicalOf
      refine List.filter_congr fun n hn => ?_
      have hn := List.mem_range.1 hn
      rw [h.l2p hi n (by omega)]
      have : ∀ p, t.ownerP p = s.ownerP p := fun p => State.ownerP_congr p (by rw [h.1])
      simp [this]
    unfold State.rdsVal State.getR64 State.getF
    rw [g .safe _ _ hs (by omega) (by decide), g .safe _ _ hs (by omega) (by decide), g .safe _ _ hs (by omega) (by decide),
      g .safe _ _ hs (by omega) (by decide), g .speckle _ _ hs (by omega) (by decide), g .speckle _ _ hs (by omega) (by decide), h.leadL hi, hlo, h.sh]
    have : t.tb = s.tb := by rw [h.1]
    rw [this]
  unfold State.gResult
  rw [h.sh]
  cases o <;> simp [hr]

theorem issued_scalar {s h : State} {sh : ShadeIx} {psel : BitVec 4} {o : ScalarOp} {gd : GReg} {v : W64}
    (hh : CountsOn .lant (s.leadP sh) s h) (hg : s.gResult sh none o = some (gd, v)) (hp : s.pResult sh none o = none)
    (ht : (SlotOp.scalar o).tok = none) (ha : (SlotOp.scalar o).gAsync = []) :
    issuedLantern h sh [⟨1, psel, .scalar o⟩] = (s.sh sh).lan.issued ((s.sh sh).lan.setG gd v) none := by
  have hg' : h.gResult sh none o = some (gd, v) := by
    rw [hh.gResult (Nat.lt_trans (s.leadP_lt sh) (by omega)), hg]
  have hp' : h.pResult sh none o = none := by
    cases o <;> simp_all [State.pResult]
  unfold issuedLantern Lantern.issued
  rw [hh.sh]
  simp [scalarResults, extOf, hg', hp', ht, ha, Lantern.tokUp, Lantern.mkPend, ctlOf]

theorem scalar_one {s : State} {sh : ShadeIx} {psel : BitVec 4} {o : ScalarOp} {gd : GReg} {v : W64}
    (hf : s.issuesFree sh psel = true) (hpend : (s.sh sh).lan.pendG.getLsbD gd.toNat = false)
    (hr : (SlotOp.scalar o).rsvd = false) (hw : (SlotOp.scalar o).gWrites = [gd.toNat]) (hpw : (SlotOp.scalar o).pWrites = [])
    (hg : s.gResult sh none o = some (gd, v)) (hp : s.pResult sh none o = none)
    (ht : (SlotOp.scalar o).tok = none) (ha : (SlotOp.scalar o).gAsync = [])
    (hl : slotOutlasts ⟨1, psel, .scalar o⟩ = false) (hd : ∀ l y, dwrResults l y ⟨1, psel, .scalar o⟩ = y)
    (hc : s.scalarCheck sh o = none) :
    s.shadeBecomes sh { s.sh sh with lan := (s.sh sh).lan.issued ((s.sh sh).lan.setG gd v) none } (s.issueOne sh 1 psel (.scalar o)) := by
  obtain ⟨h, hh, hz⟩ := s.issueOne_plain sh 1 psel (.scalar o) hf (by simp) hr ⟨hl, rfl, ht, ha⟩ (by simp [waitDone, ctlOf])
    (by simp [bundleBad, hw, hpw, hpend]) hc rfl
  rw [issued_scalar hh hg hp ht ha] at hz
  simp only [hd] at hz
  apply CountsOn.becomes
  have : (s.modSh sh fun y => { y with lan := (s.sh sh).lan.issued ((s.sh sh).lan.setG gd v) none }) =
      (s.modSh sh fun _ => { s.sh sh with lan := (s.sh sh).lan.issued ((s.sh sh).lan.setG gd v) none }) := rfl
  rw [← this]
  exact hz

/-- A ready light slot that writes no descriptor: the shade's Lantern becomes the issued one. -/
theorem plain_one {s : State} {sh : ShadeIx} {ix : Nat} {psel : BitVec 4} {o : SlotOp} {l : Lantern} (hf : s.issuesFree sh psel = true)
    (ho : o ≠ .hold) (hr : o.rsvd = false) (hl : Slot_light ⟨ix, psel, o⟩) (hwt : waitDone (s.sh sh).lan [⟨ix, psel, o⟩] = true)
    (hb : bundleBad (s.sh sh).lan.pendG (s.sh sh).lan.rep.isSome [⟨ix, psel, o⟩] ⟨ix, psel, o⟩ = false)
    (hc : s.opCheck sh (s.mkQ sh 0 ⟨ix, psel, o⟩) = none) (hp : plainCtl (ctlOf [⟨ix, psel, o⟩]) = true)
    (hd : ∀ y, dwrResults (s.sh sh).lan y ⟨ix, psel, o⟩ = y)
    (hi : ∀ h, CountsOn .lant (s.leadP sh) s h → issuedLantern h sh [⟨ix, psel, o⟩] = l) :
    s.shadeBecomes sh { s.sh sh with lan := l } (s.issueOne sh ix psel o) := by
  obtain ⟨h, hh, hz⟩ := s.issueOne_plain sh ix psel o hf ho hr hl hwt hb hc hp
  rw [hi h hh] at hz
  simp only [hd] at hz
  exact CountsOn.becomes hz

theorem Lantern.setP_eq (l : Lantern) (p : BitVec 4) (v : Bool) (h : p ≠ 0) :
    l.setP p v = { l with p := if v then l.p ||| BitVec.ofNat 16 (2 ^ p.toNat) else l.p &&& ~~~ BitVec.ofNat 16 (2 ^ p.toNat) } := by
  unfold Lantern.setP
  rw [if_neg h]

/-- A scalar slot that writes a predicate issues. -/
theorem predicate_one {s : State} {sh : ShadeIx} {psel : BitVec 4} {o : ScalarOp} {pd : BitVec 4} {v : Bool}
    (hf : s.issuesFree sh psel = true) (hr : (SlotOp.scalar o).rsvd = false) (hw : (SlotOp.scalar o).gWrites = [])
    (hg : ∀ t : State, t.gResult sh none o = none)
    (hp : ∀ t : State, t.sh sh = s.sh sh → t.pResult sh none o = some (pd, v)) (ht : (SlotOp.scalar o).tok = none)
    (ha : (SlotOp.scalar o).gAsync = []) (hl : slotOutlasts ⟨1, psel, .scalar o⟩ = false)
    (hd : ∀ l y, dwrResults l y ⟨1, psel, .scalar o⟩ = y) (hc : s.scalarCheck sh o = none) :
    s.shadeBecomes sh { s.sh sh with lan := (s.sh sh).lan.issued ((s.sh sh).lan.setP pd v) none } (s.issueOne sh 1 psel (.scalar o)) := by
  refine plain_one hf (by simp) hr ⟨hl, rfl, ht, ha⟩ (by simp [waitDone, ctlOf]) (by simp [bundleBad, hw]) hc rfl
    (fun y => hd _ y) ?_
  intro h hh
  unfold issuedLantern Lantern.issued
  rw [hh.sh]
  simp [scalarResults, extOf, hg, hp h (hh.sh sh), ht, ha, Lantern.tokUp, Lantern.mkPend, ctlOf]

theorem State.prismsOf_length (s : State) (sh : ShadeIx) : (s.prismsOf sh).length = (s.logicalOf sh).length := by
  unfold State.prismsOf
  have : ∀ l : List Nat, (∀ n ∈ l, (s.l2p n).isSome = true) → (l.filterMap s.l2p).length = l.length := by
    intro l
    induction l with
    | nil => intro _; rfl
    | cons n l ih =>
      intro h
      obtain ⟨p, hp⟩ := Option.isSome_iff_exists.1 (h n (by simp))
      simp [hp, ih fun m hm => h m (by simp [hm])]
  apply this
  intro n hn
  unfold State.logicalOf at hn
  have := (List.mem_filter.1 hn).2
  cases hp : s.l2p n with
  | none => simp [hp] at this
  | some p => rfl

end Sys2Proof.Machine
end

