-- ==== Sys2Proof/Tests/Slice0.lean ====
section
/-! SUPPORT. The model's own tests: states that meet the hypotheses of the statements, slot words written out from the spec's tables, and
ill-formed commands. -/

namespace Sys2Proof.Tests

open Sys2Proof.Machine

set_option Elab.async false

/-! ## States -/

/-- Booted: out of reset, the link in L0, BOOT_STATUS shows READY and stage 6. -/
def booted : State :=
  { State.reset with power := ⟨false, false, false, false, false, false, false, false⟩, pcie := ⟨true, 32, 16⟩ }.setR .boot 0 0x100 13

/-- Shade 0 is enabled and runs, on physical prism 0 with logical number 0. -/
def live : State :=
  (((booted.setR .device 0 0x200 64).setOwnerP 0 0).setR .shcfg 0 0x100 1).modSh 0 fun x =>
    { x with life := 1, lan := { x.lan with halted := false } }

def onSh (s : State) (f : ShadeSt → ShadeSt) : State := s.modSh 0 f
def onLan (s : State) (f : Lantern → Lantern) : State := s.modSh 0 fun x => { x with lan := f x.lan }
def withG (s : State) (l : List (Nat × Nat)) : State :=
  onLan s fun a => l.foldl (fun a v => a.setG (BitVec.ofNat 6 v.1) (BitVec.ofNat 64 v.2)) a
/-- An operation as it stands in a queue. -/
def opQ (s : State) (id slot : Nat) (o : SlotOp) : QOp := ⟨id, slot, 5, o, (s.sh 0).lan.g, (s.sh 0).desc, (s.sh 0).masks, 0, false, 0, false⟩
/-- Descriptor words of shade 0. -/
def withDesc (s : State) (k : Nat) (ws : List Nat) : State :=
  onSh s fun x => { x with desc := x.desc.setList descDefault k (ws.map (BitVec.ofNat 64)) }
def queued (s : State) (q : QOp) : State := onSh s fun x => { x with queue := x.queue ++ [q], nextId := q.id + 1 }
def running (s : State) (q : QOp) (d : Bool) (r : List (Nat × W64)) : State :=
  onSh s fun x => { x with running := x.running ++ [⟨q, d, r⟩], nextId := q.id + 1 }
/-- Shade 0's virtual addresses are physical ones: 16 GiB leaves from a root at 0x10000. -/
def mapped (s : State) : State :=
  (((s.setR .mem 0 0x400 0xFFFFFF00).setR .mem 0 0x100 0x10001).wrN 0x10000 (leBytes 8 0x11001)).wrN 0x11000 (leBytes 8 7)

/-- What `State.startsAs` says, as a test, with a property of the state in which the operation runs. -/
def starts (s : State) (sh : ShadeIx) (kind : QOp → Bool) (q : QOp) (P : State → Bool) : Bool :=
  (s.sh sh).unitsRun && decide (firstStart kind [] (s.sh sh).queue = some q) && !s.retrainWaits q &&
    match s.capture sh q with
    | .go a => (match a.unitReady sh q with
      | .go b => P ((b.take sh q).tagStart sh q.id)
      | _ => false)
    | _ => false

theorem starts_of {s : State} {sh : ShadeIx} {kind : QOp → Bool} {q : QOp} {P : State → Bool} (h : starts s sh kind q P = true) :
    ∃ u, s.startsAs sh kind q u ∧ P u = true := by
  simp only [starts, Bool.and_eq_true, decide_eq_true_eq, Bool.not_eq_true'] at h
  obtain ⟨⟨⟨h1, h2⟩, h3⟩, h4⟩ := h
  cases hc : s.capture sh q with
  | go a =>
    cases hu : a.unitReady sh q <;> simp only [hc, hu] at h4
    · cases h4
    · cases h4
    · exact ⟨_, ⟨h1, h2, h3, a, _, hc, hu, rfl⟩, h4⟩
  | wait _ => simp only [hc] at h4; cases h4
  | fault _ _ => simp only [hc] at h4; cases h4

/-- What `State.takesIn` says but for the state after, as a test. -/
def arrives (s : State) (i : PortIx) (m : Msg) : Bool :=
  s.portUp i.val && s.idValid && (decide (m.head.dst.toNat = s.devId) || Body.neighbour m.body) && !s.stale m

theorem arrives_of {s : State} {i : PortIx} {m : Msg} (h : arrives s i m = true) :
    s.takesIn i m (s.rxFlits i (1 + bodyFlits m.head.len.toNat)) := by
  simp only [arrives, Bool.and_eq_true, Bool.or_eq_true, decide_eq_true_eq, Bool.not_eq_true'] at h
  exact ⟨h.1.1.1, h.1.1.2, h.1.2, h.2, rfl⟩

/-- What `State.accepts` says, as a test. -/
def taken (s : State) (path : Path) (k : PageKind) (i o : Nat) : Bool :=
  s.pathUp path k && s.reaches path ⟨k, i⟩ && s.answers path k && !s.pageResets ⟨k, i⟩ && mayWrite path k o

theorem taken_of {s : State} {path : Path} {k : PageKind} {i o : Nat} (h : taken s path k i o = true) : s.accepts path k i o := by
  simp only [taken, Bool.and_eq_true, Bool.not_eq_true'] at h
  exact ⟨h.1.1.1.1, h.1.1.1.2, h.1.1.2, h.1.2, h.2⟩

/-! ## The Lantern -/

/-- ScalarResults, ScalarReads, PredicateResults: a running shade, the destination not pending. -/
theorem test_scalar_hyps : live.issuesFree 0 0 = true ∧ (live.sh 0).lan.pendG.getLsbD 63 = false
    ∧ (DescRef.ld 31 15 0x80).rsvd false = false ∧ (DescRef.td 255 15).rsvd false = false := by decide +kernel

def looped (left : Nat) : Lantern := { (live.sh 0).lan with loops := (live.sh 0).lan.loops.set 2 ⟨true, 3, 16383, left, 1⟩ }
/-- LoopTest: a loop that ends at the last address, with iterations left and on its last one; and no loop that ends at 5. -/
theorem test_loop_hyps : (looped 2).loops[2].active = true ∧ (looped 2).loops[2].endAddr = 16383 ∧ 1 < (looped 2).loops[2].remaining
    ∧ (looped 1).loops[2].remaining ≤ 1 ∧ (∀ j : Fin 4, j ≠ 2 → ¬ ((looped 2).loops[j.val].active = true))
    ∧ ∀ i : Fin 4, ¬ ((looped 2).loops[i.val].active = true ∧ (looped 2).loops[i.val].endAddr = 5) := by decide +kernel

def waits : State := onLan (withG live [(2, 2 ^ 32 - 1), (3, 1)]) fun l => { l with tok := l.tok.set 0 1 }
/-- ControlFlow: the clauses of BR, LOOP (a count, and none), REPEAT (a count, and none), a WAIT that is satisfied, one that is not. -/
theorem test_control_hyps : waits.issuesFree 0 0 = true ∧ (waits.sh 0).lan.rep = none
    ∧ (let l := (waits.sh 0).lan
      l.brTarget (.abs 0x3FFF) ≤ 16383 ∧ l.pc.toNat < (BitVec.ofNat 14 1).toNat ∧ 0 < l.countOf (.reg 2) ∧ l.countOf (.reg 2) < 2 ^ 32
      ∧ l.countOf (.reg 1) = 0 ∧ l.greg 1 = 0 ∧ l.tok[1] = 0 ∧ l.tok[0] ≠ 0 ∧ (l.greg 3).getLsbD 0 = true) := by decide +kernel

/-- YieldPhaseHalt, DescriptorWrite: the same state, every copy of an LD word, an empty log and one with room for one more. -/
theorem test_yield_dwr_hyps : live.issuesFree 0 0 = true ∧ (live.sh 0).lan.rep = none ∧ (DescRef.ld 31 0 0xFF).rsvd true = false
    ∧ (live.sh 0).dwrLog.length < 256 ∧ (List.replicate 255 (⟨[], []⟩ : DwrLog)).length < 256 := by decide +kernel

/-- The last aligned 8 B of the window: 0xFA00 units of 128 B at reset. -/
def poolTop : Nat := (live.poolWin 0).2 - 8
def loads : State := withG live [(1, poolTop)]
def ldpQ : QOp := opQ loads 4 1 (.scalar (.ldp 2 1 (some 3)))
def loading : State := running loads ldpQ false [(2, 99)]
/-- PoolLoad, PoolStore: the last word of the window, a token, no guard range; and a load that is under way. -/
theorem test_pool_hyps : loads.issuesFree 0 0 = true ∧ (loads.sh 0).lan.pendG.getLsbD 2 = false ∧ poolTop % 8 = 0
    ∧ ((loads.sh 0).lan.greg 1).toNat + 8 ≤ (loads.poolWin (loads.leadP 0)).2 ∧ ((loads.sh 0).lan.tok[3]).toNat < 63
    ∧ loads.eccAt (poolKey 0 poolTop) ≠ 2 ∧ (loads.sh 0).tag = none
    ∧ (∀ i n : Fin 8, loads.guardHit 0 9 (poolTop + i.val) n.val = true → loads.bitR .replay 0 (0x200 + 16 * n.val) 5 = false)
    ∧ (loading.sh 0).running = [] ++ ⟨ldpQ, false, [(2, 99)]⟩ :: [] := by decide +kernel

/-- At bundle 5 of frame 3, which is valid. -/
def atFrame : State := onLan live fun l => { l with pc := 256 * 3 + 5, frames := l.frames.set 3 ⟨true, 0, false⟩ }
/-- BundleFetch: a valid frame, one that loads, one that is neither; a halted Lantern; one operation in slot 1, alone, and no word uncorrectable. -/
theorem test_fetch_hyps : (atFrame.sh 0).issues = true ∧ (atFrame.sh 0).lan.frames[3].valid = true
    ∧ (∀ i : Fin 16, atFrame.eccAt (storeKey 0 (773 * 128 + 8 * i.val)) ≠ 2) ∧ (∀ i : Fin 16, atFrame.rdNat (storeKey 0 (773 * 128 + 8 * i.val)) 8 = 0)
    ∧ atFrame.issuesFree 0 0 = true ∧ ((booted.sh 0).issues = false)
    ∧ (let s := atFrame.wrN (storeKey 0 (773 * 128 + 8)) (leBytes 8 (0x01 * 2 ^ 56 + 2 * 2 ^ 44 + 77))
      (∀ i : Fin 16, i ≠ 1 → s.rdNat (storeKey 0 (773 * 128 + 8 * i.val)) 8 = 0)
      ∧ decodeSlot 1 (s.rdNat (storeKey 0 (773 * 128 + 8)) 8) = .ok 0 (.scalar (.movi 2 77)))
    ∧ (live.sh 0).issues = true ∧ (live.sh 0).lan.frames[0].valid = false ∧ (live.sh 0).lan.frames[0].loading = false
    ∧ (let s := onLan live fun l => { l with frames := l.frames.set 0 ⟨false, 0, true⟩ }
      (s.sh 0).issues = true ∧ (s.sh 0).lan.frames[0].valid = false ∧ (s.sh 0).lan.frames[0].loading = true) := by decide +kernel

/-- SlotRoundTrip: every operand of an operation at its greatest value. -/
theorem test_slotword_hyps : (SlotOp.beam (.copy 15 255 255 63 (some 63))).fits 11 = true ∧ (SlotOp.beam (.copy 15 255 255 63 (some 63))).rsvd = false
    ∧ (SlotOp.ext 2 0xFFFFFFFF).fits 15 = true ∧ (SlotOp.ext 2 0xFFFFFFFF).rsvd = false ∧ (SlotOp.ctl (.phase 5)).rsvd = false := by decide +kernel

/-- UnitIssue: a MARK, and a SMALLRED whose eight registers end at g63. -/
theorem test_issue_hyps : unitSlot (.mark 0 (.issue 0 7)) = some (0, 0, 14, .tel (.mark 7)) ∧ (SlotOp.tel (.mark 7)).rsvd = false
    ∧ live.opCheck 0 (live.mkQ 0 0 ⟨14, 0, .tel (.mark 7)⟩) = none ∧ (∀ k ∈ unitKeys 14 (.tel (.mark 7)), queueUse (live.sh 0).queue k < queueDepth k)
    ∧ (SlotOp.jorx (.smallred 56 7 .maxF32 (some 0))).rsvd = false
    ∧ (∀ g ∈ (SlotOp.jorx (.smallred 56 7 .maxF32 (some 0))).gAsync, (live.sh 0).lan.pendG.getLsbD g = false) := by decide +kernel

def loadsFrame : State := mapped (running (onLan live fun l => { l with frames := l.frames.set 63 ⟨false, 0, true⟩ }) (opQ live 4 0 (.ctl (.bpl 63 1 none))) false [])
def hostLoads : State := ((onLan live fun l => { l with halted := true }).setR .lant (shInst 0) 0x134 63).setR .lant (shInst 0) 0x12C 0x1000
/-- FrameLoad: a BPL, a load by the host, and one whose 32 KiB arrive. -/
theorem test_frame_hyps : live.issuesFree 0 0 = true ∧ (live.sh 0).lan.rep = none ∧ ((live.sh 0).lan.greg 1).toNat % 128 = 0
    ∧ (hostLoads.sh 0).life = 1 ∧ (hostLoads.sh 0).lan.halted = true ∧ hostLoads.getF .lant (shInst 0) 0x134 5 0 = 63
    ∧ hostLoads.bitR .lant (shInst 0) 0x134 6 = false ∧ hostLoads.getR64 .lant (shInst 0) 0x12C % 128 = 0
    ∧ loadsFrame.loadNext 0 = some (63, some (opQ live 4 0 (.ctl (.bpl 63 1 none)))) ∧ loadsFrame.retraining false = false ∧ (loadsFrame.sh 0).tag = none := by
  decide +kernel

/-- Below 1 GiB the frame's source is mapped where it stands. -/
theorem loadsFrame_walk (a : Nat) (h : a < 2 ^ 30) : loadsFrame.walk 0 a false = .ok a := by
  have h3 : vaIndex a 3 = 0 := by simp only [vaIndex, bitsOf]; omega
  have h2 : vaIndex a 2 = 0 := by simp only [vaIndex, bitsOf]; omega
  have r3 : loadsFrame.rdNat 0x10000 8 = 0x11001 := by decide +kernel
  have r2 : loadsFrame.rdNat 0x11000 8 = 7 := by decide +kernel
  have e3 : loadsFrame.eccAt 0x10000 = 0 := by decide +kernel
  have e2 : loadsFrame.eccAt 0x11000 = 0 := by decide +kernel
  have t4 : loadsFrame.tableCheck 0 0x10000 3 = none := by decide +kernel
  have t3 : loadsFrame.tableCheck 0 0x11000 3 = none := by decide +kernel
  have o : loadsFrame.leafOwned 0 0 = true := by decide +kernel
  have l : loadsFrame.getR .mem 0 0x100 = 0x10001 := by decide +kernel
  have g : loadsFrame.getF .mem 0 0x104 15 0 = 0 := by decide +kernel
  have w2 : loadsFrame.walkFrom 0 a false 2 0x11000 = .ok a := by
    rw [State.walkFrom]
    simp only [h2, Nat.mul_zero, Nat.add_zero, r2, e2]
    simp [bitsOf, bitOf, o, pageSize]
    omega
  have w3 : loadsFrame.walkFrom 0 a false 3 0x10000 = .ok a := by
    rw [State.walkFrom]
    simp only [h3, Nat.mul_zero, Nat.add_zero, r3, e3]
    simp [bitsOf, bitOf, tableAlign, t3, w2]
  simp only [State.walk]
  show (let lo := loadsFrame.getR .mem 0 0x100; _) = _
  simp [l, g, bitsOf, bitOf, t4, w3]

theorem loadsFrame_reads (n a : Nat) (h : a + n ≤ 2 ^ 30) (c : Ctx) (hc : c.sh = 0) : ∃ bs, loadsFrame.rdSN c 0xA a n = .ok bs := by
  induction n generalizing a with
  | zero => exact ⟨[], rfl⟩
  | succ n ih =>
    obtain ⟨bs, hb⟩ := ih (a + 1) (by omega)
    have ht : loadsFrame.tierOf a = .hbm := by simp only [State.tierOf]; rw [if_pos (by simp only [hbmTop]; omega)]
    have hk : loadsFrame.physKey a = a := by exact if_neg (fun x => absurd x.1 (by simp only [hostBase]; omega))
    have he : loadsFrame.eccAt a = 0 := rfl
    have h1 : ¬ 281474976710656 ≤ a := by omega
    have hr : loadsFrame.rdS c 0xA a = .ok (loadsFrame.rd a) := by
      simp [State.rdS, State.resolve, hc, h1, loadsFrame_walk a (by omega), ht, hk, he, spaceTier]
    exact ⟨_ :: bs, by simp only [State.rdSN, hr, hb]; rfl⟩

/-- FrameLoad: the 32 KiB of the source can be read. -/
theorem test_frame_source : ∃ bs, loadsFrame.frameBytes 0 (loadsFrame.sh 0).lan.frames[63].src = .ok bs :=
  loadsFrame_reads 32768 0 (by decide) _ rfl

/-- An operation that waits for its release with a result, behind one that runs. -/
def results : List Running := [⟨opQ live 4 9 (.beam (.copy 0 1 2 3 none)), false, []⟩, ⟨opQ live 5 14 (.tel (.glint 1 9 false (some 3))), true, [(9, 1234)]⟩]
/-- Tokens: nothing complete; the second of two operations complete. -/
theorem test_tokens_hyps : (∀ r ∈ (live.sh 0).running, r.done = false) ∧ results = results.take 1 ++ results[1] :: [] ∧ (∀ b ∈ results.take 1, b.done = false)
    ∧ results[1].done = true ∧ (∀ b ∈ results.take 1 ++ [], b.q.id ≠ results[1].q.id) ∧ (results[1].results.map Prod.fst).Nodup
    ∧ (∀ v ∈ results[1].results, v.1 < 64) := by decide +kernel

def timesOut : State := { (onLan live fun l => { l with waitSince := some 10 }).setR .lant (shInst 0) 0x118 2 with tb := 2011 }
/-- Tokens: the time-out, and the nanosecond before it. -/
theorem test_timeout_hyps : (timesOut.sh 0).issues = true ∧ (timesOut.sh 0).lan.waitSince = some 10 ∧ timesOut.getF .lant (shInst 0) 0x118 23 0 = 2
    ∧ 10 + 2 * 1000 < timesOut.tb.toNat ∧ ¬ 10 + 2 * 1000 < (2010 : W64).toNat ∧ timesOut.bitR .lant (shInst 0) 0x10C 15 = false := by decide +kernel

def stopped : State := onLan live fun l => { l with halted := true }
/-- StartStop: a halted shade without a fault or a lost prism; a running one; a bundle after which a STOP takes effect. -/
theorem test_start_hyps : (stopped.sh 0).life = 1 ∧ (stopped.sh 0).rep.rolling = none ∧ (stopped.sh 0).lan.halted = true
    ∧ stopped.bitR .lant (shInst 0) 0x10C 15 = false ∧ (∀ p : Fin 52, ¬ (stopped.ownerP p.val = 0 ∧ stopped.prismState p.val = 2))
    ∧ (live.sh 0).lan.halted = false ∧ (stopped.sh 0).rep.record = none ∧ (stopped.sh 0).rep.epoch = 0 ∧ (stopped.sh 0).lan.bundles = 0
    ∧ live.issuesFree 0 0 = true := by decide +kernel

def anyPass : Pass := Pass.open false (readNest (live.sh 0).desc 0 0) ⟨opQ live 4 3 (.array .mm ⟨1, 0, 0, none⟩), 0, 0, 0⟩
def anyJob : Job := ⟨opQ live 4 3 (.array .mm ⟨1, 0, 0, none⟩), 0, 0, 0⟩
def yields (e : Bool) : State := onLan live fun l => { l with yielding := some e }
def yieldsOpen : State := (yields false).modTile 0 0 fun t => t.modProb 0 fun x => { x with opened := some anyPass }
/-- YieldPoint, StepBoundary, YieldLimits: a yield that is due, with and without STEP_END; one that an operation holds up, one that a pass does; the
limit reached and not. -/
theorem test_yield_hyps : (∀ e, ((yields e).sh 0).lan.yielding = some e ∧ ((yields e).sh 0).issues = true ∧ ((yields e).sh 0).drained = true
      ∧ (yields e).arrayHeld 0 = false) ∧ (yields true).bitR .lant (shInst 0) 0x10C 15 = false
    ∧ -8 ≤ sextN 6 ((yields true).getF .safe (shInst 0) 0x10C 5 0) ∧ sextN 6 ((yields true).getF .safe (shInst 0) 0x10C 5 0) ≤ 24
    ∧ (let s := queued (yields false) (opQ live 4 14 (.tel (.mark 1))); (s.sh 0).issues = true ∧ (s.sh 0).drained = false ∧ s.combineStuck 0 = false)
    ∧ (yieldsOpen.sh 0).issues = true ∧ (yieldsOpen.sh 0).drained = true ∧ yieldsOpen.arrayHeld 0 = true
    ∧ (live.sh 0).life = 1 ∧ (live.sh 0).lan.halted = false ∧ (live.sh 0).lan.yielding = none
    ∧ live.tb.toNat < (live.sh 0).lan.yieldAt + live.getF .replay 0 0x108 13 0 * 1000
    ∧ (let s := { live with tb := BitVec.ofNat 64 (live.getF .replay 0 0x108 13 0 * 1000) }
      (s.sh 0).lan.yieldAt + s.getF .replay 0 0x108 13 0 * 1000 ≤ s.tb.toNat) := by decide +kernel

/-- YieldPoint: a mask object with a commit pending, and a PREEMPT. -/
def yieldsPre : State := onSh (yields true) fun x => { x with
  masks := x.masks.set maskDefault 63 { MaskSt.reset with pend := true, built := true }, rep := { x.rep with preemptReq := true } }
theorem test_yield_masks : ((yieldsPre.sh 0).masks.get maskDefault 63).pend = true ∧ ((yieldsPre.sh 0).masks.get maskDefault 0).pend = false
    ∧ (yieldsPre.sh 0).issues = true ∧ (yieldsPre.sh 0).drained = true ∧ (yieldsPre.sh 0).rep.preemptReq = true ∧ yieldsPre.arrayHeld 0 = false := by
  decide +kernel

/-- A record as one of this moment. -/
def recorded (s : State) : State := onSh s fun x => { x with rep := { x.rep with slot0 := some (s.makeRecord 0), newest := false } }
def rolls (trigger : Nat) : State := onSh (recorded live) fun x => { x with rep := { x.rep with rolling := some ⟨trigger, 0⟩ } }
/-- ShadeStops, StepBoundary: a running shade with and without a record, a halted one, one that rolls back, one that is reset. -/
theorem test_stops_hyps : (live.sh 0).life = 1 ∧ (live.sh 0).lan.halted = false ∧ (live.sh 0).rep.rolling = none ∧ (live.sh 0).rep.record = none
    ∧ (live.sh 0).tag = none ∧ ((recorded live).sh 0).rep.record ≠ none ∧ ((recorded live).sh 0).rep.rolling = none
    ∧ ((recorded stopped).sh 0).lan.halted = true ∧ ((recorded stopped).sh 0).rep.record ≠ none ∧ ((rolls 0).sh 0).rep.rolling ≠ none := by decide +kernel

/-- RollbackRestore: a rollback after a fault and one by FORCE. -/
theorem test_rollback_hyps : ∀ r : Fin 3, let s := rolls r.val
    (s.sh 0).rep.rolling = some ⟨r.val, 0⟩ ∧ (s.sh 0).rep.record = some (live.makeRecord 0) ∧ framesToLoad (s.sh 0).lan (live.makeRecord 0).lan = []
    ∧ (s.sh 0).rep.forceReq = false ∧ (s.sh 0).life = 1 ∧ (live.makeRecord 0).regs.map Prod.fst = recordKeys 0
    ∧ (∀ c ∈ (live.makeRecord 0).layers, maintainedWord c.1 = true) := by decide +kernel

/-- OrderedMode: both modes. -/
theorem test_ordered_hyps : live.bitR .replay 0 0x100 0 = false ∧ (live.setR .replay 0 0x100 1).bitR .replay 0 0x100 0 = true := by decide +kernel

/-- StepBoundary: the scrub of a reset; a write of SAFE_STEP of a halted and of a running shade. -/
theorem test_safestep_hyps : ((onSh live fun x => { x with life := 2 }).sh 0).life = 2 ∧ live.subHolds 0 = false
    ∧ live.pathPage .pf 4116 = some ⟨.safe, 0⟩ ∧ live.leads 0 = some 0
    ∧ taken live .pf .safe 0 0x120 = true ∧ taken stopped .pf .safe 0 0x124 = true := by decide +kernel

/-! ## The array -/

/-- Descriptors from the tables of R253 and R258: A (2 × 8) and B (8 × 2) of BF16, C (2 × 2) of FP32 in tile scratch, a nest at LD 0 and its pass
entry at LD 1 of tile 0. `pcw` is word 1 of the nest. -/
def arr (pcw : Nat) : State :=
  withDesc (withDesc (withDesc (withDesc (withDesc live 16 [0x281, 0, 0, 0, 0, 0, 2 + 8 * 2 ^ 32, 0, 0, 256, 1]) 32
    [0x281, 4096, 0, 0, 0, 0, 8 + 2 * 2 ^ 32, 0, 0, 256, 1]) 48 [0x280, 12288, 0, 0, 0, 0, 2 + 2 * 2 ^ 32, 0, 0, 128, 1]) 8192
    [2 ^ 1 + 2 ^ 4 + 2 ^ 11 + 2 ^ 34 + 2 * 2 ^ 42, pcw]) (8192 + 16) [1 + 3 * 2 ^ 8]
def mmPcw : Nat := 0x220 + 8 * 2 ^ 32
def arrQ (s : State) (o : ArrayOpc) : QOp := opQ s 4 3 (.array o ⟨1, 0, 0, none⟩)
def mmS : State := queued (arr mmPcw) (arrQ (arr mmPcw) .mm)
/-- Mask object n of shade 0 is bound, in its first epoch. -/
def withMask (s : State) (n : Nat) : State := onSh s fun x => { x with masks := x.masks.set maskDefault n { MaskSt.reset with epoch := 1, built := true } }
/-- An MMS: A (64 × 8), B (8 × 64), C (64 × 64) of one BSG block of edge 64 under mask object 0, over mapped HBM. -/
def mmsS0 : State :=
  withDesc (withDesc (withDesc (withDesc (withDesc (withDesc (withMask (mapped live) 0) 16 [0x281, 0, 0, 0, 0, 0, 64 + 8 * 2 ^ 32, 0, 0, 256, 1]) 32
    [0x281, 4096, 0, 0, 0, 0, 8 + 64 * 2 ^ 32, 0, 0, 256, 1]) 48 [0x281 + 2 ^ 11 + 3 * 2 ^ 32, 12288, 0, 0, 0x30000, 0x31000, 64 + 64 * 2 ^ 32, 0, 0, 128, 1]) 8192
    [2 ^ 1 + 2 ^ 4 + 2 ^ 11 + 2 ^ 34 + 2 * 2 ^ 42, mmPcw]) (8192 + 16) [1 + 3 * 2 ^ 8, 0x21]) 4096 [7 + 2 ^ 8 + 2 ^ 32, 0x20000, 0x21000, 0x22000, 1]
def mmsS : State := queued mmsS0 (arrQ mmsS0 .mms)

/-- The state after a command that answers one. -/
def after (i : Instr) (s : State) : State := match exec i s with
  | .next t => t
  | _ => s
/-- PassOpens: MM and DIST open a pass. -/
theorem test_mm_hyps : (∃ u, mmS.startsAs 0 (arrayKind .mm) (arrQ (arr mmPcw) .mm) u ∧ decide ((u.prismsOf 0).Nodup ∧ u.prismsOf 0 ≠ []) = true)
    ∧ ∃ u, (queued (arr (mmPcw + 4)) (arrQ (arr (mmPcw + 4)) .dist)).startsAs 0 (arrayKind .dist) (arrQ (arr (mmPcw + 4)) .dist) u
      ∧ decide ((u.prismsOf 0).Nodup ∧ u.prismsOf 0 ≠ []) = true :=
  ⟨starts_of (by decide +kernel), starts_of (by decide +kernel)⟩

/-- Its one k-block has been multiplied, and a STORE, or a second MM with KEEP, waits. -/
def multiplied : State := after (.kblockStart 0 0) (after (.mm 0 .queued) mmS)
def storeQ : QOp := { arrQ multiplied .store with id := 5 }
def keepQ : QOp := let s := withDesc multiplied (8192 + 1) [mmPcw + 2 ^ 14]
  { arrQ s .mm with id := 5 }
def closed : State := after (.store 0 .queued) (queued multiplied storeQ)
def zeroQ : QOp := { arrQ closed .zero with id := 6 }
/-- PassOpens with KEEP, PassCloses: STORE, and ZERO of an operation that no pass holds. -/
theorem test_store_hyps : (∃ u, (queued multiplied keepQ).startsAs 0 (arrayKind .mm) keepQ u ∧ (readNest keepQ.desc 0 0).pcw.keep = true)
    ∧ (∃ u, (queued multiplied storeQ).startsAs 0 (arrayKind .store) storeQ u ∧ decide ((u.prismsOf 0).Nodup ∧ u.prismsOf 0 ≠ []) = true)
    ∧ ∃ u, (queued closed zeroQ).startsAs 0 (arrayKind .zero) zeroQ u ∧ (!u.arrayHolds 0 6) = true :=
  ⟨starts_of (by decide +kernel), starts_of (by decide +kernel), starts_of (by decide +kernel)⟩

/-- MmsPasses. -/
theorem test_mms_hyps : (∃ u, mmsS.startsAs 0 (arrayKind .mms) (arrQ mmsS0 .mms) u ∧ decide ((u.prismsOf 0).Nodup) = true)
    ∧ (readNest (arrQ mmsS0 .mms).desc 0 0).pcw.keep = false := ⟨starts_of (by decide +kernel), by decide +kernel⟩

/-- Two runs of the k walk: NLEV and KLEV 2, bounds 4 and 2. -/
def twoRuns : State := withDesc (arr mmPcw) 8192 [2 * 2 ^ 1 + 2 * 2 ^ 4 + 2 ^ 11 + 1 * 2 ^ 19 + 2 ^ 34 + 2 * 2 ^ 42, 0x220 + 4 * 2 ^ 32 + 2 * 2 ^ 56]
def opened : State := after (.mm 0 .queued) (queued twoRuns (arrQ twoRuns .mm))
/-- KblockStart: nothing to multiply, and a k-block that is read whole, without skip or gating. -/
theorem test_kblock_hyps : live.shadeOfPrism 0 = some 0 ∧ (∀ k : Fin 4, (live.problem 0 0 k.val).nextPass = none)
    ∧ opened.shadeOfPrism 0 = some 0 ∧ ((opened.tile 0 0).granted + 1 + 0) % 4 = 0
    ∧ (match (opened.problem 0 0 0).nextPass with
      | some (_, ps) => (match ps.jobs with
        | j :: _ => (match jobUnit 0 j with
          | some w => (match opened.readUnit ⟨0, 0, 0, j.q.g⟩ ps j w with
            | .ok y => y.issued || decide (skipEdge j.q.desc (j.q.nest 0) = 0)
            | _ => false) && (jobUnit 0 (jobNext 0 j)).isSome
          | none => false)
        | [] => false)
      | none => false) = true ∧ opened.bitR .tile 0 0x20 2 = false := by decide +kernel

/-- DrainPort: the bank at the port, closed by a STORE with and without COMBINE, and while it drains. -/
def portReady (s : State) (comb : Nat) (draining : Bool) : Bool :=
  match (s.tile 0 0).drainHead with
  | some (k, i, ps) => (match ps.store with
    | some j => (match outRect j.q 0 j.q.ld j.cursor (s.tile 0 0).pack with
      | some r => ps.gather.isNone && decide ((j.q.passEnt 0).comb = comb) && decide (ps.draining = draining) && decide (k < 4)
          && (s.problem 0 0 k).mms.isNone && (comb != 0 || draining ||
            let marked := s.modTile 0 0 fun ti => ti.modProb k fun x => { x with closed := x.closed.set i { ps with draining := true } }
            (marked.storeTail ⟨0, 0, 0, j.q.g⟩ ⟨j.q, j.q.passEnt 0, r, ps.acc, ps.opmode, ps.k0, ps.k1, k⟩).err.isNone)
      | none => false)
    | none => false)
  | none => false
def combQ (comb : Nat) : QOp := let s := withDesc multiplied (8192 + 16) [1 + comb * 2 ^ 6 + 3 * 2 ^ 8 + 3 * 2 ^ 48]
  { arrQ s .store with id := 5 }
theorem test_drain_hyps : closed.shadeOfPrism 0 = some 0 ∧ portReady closed 0 false = true ∧ portReady (after (.drain 0 0) closed) 0 true = true
    ∧ portReady (after (.store 0 .queued) (queued multiplied (combQ 1))) 1 false = true := by decide +kernel

/-- A partial of tile t for a combine of tiles 0 and 1. -/
def part (comb t : Nat) : Partial := ⟨0, t, ⟨opQ (withDesc (withDesc (withDesc (withDesc live (8192 + 16) [1 + comb * 2 ^ 6 + 3 * 2 ^ 8 + 3 * 2 ^ 48])
  (8192 + 16 * 33) [1 + comb * 2 ^ 6 + 3 * 2 ^ 8 + 3 * 2 ^ 48]) 8192 [2 ^ 11]) (8192 + 16 * 32) [2 ^ 11]) (4 + t) 3 (.array .store ⟨1, 0, 0, none⟩), 0, 0, 0⟩,
  0, FMap.empty, 0, 8⟩
def combs (l : List CombineSlot) (ps pps : List Partial) : State := onSh live fun x => { x with partials := ps, combines := l, prismPartials := pps }
def slotAt (tdc : Nat) : CombineSlot := ⟨0, tdc, 0, 3, 0, 0, FMap.empty, FMap.empty, [], [], 0, 8, none, []⟩
/-- CombineTree: the first tile's partial, the last one's of a PRISM combine, one that finds the four slots of its prism taken; and a prism
partial at the root while prism 1 has not delivered. -/
theorem test_combine_hyps :
    (∀ c : Fin 2, let w := part (1 + c.val) c.val
      let s := combs (if c = 1 then [{ slotAt 3 with gotTiles := [0] }] else []) [w] []
      (s.sh 0).partials[0]? = some w ∧ (s.sh 0).slotRoom 0 (w.job.q.passEnt w.tile).tdc (w.job.origin w.tile) = true ∧ s.ordered 0 = false
      ∧ (let k := ((s.sh 0).slotOf 0 (w.job.q.passEnt w.tile).tdc (w.job.origin w.tile)).getD (openSlot 0 (w.job.q.passEnt w.tile) (w.job.origin w.tile) w)
        k.ctiles = (w.job.q.passEnt w.tile).ctiles ∧ k.croot = (w.job.q.passEnt w.tile).croot ∧ k.opmode = w.opmode
        ∧ ({ k with gotTiles := k.gotTiles ++ [w.tile] } : CombineSlot).tilesDone = decide (c = 1)) ∧ (w.job.q.passEnt w.tile).comb = 1 + c.val)
    ∧ ((combs [slotAt 4, slotAt 5, slotAt 6, slotAt 7] [part 1 0] []).sh 0).slotRoom 0 3 0 = false
    ∧ (let s := ((combs [] [] [part 2 0]).setR .device 0 0x204 65).setOwnerP 1 0
      (s.sh 0).prismPartials[0]? = some (part 2 0) ∧ ((part 2 0).job.q.passEnt 0).tdc = 3 ∧ (part 2 0).job.origin 0 = 0
      ∧ (s.sh 0).slotRoom (s.rootPrism 0 0) 3 0 = true ∧ s.ordered 0 = false ∧ 1 ∈ s.prismsOf 0) := by decide +kernel

/-! ## Masks and the tensor units -/

/-- Mask object 63 of 1 × 2 blocks of 64, bound, over mapped HBM; block 0 present. Its planes lie at 0x20000, its layouts at 0x21000. -/
def masked (k : Nat) : State := (withDesc (withMask (mapped (withG live [(1, k * 2 ^ 8)])) 63) (4096 + 8 * 63)
  [7 + 2 ^ 8 + 2 * 2 ^ 32, 0x20000, 0x21000, 0x22000, 2]).wrN 0x20000 [1]
def maskQ (s : State) (o : MaskOp) : QOp := opQ s 4 8 (.mask o)
def maskTest (s : State) (n : Nat) (o : MaskOp) (run : State → QOp → Res) : Bool :=
  starts (queued s (maskQ s o)) 0 (opKind 8 n) (maskQ s o) fun u => (run u (maskQ s o)).err.isNone && (u.sh 0).tag.isNone
/-- MaskEdits: PRUNE and GROW with K = 0 and K = 1, and MIRROR.BUILD. -/
theorem test_edit_hyps : (∀ k : Fin 2, maskTest (masked k.val) 2 (.prune 63 1 none) (fun u q => u.pruneRun 0 q 63 1) = true
      ∧ maskTest (masked k.val) 3 (.grow 63 1 none) (fun u q => u.growRun 0 q 63 1) = true)
    ∧ maskTest (masked 0) 5 (.mirrorBuild 63 none 1) (fun u q => u.mirrorRun 0 q 63 1) = true := by decide +kernel

def commitMask : State := onSh (masked 0) fun x => { x with masks := x.masks.set maskDefault 63 { (x.masks.get maskDefault 63) with built := true } }
def copyDue : State := onSh (masked 0) fun x => { x with masks := x.masks.set maskDefault 63 { (x.masks.get maskDefault 63) with copy := true } }
/-- MaskEpochs: MCOMMIT of a built epoch and of one that is pending, SILH, and the plane copy, due and not. -/
theorem test_epoch_hyps : maskTest commitMask 4 (.mcommit 63) (fun u _ => ⟨u, none⟩) = true
    ∧ ((commitMask.sh 0).masks.get maskDefault 63).built = true
    ∧ maskTest (masked 0) 6 (.silh 63 1 1 0) (fun u _ => ⟨u, none⟩) = true
    ∧ (∀ n : Fin 8, ((masked 0).problem 0 n.val 0).arm = none) ∧ ((masked 0).sh 0).masks.get maskDefault 62 = maskDefault 62
    ∧ ((copyDue.sh 0).masks.get maskDefault 63).copy = true ∧ ((copyDue.sh 0).masks.get maskDefault 63).retired = false ∧ copyDue.enabled 0 = true
    ∧ (copyDue.planeCopy 0 63).err.isNone = true := by decide +kernel

/-- SelectionOrder: the order of the numbers, on three scores of which two are equal. -/
theorem test_selection_hyps : (∀ x y : Val, (fun (_ _ : Val) => false) x y = true → (fun (_ _ : Val) => false) y x = false)
    ∧ [(0, Val.one), (3, Val.zero), (7, Val.one)].Pairwise (fun a b => a.1 < b.1) := ⟨fun _ _ h => (Bool.noConfusion h), by decide⟩

/-- Three vectors of eight FP32 elements in the pool, TD 1 to 3. -/
def vecs : State := withDesc (withDesc (withDesc (mapped live) 16 [0x190, 0x100, 0, 0, 0, 0, 8, 0, 0, 1]) 32 [0x190, 0x200, 0, 0, 0, 0, 8, 0, 0, 1]) 48
  [0x190, 0x300, 0, 0, 0, 0, 8, 0, 0, 1]
def runTest (s : State) (slot : Nat) (kind : QOp → Bool) (o : SlotOp) (run : State → QOp → Res) : Bool :=
  let q := opQ s 4 slot o
  q.transfer.isNone && starts (queued s q) 0 kind q fun u => (run u q).err.isNone && (u.sh 0).tag.isNone

/-- HBM and the first GiB of the deep tier are mapped, at 0 and 2^30; the commit area lies at 2^30, region 0 has one unit of data at 2^30 + 2^16. -/
def train : State := (((((((((vecs.setR .mem 0 0x600 0xFFFFFF00).setR .mem 0 0x280 1).wrN 0x11008 (leBytes 8 (0x080000000000 + 7))).setR .tstate 0 0x100 (2 ^ 30)).setR
  .tstate 0 0x200 1).setR .tstate 0 0x204 1).setR .tstate 0 0x208 0x4001).setR .tstate 0 0x20C 0x4002).setR .tstate 0 0x210 0x4003).setR .tstate 0 0x214 0x4004
/-- TD 4 is the commit area, TD 5 a source of 64 words, TD 6 lies in region 0. -/
def commits : State := withDesc (withDesc (withDesc train 64 [0x1B0, 2 ^ 30, 0, 0, 0, 0, 64, 0, 0, 1]) 80 [0x190, 0x400, 0, 0, 0, 0, 64, 0, 0, 1]) 96
  [0x1B0, 2 ^ 30 + 2 ^ 16, 0, 0, 0, 0, 64, 0, 0, 1]
def skipped (q : QOp) : QOp := { q with skip := true }
def commitQ : QOp := opQ commits 4 9 (.beam (.copy 0 5 4 1 none))
def regionQ : QOp := opQ commits 4 9 (.beam (.copy 0 5 6 1 none))
def zeroRegionQ : QOp := opQ commits 4 9 (.beam (.scrub 0 6 1 none))

/-- TensorUnits: each operation starts and meets no fault. -/
theorem test_units_hyps :
    runTest vecs 13 (opKind 13 4) (.spk (.umbra none)) (fun u q => u.umbraRun 0 q) = true ∧ (vecs.sh 0).saf.umbra = []
    ∧ runTest vecs 8 (opKind 8 1) (.mask (.scomp 1 none 1 1 2)) (fun u q => u.scompRun 0 q 1 1 2 1) = true
    ∧ runTest vecs 5 (lensKind false .chain) (.lens .chain ⟨1, 0, none⟩) (fun u q => u.lensRun 0 q false 1 0) = true
    ∧ runTest vecs 6 (lensKind true .update) (.lens .update ⟨1, 1, none⟩) (fun u q => u.lensRun 0 q true 1 1) = true
    ∧ (∀ o ∈ [FocusOpc.argmax, .argmin, .topk, .sum, .norm2],
      runTest vecs 7 (focusKind o) (.focus o ⟨1, 2, 3, 1, none⟩) (fun u q => u.focusRun 0 q o ⟨1, 2, 3, 1, none⟩) = true)
    ∧ runTest vecs 13 (opKind 13 3) (.spk (.draw 1 1 none)) (fun u q => u.drawRun 0 q 1 1) = true
    ∧ (∀ m : Fin 3, let s := withG vecs [(1, m.val)]
      runTest s 9 (s.copyKind 0 m.val false) (.beam (.copy 0 1 2 1 none)) (fun u q => u.copyRun 0 q 0 1 2 1) = true)
    ∧ runTest vecs 9 scrubKind (.beam (.scrub 15 1 1 none)) (fun u q => u.scrubRun 0 q 15 1 1) = true := by decide +kernel

/-- TensorUnits under SKIP. -/
theorem test_skip_hyps :
    (let q := skipped (opQ vecs 4 5 (.lens .update ⟨1, 1, none⟩));
      starts (queued vecs q) 0 (lensKind false .update) q (fun u => (u.sh 0).tag.isNone) && q.transfer.isNone) = true
    ∧ starts (queued commits (skipped regionQ)) 0 (commits.copyKind 0 0 false) (skipped regionQ)
      (fun u => u.isRegionWrite 0 regionQ && !u.isCommit 0 regionQ && (u.sh 0).tag.isNone) = true
    ∧ starts (queued commits (skipped zeroRegionQ)) 0 scrubKind (skipped zeroRegionQ) (fun u => u.isRegionWrite 0 zeroRegionQ) = true := by
  decide +kernel

def commitGood (s : State) : Bool :=
  starts (queued s commitQ) 0 (s.copyKind 0 0 true) commitQ fun u => u.isCommit 0 commitQ && commitQ.transfer.isNone
    && (match u.commitSource ⟨0, u.leadP 0, 0, commitQ.g⟩ (readTD commitQ.desc 5) with
      | .ok bs => decide ((bs.getD 12 0).toNat ≤ 1)
      | _ => false)
    && ((List.range 16).all fun n => !(u.region 0 n).any) && (u.sh 0).saf.wsteps.isEmpty
    && (u.wrSN ⟨0, u.leadP 0, 0, commitQ.g⟩ 0xB (u.commitBase 0 + 256 * u.getF .tstate 0 0x114 0 0) (List.replicate 256 0)).err.isNone
/-- CommitWrites: under SKIP, with the reduced FAULT flag and without it; while one runs and while none does. -/
theorem test_commit_hyps : starts (queued commits (skipped commitQ)) 0 (commits.copyKind 0 0 true) (skipped commitQ) (fun _ => true) = true
    ∧ commitGood commits = true ∧ commits.bitR .safe (shInst 0) 0x108 2 = false
    ∧ commitGood (commits.setR .safe (shInst 0) 0x108 4) = true ∧ (commits.setR .safe (shInst 0) 0x108 4).bitR .safe (shInst 0) 0x108 2 = true
    ∧ commits.commitRunning 0 = none ∧ (running commits commitQ false []).commitRunning 0 = some commitQ
    ∧ ((running commits commitQ false []).sh 0).tag = none := by decide +kernel

/-! ## Jorx -/

/-- Device 1 of pane 0: its port 0 is UP with device 0 behind it, and every destination is allowed. -/
def linked : State := (((((withG vecs [(1, 2 ^ 26)]).setR .jorx 0 0x100 (1 + 2 ^ 14)).setR .jport 0 0x104 2).setR .jport 0 0x100 1).setR .shcfg 0 0x11C
  (2 ^ 20)).setR .shcfg 0 0x120 0xFFFF0000
/-- Group 7 of shade 0 has the devices 0 and 1 of pane 0. -/
def grouped (ctrl : Nat) : State := (linked.setR .jshade 0 0x170 (ctrl + 5 * 2 ^ 16)).setR .jshade 0 0x178 3
def jq (s : State) (o : JorxOp) : QOp := opQ s 4 12 (.jorx o)
def jStarts (s : State) (n : Nat) (o : JorxOp) (P : State → Bool) : Bool := starts (queued s (jq s o)) 0 (opKind 12 n) (jq s o) fun u => (u.sh 0).tag.isNone && P u
/-- RemoteTransfers: a PUT of TD 1 to device 0 whose part is one message, a GET, and both with the device recorded dead or this one isolated. -/
def onePart (u : State) (q : QOp) (x : Transfer) : Bool :=
  !u.isolated && !u.deadDev x.dev && decide (x.dev ≠ u.devId) && decide (u.partPrisms 0 x.part = [0]) &&
    (let td := readTD q.desc x.td
    let r := u.tdPart 0 x.part 0 td
    decide (0 < td.positions r) && decide (td.positions r ≤ td.perMsg) && (u.route u.devId x.dev u.activeCopy none).isSome &&
      (x.get || match u.lview ⟨0, 0, 0, q.g⟩ q x.td x.part r with
        | .ok v => decide (v.t = td) && (match u.chunkItems ⟨0, 0, 0, q.g⟩ v r 0 (td.positions r) with
          | .ok items => !items.isEmpty
          | _ => false)
        | _ => false))
def oneWay (u : State) (q : QOp) : Bool := q.isJorx && (match q.transfer with
  | some x => onePart u q x
  | none => false)
theorem test_remote_hyps : jStarts linked 1 (.put 1 1 none) (fun u => oneWay u (jq linked (.put 1 1 none))) = true
    ∧ jStarts linked 2 (.get 1 1 none) (fun u => oneWay u (jq linked (.get 1 1 none))) = true
    ∧ jStarts (linked.setR .jorx 0 0x10C (2 ^ 16)) 1 (.put 1 1 none) (fun u => u.isolated) = true
    ∧ jStarts (linked.modJorx fun j => { j with peers := j.peers.set peerDefault 0 (some ⟨0, false⟩) }) 2 (.get 1 1 none) (fun u => u.deadDev 0) = true := by
  decide +kernel

/-- Collectives: a FLAGRED, SMALLRED, BCAST and BARRIER that go to the gatherer, device 0; one on the line; one with a kept result. -/
def goesUp (u : State) (o : JorxOp) : Bool :=
  decide ((jq (grouped 1) o).group = some 7) && !u.isolated && !(u.grp 0 7).broken && (u.memberOf 0 7 0).isNone && (u.sh 0).colls.kept.isEmpty
    && decide ((u.sh 0).colls.next.get (fun _ => 0) 7 = 0) && decide ((u.grp 0 7).gatherer (paneOf u.devId) = 0) && decide (u.devId = 1)
    && (u.route 1 0 u.activeCopy none).isSome
theorem test_collective_hyps : (∀ x ∈ [(3, JorxOp.barrier 7 none), (4, .flagred 2 7 none), (5, .smallred 56 7 .sumU64 none), (6, .bcast 1 1 7 none)],
      jStarts (grouped 1) x.1 x.2 (fun u => goesUp u x.2 && !u.onLine 0 (jq (grouped 1) x.2) 7) = true)
    ∧ jStarts (grouped 3) 3 (.barrier 7 none) (fun u => goesUp u (.barrier 7 none) && u.onLine 0 (jq (grouped 3) (.barrier 7 none)) 7) = true
    ∧ (let s := onSh (grouped 1) fun x => { x with colls := { x.colls with kept := [⟨7, 0, [5], false⟩] } }
      jStarts s 4 (.flagred 2 7 none) (fun u => decide ((u.sh 0).colls.kept.find? (fun k => k.group == 7 && k.number == 0) = some ⟨7, 0, [5], false⟩)) = true) := by
  decide +kernel

def seedQ (o : SpkOp) : QOp := opQ live 4 13 (.spk o)
def fresh : State := { running live (seedQ (.seedFresh 9 true 3)) false [] with noise := { live.noise with pool := [77, 78], waiting := [0] } }
def queueOpen (s : State) : State := { s.setR .agqm 0 0x140 (2 ^ 8 + 5) with owner := s.owner.set (fun _ => 0xFF) (64 + 5) 0 }
/-- Seeds: SEED and SEED.FRESH start; the pool serves the shade that waits, whose queue takes the record. -/
theorem test_seed_hyps : starts (queued live (seedQ (.seed 1 true))) 0 (opKind 13 1) (seedQ (.seed 1 true)) (fun u => (u.sh 0).tag.isNone) = true
    ∧ starts (queued live (seedQ (.seedFresh 9 true 3))) 0 (opKind 13 2) (seedQ (.seedFresh 9 true 3)) (fun u => (u.sh 0).tag.isNone) = true
    ∧ (fresh.sh 0).freshRunning = some (seedQ (.seedFresh 9 true 3), 9) ∧ takeLogged (fresh.sh 0).saf.fresh = none ∧ (fresh.sh 0).tag = none
    ∧ fresh.noise.pool = 77 :: [78] ∧ fresh.freshWaiting.head? = some 0 := by decide +kernel

theorem test_record_hyps : (queueOpen fresh).takesRecord 0 3 ∧ (queueOpen live).takesRecord 0 1 := by
  constructor <;> exact ⟨by decide +kernel, by decide +kernel, by decide +kernel⟩

def telQ (o : TelOp) : QOp := opQ live 4 14 (.tel o)
/-- Telemetry: GLINT with CLR, MARK, CNT of each kind; with no snapshot waiting and with four. -/
theorem test_telemetry_hyps : starts (queued live (telQ (.glint 255 9 true (some 3)))) 0 (opKind 14 1) (telQ (.glint 255 9 true (some 3))) (fun u => (u.sh 0).tag.isNone) = true
    ∧ starts (queued (queueOpen live) (telQ (.mark 7))) 0 (opKind 14 2) (telQ (.mark 7)) (fun u => (u.sh 0).tag.isNone) = true
    ∧ (∀ a ∈ [CntAct.freeze, .thaw, .snapshot, .clear], starts (queued live (telQ (.cnt a))) 0 (opKind 14 3) (telQ (.cnt a)) (fun u => u.agq.snaps.isEmpty) = true)
    ∧ (let s := { live with agq := { live.agq with snaps := List.replicate 4 ⟨0, none, false, false⟩ } }
      starts (queued s (telQ (.cnt .snapshot))) 0 (opKind 14 3) (telQ (.cnt .snapshot)) (fun u => decide (4 ≤ u.agq.snaps.length)) = true) := by
  decide +kernel

/-- PortStates: port 0 in TRAIN, DOWN for a second and for less, UP, HELD and disabled; a HELLO that fits the wiring and one that does not. -/
def portIs (st : Nat) : State := { linked.setR .jport 0 0x104 st with tb := 10 ^ 9 }
theorem test_port_hyps : (∀ st : Fin 4, (portIs st.val).portEn 0 = true ∧ (portIs st.val).portState 0 = st.val) ∧ live.portEn 0 = false ∧ live.portState 0 = 0
    ∧ ((portIs 0).port 0).since + 10 ^ 9 ≤ (portIs 0).tb.toNat ∧ linked.tb.toNat < (linked.port 0).since + 10 ^ 9
    ∧ linked.idValid = true ∧ linked.devId = 1 ∧ (0 : Nat) / 16 = linked.devId / 16 ∧ ¬ (5 % 16 = if 0 < linked.devId % 16 then 0 else 1) := by decide +kernel

/-- Port 1 is UP too, with device 2 behind it, and messages to device 0 may go there. -/
def twoPorts : State := (linked.setR .jport 1 0x104 (2 + 2 * 4)).setR .jorx 0 0x120 2
def resent (n : Nat) : State := linked.modPort 0 fun p => { p with buf := [⟨5, 0, none, 0⟩, ⟨6, 0, none, 0⟩], resends := n, resendFrom := 6 }
/-- PortTraffic: an UP port that is not fatal, of the parent and not; another way to its partner; the first and the eighth NAK for a flit. -/
theorem test_traffic_hyps : linked.portState 0 = 2 ∧ linked.bitR .health 0 0x204 0 = false ∧ 0 ≠ linked.getF .jorx 0 0x114 4 0
    ∧ (linked.setR .jorx 0 0x114 0).getF .jorx 0 0x114 4 0 = 0 ∧ (linked.port 0).missed = 0 ∧ twoPorts.portState 0 = 2
    ∧ (twoPorts.route twoPorts.devId (twoPorts.portPeer 0) twoPorts.activeCopy (some 0)).isSome = true
    ∧ (∀ n ∈ [0, 7], ((resent n).port 0).buf = [] ++ ⟨5, 0, none, 0⟩ :: ⟨6, 0, none, 0⟩ :: [] ∧ ((resent n).port 0).resends = n ∧ ((resent n).port 0).resendFrom = 6)
    ∧ (((resent 7).port 0).retrains.filter fun t => (resent 7).tb.toNat < t + 10 ^ 9).length < 7 ∧ live.portState 0 < 2 := by decide +kernel

/-- A header of a message from device 0 to device dst. -/
def hd (dst : DevId) (seq : W32) : Head := ⟨dst, 0, 0, 0, 0, 0, seq, 0, 0, false, false⟩
def got (s : State) : State := s.rxFlits 0 (1 + bodyFlits 0)
/-- MessagesRouted: a port that is not UP, no ID, another device with and without a route, a message of a stale epoch, one of a reserved type. -/
theorem test_message_hyps : live.portUp 0 = false ∧ linked.portUp 0 = true ∧ (linked.setR .jorx 0 0x100 1).idValid = false ∧ linked.idValid = true
    ∧ (hd 2 0).dst.toNat ≠ linked.devId ∧ Body.neighbour (.ack 0) = false ∧ (twoPorts.route 0 2 false none).isSome = true ∧ linked.route 0 2 false none = none
    ∧ (hd 1 0).dst.toNat = linked.devId ∧ linked.stale ⟨{ hd 1 0 with depoch := 9 }, .ack 0⟩ = true ∧ linked.devEpoch = 0
    ∧ arrives linked 0 ⟨hd 1 0, .reserved 0xEE⟩ = true := by decide +kernel

/-- What a PUT of one element of TD 1 says of its tensors. -/
def mtd (rtd : BitVec 8) (part : BitVec 2) : MsgTD := ⟨rtd, tdWords (linked.sh 0).desc 1, part, 0, 1⟩
def served : List Item := [.el 0 0x3F800000 0 0]
def inOrder : State := (got linked).modJorx fun j => { j with inSeq := j.inSeq.set (fun _ => 0) (streamKey 0 0 0) 1 }
/-- TransferMessages: a PUT that is repeated, in order, and refused for its descriptor; a GET request. -/
theorem test_put_hyps : arrives linked 0 ⟨hd 1 0, .put (mtd 2 1) served⟩ = true ∧ ((got linked).route 1 0 (got linked).activeCopy none).isSome = true
    ∧ (got linked).devId = 1 ∧ (got linked).isolated = false ∧ (got linked).jorx.inSeq.get (fun _ => 0) (streamKey 0 0 0) = 0
    ∧ inOrder.jorx.inSeq.get (fun _ => 0) (streamKey 0 0 0) = 1 ∧ (inOrder.acceptItems 0 0 0 (mtd 2 1) served).2 = true
    ∧ inOrder.remotePlan 0 0 0 (mtd 9 1) false = none ∧ arrives linked 0 ⟨hd 1 0, .getReq (mtd 1 1) 0 8 5⟩ = true
    ∧ ((got linked).serveItems 0 0 0 (mtd 1 1) 0 8).2.isSome = true := by decide +kernel

def openMsg (get : Bool) : OpenMsg := ⟨4, 0, 0, get, 7, 0, 0, linked.activeCopy⟩
def waiting (get : Bool) : State := onSh (running linked (jq linked (if get then .get 1 1 none else .put 1 1 none)) false []) fun x => { x with open_ := [openMsg get] }
/-- TransferMessages: an ACK, a NACK and a GET's data for the message that is open; its time-out, and the moment before. -/
theorem test_answer_hyps : (∀ b ∈ [Body.ack 7, .nack false 7], arrives (waiting false) 0 ⟨hd 1 0, b⟩ = true
      ∧ (got (waiting false)).openFor ⟨hd 1 0, b⟩ false 7 = some (openMsg false))
    ∧ (got (waiting false)).openOp 0 (openMsg false) = some (jq linked (.put 1 1 none)) ∧ (jq linked (.put 1 1 none)).id = (openMsg false).opId
    ∧ arrives (waiting true) 0 ⟨hd 1 0, .getData 7 served⟩ = true ∧ (got (waiting true)).openFor ⟨hd 1 0, .getData 7 served⟩ true 7 = some (openMsg true)
    ∧ (got (waiting true)).openOp 0 (openMsg true) = some (jq linked (.get 1 1 none))
    ∧ (let q := jq linked (.get 1 1 none)
      let r := (got (waiting true)).tdPart 0 1 0 (readTD q.desc 1)
      (∀ y ∈ served, (readTD q.desc 1).itemFits r y = true)
      ∧ (resFold (fun (s : State) y => s.putItem ⟨0, 0, 0, q.g⟩ q 1 1 r y) (got (waiting true)) served).err.isNone = true)
    ∧ (waiting false).tb.toNat < 0 + max 1 ((waiting false).getF .jorx 0 0x11C 15 0) * 1000
    ∧ 0 + max 1 ((waiting false).getF .jorx 0 0x11C 15 0) * 1000 ≤ (2 ^ 32 : W64).toNat ∧ ((waiting false).sh 0).life < 2 := by decide +kernel

/-- The group's members are devices 1 and 2: device 1 is its root. A FLAGRED, or another collective, waits at this device. -/
def rooted : State := (grouped 1).setR .jshade 0 0x178 6
def member (o : JorxOp) (need : Nat) (rel : Option (Nat × List W64 × Bool)) : Member := ⟨7, 0, jq rooted o, need, rel⟩
def joins (o : JorxOp) (need : Nat) (rel : Option (Nat × List W64 × Bool)) (gs : List Gathering) : State :=
  onSh (running rooted (jq rooted o) false []) fun x => { x with colls := { x.colls with members := [member o need rel], gathers := gs } }
def flag : JorxOp := .flagred 2 7 none
def cid : CollId := ⟨5, 0⟩
/-- CollectiveMessages: the first ARRIVE, and the one that fills the gathering of the root. -/
theorem test_arrive_hyps : arrives rooted 0 ⟨hd 1 0, .arrive cid 2 [1] false⟩ = true ∧ (got rooted).groupOf 5 = some (0, 7) ∧ ((got rooted).sh 0).life < 2
    ∧ ((got rooted).grp 0 7).broken = false ∧ (got rooted).jorx.inSeq.get (fun _ => 0) (streamKey 0 0 0) = 0
    ∧ ((got rooted).sh 0).colls.gathers = [] ∧ (got rooted).memberOf 0 7 0 = none
    ∧ (let s := joins flag 0 none [⟨7, 0, [(1, [9])], false, false⟩]
      arrives s 0 ⟨hd 1 0, .arrive cid 2 [1] false⟩ = true ∧ (got s).memberOf 0 7 0 = some (member flag 0 none) ∧ (member flag 0 none).q.jorxOp = some flag
      ∧ (got s).devId = ((got s).grp 0 7).rootDev ∧ ((got s).grp 0 7).panes = [((got s).grp 0 7).root] ∧ paneOf (got s).devId = ((got s).grp 0 7).root
      ∧ arrivedOf [((1 : DevId), [(9 : W64)])] 2 = none
      ∧ (arrivedAll ([((1 : DevId), [(9 : W64)])] ++ [(2, [1])]) (((got s).grp 0 7).inPane ((got s).grp 0 7).root)).isSome = true) := by decide +kernel

/-- CollectiveMessages: a RELEASE before its time; its time; SYNC_N rising, and with no group on it. -/
theorem test_release_hyps : (let s := joins flag 0 none []
      arrives s 0 ⟨hd 1 0, .release cid 5 [1] false⟩ = true ∧ (got s).tb.toNat < (5 : W64).toNat ∧ (got s).memberOf 0 7 0 = some (member flag 0 none))
    ∧ (let s := { joins flag 0 (some (5, [1], false)) [] with tb := 5 }
      (s.sh 0).colls.members = [] ++ member flag 0 (some (5, [1], false)) :: [] ∧ 5 ≤ s.tb.toNat ∧ s.collLive 0 (member flag 0 (some (5, [1], false))) = true
      ∧ (s.sh 0).tag = none)
    ∧ (let s := ((joins (.barrier 7 none) 0 none []).setR .jshade 0 0x170 (3 + 5 * 2 ^ 16)).setR .jorx 0 0x128 (2 ^ 7 + 7 * 2 ^ 4)
      s.syncGroup = some (0, 7) ∧ (s.modJorx fun j => { j with sync := { j.sync with low := false } }).jorx.sync.low = false
      ∧ s.onLine 0 (jq rooted (.barrier 7 none)) 7 = true ∧ s.collLive 0 (member (.barrier 7 none) 0 none) = true)
    ∧ linked.syncGroup = none := by decide +kernel

/-- CollectiveMessages: data of a BCAST of TD 1. -/
def cast : JorxOp := .bcast 1 1 7 none
theorem test_bcast_hyps : let s := joins cast 1 none []
    let q := jq rooted cast
    let td := mtd 1 1
    let r := (got s).tdPart 0 1 0 (readTD q.desc 1)
    arrives s 0 ⟨hd 1 0, .bcastData cid td served⟩ = true ∧ (got s).memberOf 0 7 0 = some (member cast 1 none) ∧ (got s).collLive 0 (member cast 1 none) = true
    ∧ (RemoteWord.ofNat (q.greg 1)).part = 1 ∧ (got s).servingPrism 0 { td with part := 1 } = some 0
    ∧ plainBad (tdOfWords td.words) (readTD q.desc 1) = false ∧ (∀ y ∈ served, (readTD q.desc 1).itemFits r y = true)
    ∧ (resFold (fun (s : State) y => s.putItem ⟨0, 0, 0, q.g⟩ q 1 1 r y) (got s) served).err.isNone = true := by decide +kernel

def knows (e : BitVec 16) (a : Bool) : State := linked.modJorx fun j => { j with peers := j.peers.set peerDefault 2 (some ⟨e, a⟩) }
/-- Liveness: DEAD of device 2, not recorded, alive and dead before, and of this one; ALIVE; JOIN; PROBE and its reply; JORX_CTRL.JOIN. -/
theorem test_live_hyps : (∀ b ∈ [Body.dead 2 3, .dead 1 0, .alive 2 3, .join 3, .probe false, .probe true], arrives linked 0 ⟨hd 1 0, b⟩ = true)
    ∧ (got linked).peer 2 = none ∧ (∀ z : Fin 16, ((got linked).sh z).open_ = []) ∧ (got linked).groupsWith 2 = [] ∧ (got (knows 3 false)).peer 2 = some ⟨3, false⟩
    ∧ arrives (knows 3 false) 0 ⟨hd 1 0, .dead 2 3⟩ = true ∧ (got linked).devId = 1 ∧ (got linked).devEpoch = 0 ∧ (got linked).isolated = false
    ∧ ((got linked).route 1 0 (got linked).activeCopy none).isSome = true ∧ (∀ j : Fin 20, ((got linked).port j).missed < 3)
    ∧ taken linked .pf .jorx 0 0x110 = true := by decide +kernel

/-- The root of the management tree with the child behind port 0, and a device whose parent is there. -/
def mRoot : State := linked.setR .jorx 0 0x114 (0x1F + 2 ^ 5)
def mLeaf : State := linked.setR .jorx 0 0x114 0
def calls (r : Option MgmtKind) : State := mRoot.modJorx fun j => { j with mgmt := { j.mgmt with running := r } }
def released (r : MgmtKind × Nat × Bool) : State := linked.modJorx fun j => { j with mgmt := { j.mgmt with release := some r } }
/-- ManagementTree. -/
theorem test_mgmt_hyps : taken mRoot .pf .jorx 0 0x110 = true ∧ mRoot.getF .jorx 0 0x114 4 0 = 0x1F ∧ mRoot.jorx.mgmt.running = none ∧ mRoot.children = [0]
    ∧ taken mLeaf .pf .jorx 0 0x110 = true ∧ ¬ mLeaf.getF .jorx 0 0x114 4 0 = 0x1F
    ∧ arrives (calls (some .swap)) 0 ⟨hd 1 0, .marrive .swap true⟩ = true ∧ (got (calls (some .swap))).jorx.mgmt.running = some .swap
    ∧ (got (calls (some .swap))).children = [0] ∧ ((mRoot.setR .jorx 0 0x114 (0x1F + 3 * 2 ^ 5)).children = [0, 1])
    ∧ arrives mLeaf 0 ⟨hd 1 0, .mrelease .swap 9 true⟩ = true ∧ 0 = (got mLeaf).getF .jorx 0 0x114 4 0 ∧ (got mLeaf).tb.toNat < (9 : W64).toNat
    ∧ (∀ ok, (released (.swap, 0, ok)).jorx.mgmt.release = some (.swap, 0, ok) ∧ 0 ≤ (released (.swap, 0, ok)).tb.toNat)
    ∧ (let s := linked.modJorx fun j => { j with holdFrom := some 0 }
      s.jorx.holdFrom = some 0 ∧ s.tb.toNat < 0 + 2000 ∧ 0 + 2000 ≤ (2000 : W64).toNat ∧ s.agq.snaps.length < 4) := by decide +kernel

/-- Enumeration: no position yet, one frame seen and none, 20 ms over and not; a device with its position. -/
theorem test_enum_hyps : booted.clocked = true ∧ booted.getF .jorx 0 0x108 5 4 = 0 ∧ booted.jorx.enumLast = none ∧ 16 ≤ (16 : BitVec 5).toNat
    ∧ (15 : BitVec 5).toNat < 16 ∧ (booted.modJorx fun j => { j with enumLast := some 15 }).jorx.enumLast = some 15
    ∧ booted.tb.toNat < booted.jorx.enumFrom + 20000000 ∧ booted.jorx.enumFrom + 20000000 ≤ (20000000 : W64).toNat
    ∧ (∀ b, (booted.modJorx fun j => { j with paneWritten := b }).jorx.paneWritten = b) ∧ (booted.setR .jorx 0 0x108 16).getF .jorx 0 0x108 5 4 = 1 := by
  decide +kernel

def oscs (o : Osc) : State := { booted with noise := { booted.noise with osc := Vector.replicate 4 o } }
/-- NoiseSamples: four oscillators that pass their tests; the 40th equal bit in a row; the 795th in a window. -/
theorem test_noise_hyps :
    (let o : Osc := ⟨true, false, 0, false, 39, false, 793, 9, 2⟩;
      (oscs o).clocked = true ∧ (oscs o).noise.bits + 4 < 1024 ∧ ∀ i : Fin 4, ((oscs o).noise.osc[i.val]) = o ∧ o.fails < 3
        ∧ (o.run != 0 && o.last == false && decide (40 ≤ o.run)) = false ∧ (o.pos != 0 && decide (795 ≤ o.same + b2n (false == o.first))) = false)
    ∧ (let o : Osc := ⟨true, false, 0, false, 40, false, 40, 41, 2⟩;
      (o.run != 0 && o.last == false && decide (40 ≤ o.run)) = true)
    ∧ (let o : Osc := ⟨true, false, 0, false, 1, false, 794, 900, 2⟩;
      (o.pos != 0 && decide (795 ≤ o.same + b2n (false == o.first))) = true) := by decide +kernel

/-! ## The whole device -/

def sramWords : List SramWord := [.ts 51 7 131071, .pool 51 0xFBFFF, .store 51 262143, .desc 0 0]
def hurt (n : Nat) : State := { live with ecc := live.ecc.set (fun _ => 0) (tsKey 0 0 0 / 8) n }
/-- MachineHealth: the last words of each memory; a clean, a correctable and an uncorrectable word; a self-test window of the shade's and of no
shade's prism; a stale self-test; a fenced prism. -/
theorem test_health_hyps : live.clocked = true ∧ (∀ w ∈ sramWords, (sramKey w).isSome = true) ∧ sramKey (.ts 0 0 0) = some (tsKey 0 0 0)
    ∧ (keyPlace (tsKey 0 0 0)).1 = 0 ∧ live.prismState 0 ≠ 2 ∧ (∀ n : Fin 3, max (live.eccAt (tsKey 0 0 0)) (BitVec.ofNat 2 n.val).toNat = n.val)
    ∧ (hurt 1).eccAt (tsKey 0 0 0) = 1 ∧ live.eccAt (tsKey 0 0 0) ≠ 1 ∧ live.bitR .mem 0 0x1C 1 = false ∧ live.bitR .health 0 0x204 0 = false
    ∧ (let s := onSh live fun x => { x with rep := { x.rep with window := [0] } }
      s.shadeOfPrism 0 = some 0 ∧ 0 ∈ (s.sh 0).rep.window ∧ s.prismState 0 < 2)
    ∧ live.shadeOfPrism 51 = none ∧ live.stPaused = false ∧ live.warden = true ∧ live.shadeOfPrism 0 = some 0 ∧ 0 ∉ (live.sh 0).rep.window
    ∧ live.prismState 0 = 0 ∧ live.health.tested.get (fun _ => 0) 0 + 25000000 < (25000001 : W64).toNat
    ∧ (live.setR .health 0 0x100 2).prismState 0 = 2 := by decide +kernel

def flashBuf : List Byte := [4, 0, 1, 0, 0, 0, 0, 0, 0x20, 0, 0, 0, 0, 0, 0, 0]
def imageBuf : List Byte := leBytes 8 0 ++ leBytes 4 (crc32c (leBytes 8 0)).toNat ++ leBytes 4 0
def held (act : Nat) : State := live.setR .maint 0 0x104 (1 + 2 * act)
/-- Maintenance: the token free and held; requests by each of its holders; a record and an image that pass; releases of every activity. -/
theorem test_maint_hyps : live.warden = true ∧ taken live .pf .maint 0 0x100 = true ∧ taken live .i3c .maint 0 0x100 = true
    ∧ live.bitR .maint 0 0x104 0 = false ∧ (live.setR .maint 0 0x110 16).getF .maint 0 0x110 21 0 = 16 ∧ live.getF .maint 0 0x108 2 0 = 0
    ∧ (live.flashPlan flashBuf).isSome = true ∧ (live.imagePlan imageBuf).isSome = true ∧ flashBuf.length = 16 ∧ imageBuf.length = 16
    ∧ (∀ a ∈ [1, 3, 4, 6], (held a).bitR .maint 0 0x104 0 = true ∧ (held a).activity = a ∧ (held a).activityOver = true ∧ (held a).maint.refused = false)
    ∧ live.health.subs = [] := by decide +kernel

def spares : State := let s := (live.setR .health 0 0x100 2).setR .health 0 (0x100 + 4 * 51) (1 + 2 ^ 20)
  { s with health := { s.health with subs := [0] } }
def fenced : State := let s := live.setR .health 0 0x100 2
  { s with health := { s.health with former := s.health.former.set (fun _ => none) 0 (some (0, 0)) } }
/-- Maintenance: a substitution with prism 51 as the spare; an UNFENCE of prism 0. -/
theorem test_spare_hyps : spares.warden = true ∧ spares.bitR .maint 0 0x104 0 = false ∧ spares.health.subs = 0 :: [] ∧ spares.goodSpares = 51 :: []
    ∧ spares.getF .health 0 0x100 7 2 = 0 ∧ taken fenced .pf .health 0 0x20C = true ∧ fenced.bitR .health 0 0x20C 6 = false
    ∧ fenced.unfenceNumber 0 = some 0 := by decide +kernel

def coolSample : DimmerSample := ⟨[160], [], 0, 0, 0, 0⟩
def hotSample : DimmerSample := ⟨[420, 419], [], 3000, 3000, 2301, 2001⟩
def steps (s : State) : State := { s with dim := { s.dim with target := some 31 } }
/-- Dimmer: a cool and a hot sample, limits passed and kept; a DVFS step with a shade running, and with all halted; droop with the clock stretched. -/
theorem test_dimmer_hyps : live.warden = true ∧ live.clocked = true ∧ sampleValid coolSample = [(0, 160)] ∧ (∃ a ∈ sampleValid hotSample, a.2 = 420)
    ∧ (∀ a ∈ sampleValid hotSample, a.2 ≤ 420) ∧ 4 * ((live.getF .dimmer 0 0x100 6 0 : Nat) : Int) ≤ 420
    ∧ ¬ 4 * ((live.getF .dimmer 0 0x100 6 0 : Nat) : Int) ≤ 160 ∧ (∀ i : Fin 8, ¬ 95 < live.dim.stackTemp.get (fun _ => 0) i.val)
    ∧ live.dim.target = none ∧ (steps live).dim.target = some 31 ∧ (steps live).enabled 0 = true ∧ ((steps live).sh 0).lan.halted = false
    ∧ ((steps live).sh 0).rep.dvfs = false ∧ ((steps stopped).sh 0).lan.halted = true ∧ (∀ z : Fin 16, z ≠ 0 → (steps stopped).enabled z = false)
    ∧ [86, 85].length ≤ 8 ∧ { live with dim := { live.dim with stretch := true } }.dim.stretch = true
    ∧ (0 < ({ live with config := { live.config with vrm := [0] } } : State).config.vrm.length) := by decide +kernel

/-- DeviceResets: both pins high; FLR; an array reset before its time and at it. -/
theorem test_reset_hyps : booted.power.noRef = false ∧ (∀ p ∈ [ResetPin.rst, .perst], booted.pinLow p = false) ∧ booted.power.rstLow = false ∧ booted.pathUp .pf .device = true
    ∧ booted.mayBoot = true ∧ (released (.areset, 5, true)).jorx.mgmt.release = some (.areset, 5, true) ∧ (released (.areset, 5, true)).tb.toNat < 5
    ∧ 5 ≤ (5 : W64).toNat ∧ (released (.areset, 5, true)).mayBoot = true := by decide +kernel

/-- At the start of boot, with an image of no bytes in area 0 of the flash, and without one. -/
def atBoot : State := { State.reset with power := { booted.power with booting := true } }
def withImage : State := atBoot.wrN (flashKey 0) (areaBytes 1 [])
def bootIn (hbm : Bool) : BootIn := ⟨false, hbm, .empty, [(51, .fail 0 .lens)], 32, 16⟩
/-- Boots. -/
theorem test_boot_hyps : State.reset.power.noRef = false ∧ State.reset.power.tripped = false ∧ State.reset.power.inReset = true
    ∧ (∀ p ∈ [ResetPin.rst, .perst], State.reset.pinLow p = true) ∧ State.reset.power.heldSaid = false ∧ (∀ p ∈ [ResetPin.rst, .perst], booted.pinLow p = false) ∧ (10 : BitVec 4).toNat < 11
    ∧ atBoot.power.booting = true ∧ atBoot.stage = 0 ∧ atBoot.power.railLow = false ∧ atBoot.areaPick false = none ∧ withImage.areaPick false = some 0
    ∧ withImage.power.booting = true ∧ withImage.stage = 0 ∧ (∀ b, (bootIn b).vrmSilent = false ∧ (bootIn b).hbmFails = b)
    ∧ (let usable := (List.range 52).filter fun p => decide (bootTest (bootIn false).tests p = .pass)
      usable[47]? = some 47 ∧ usable[48]? = some 48)
    ∧ (atBoot.setR .boot 0 0x100 10).stage = 5 := by decide +kernel

/-- ShadeLife: a shade that is OFF with its lead prism, and without; one that runs; one that resets, and one that is killed; VFs. -/
def offWith : State := (booted.setR .device 0 0x200 64).setOwnerP 0 0
def withVf : State := { live with host := { live.host with vfs := 1 } }
theorem test_shade_hyps : taken offWith .pf .shcfg 0 0x100 = true ∧ (offWith.sh 0).life = 0 ∧ offWith.enabled 0 = false ∧ offWith.leadL 0 ∈ offWith.logicalOf 0
    ∧ (offWith.setR .shcfg 0 0x100 8).bitR .shcfg 0 0x100 3 = true ∧ taken (offWith.setR .shcfg 0 0x100 8) .pf .shcfg 0 0x100 = true
    ∧ (offWith.setR .shcfg 0 0x100 8).enabled 0 = false ∧ (offWith.setR .shcfg 0 0x100 8).leadL 0 ∈ (offWith.setR .shcfg 0 0x100 8).logicalOf 0
    ∧ taken booted .pf .shcfg 0 0x100 = true ∧ booted.leadL 0 ∉ booted.logicalOf 0 ∧ taken live .pf .shcfg 0 0x100 = true ∧ (live.sh 0).life = 1
    ∧ withVf.pathUp (.vf 0) .device = true ∧ withVf.pathUp .pf .device = true ∧ bitOf withVf.host.vfs 0 = true ∧ withVf.enabled 0 = true
    ∧ withVf.bitR .shcfg 0 0x100 3 = false ∧ (∀ z : Fin 16, bitOf withVf.host.vfs z.val = true → ¬ 1 ≤ z.val)
    ∧ (∀ n ∈ [2, 3], let s := onSh live fun x => { x with life := n }; (s.sh 0).life = n ∧ s.subHolds 0 = false) := by decide +kernel

/-- Ownership: a prism that is free, and one that the shade has; a unit that is clean and free, and one that is the shade's; scrubs; a pattern entry. -/
def free : State := booted.setR .device 0 0x200 64
def freeUnit : State := ((live.setR .mem 0 0x400 0xFFFFFFFF).setR .scrub 0 0x140 0).setR .shcfg 0 0x110 1
def ownUnit : State := offWith.setR .mem 0 0x400 0xFFFFFF00
theorem test_owner_hyps : taken free .pf .lant 0 0xC = true ∧ free.getF .health 0 0x100 7 2 = 0 ∧ free.l2p 0 = some 0 ∧ free.enabled 0 = false
    ∧ free.ownerP 0 = 0xFF ∧ offWith.ownerP 0 = 0 ∧ taken offWith .pf .lant 0 0xC = true ∧ taken freeUnit .pf .mem 0 0x400 = true
    ∧ (∀ v : Fin 4, bitsOf 0xFFFFFF00 (8 * v.val + 7) (8 * v.val) = if v = 0 then 0 else freeUnit.unitOwner false v.val)
    ∧ freeUnit.unitOwner false 0 = 0xFF ∧ freeUnit.dirty false 0 = false ∧ freeUnit.quota 0 false = 1 ∧ (freeUnit.unitsOf false 0).length = 0
    ∧ taken ownUnit .pf .mem 0 0x400 = true ∧ ownUnit.unitOwner false 0 = 0 ∧ ownUnit.quiet 0 = true
    ∧ (∀ v : Fin 4, v ≠ 0 → bitsOf 0xFFFFFFFF (8 * v.val + 7) (8 * v.val) = ownUnit.unitOwner false v.val)
    ∧ taken live .pf .mem 0 (0x600 + 4 * 239) = true ∧ taken live .pf .scrub 0 (0x200 + 4 * 29) = true
    ∧ taken stopped .pf .pattern 0 0x100 = true ∧ (stopped.sh 0).haltedIdle = true ∧ bitOf 127 0 = true ∧ bitOf 127 12 = false ∧ 127 < 2 ^ 25
    ∧ bitsOf 127 6 1 = 63 ∧ stopped.patOther 0 0 63 = false ∧ bitOf (stopped.pat 0 0 0) 0 = false := by decide +kernel

def scrubbing : State := { live with scrubs := [(7, true, 959)] }
def scrubber (dirty : Nat) : State := (List.range 30).foldl (fun s n => s.setR .scrub 0 (0x180 + 4 * n) 0)
  ((List.range 9).foldl (fun s n => s.setR .scrub 0 (0x140 + 4 * n) (if n = 8 then dirty else 0)) (live.setR .bulk 0 0x104 0xFE000000))
theorem test_scrub_hyps : (scrubber (2 ^ 31)).bulkOwner 7 = 0xFE ∧ (scrubber (2 ^ 31)).bulkBusy 7 = false ∧ (scrubber (2 ^ 31)).clocked = true
    ∧ (scrubber (2 ^ 31)).dirtyUnits false = [287] ∧ (scrubber (2 ^ 31)).scrubs = [] ∧ (scrubber 0).dirtyUnits false = [] ∧ (scrubber 0).dirtyUnits true = []
    ∧ scrubbing.scrubs = [(7, true, 959)] ∧ 959 < unitCount true := by decide +kernel


/-- Beacon: an activation of a pending source and of one that is not; a completion, and one that is spurious; a held rise before its time and at it. -/
def pends : State := { (live.setR .beacon 0 0x104 (2 * 16 + 5)).setR .beacon 0 0x108 (2 * 16 + 5) with bcn := { live.bcn with pend := [1], act := [(2, 5)] } }
def holds : State := { live.setR .bcnTgt 2 0x110 1 with bcn := { live.bcn with held := live.bcn.held.set (fun _ => none) 2 (some ⟨0, 1⟩) } }
theorem test_beacon_hyps : taken pends .pf .bcnTgt 2 0x108 = true ∧ taken pends .pf .bcnTgt 2 0x10C = true ∧ 1 ∈ pends.bcn.pend ∧ pends.bcnTarget 1 = 2
    ∧ 3 ∉ pends.bcn.pend ∧ (∃ a ∈ pends.bcn.act, a.1 = 2) ∧ pends.bcnTarget 2 = 2 ∧ (∀ a ∈ pends.bcn.act, a.1 ≠ 1)
    ∧ (holds.bcn.held.get (fun _ => none) 2).isSome = true ∧ holds.tb.toNat < 0 + holds.getF .bcnTgt 2 0x110 15 0 * 100
    ∧ 0 + holds.getF .bcnTgt 2 0x110 15 0 * 100 ≤ (100 : W64).toNat ∧ holds.bcnFunction 2 = some 0 ∧ live.bcn.held.get (fun _ => none) 2 = none := by
  decide +kernel

/-- Beacon: PRIO and TARGET of the last source, and through a VF's alias; THRESH; MSI-X of the PF and of a VF; link events. -/
theorem test_source_hyps : taken live .pf .beacon 0 (0x100 + 4 * 0x2EF) = true ∧ bcnValid 0x2EF = true ∧ (∀ a ∈ live.bcn.act, a.1 ≠ 0x2EF)
    ∧ bitsOf 0x12F 8 4 < 19 ∧ taken withVf (.vf 0) .bcnTgt 3 (0x300 + 4 * 4) = true ∧ bcnValid 0x24 = true ∧ taken live .pf .bcnTgt 18 0x100 = true
    ∧ live.pathUp .pf .device = true ∧ bitOf withVf.host.vfs (1 - 1) = true ∧ live.clocked = true ∧ live.pcie.l0 = true := by decide +kernel

def staged (max : Nat) : State := { live.setR .agq 5 0x100 (max * 2 ^ 16 + max) with agq := { live.agq with staged := [⟨5, 7, some 0, 16, [0]⟩] } }
def packets : State := { live with agq := { live.agq with queues := live.agq.queues.set (fun _ => ⟨[], 0⟩) 5 ⟨[⟨9, 1, [0], true⟩], 10⟩ } }
def snaps (n : Nat) : State := { live with agq := { live.agq with snaps := List.replicate n ⟨0, none, false, false⟩ } }
/-- AfterglowCounters: a record whose queue has room, and one whose queue has none; a pop; snapshots. -/
theorem test_afterglow_hyps : live.clocked = true ∧ (staged 4).agq.staged = ⟨5, 7, some 0, 16, [0]⟩ :: [] ∧ (staged 4).agMax 5 ≠ 0
    ∧ ((staged 4).agQ 5).held + cellsOf 16 ≤ (staged 4).agMin 5 ∧ cellsOf 16 ≤ (staged 4).agFree ∧ (staged 0).agMax 5 = 0 ∧ live.agq.staged = []
    ∧ taken packets .pf .agq 5 0x10C = true ∧ (packets.agQ 5).packets = ⟨9, 1, [0], true⟩ :: [] ∧ taken live .pf .agqm 0 0x104 = true
    ∧ (snaps 3).agq.snaps.length < 4 ∧ 4 ≤ (snaps 4).agq.snaps.length ∧ (snaps 0).agq.snaps = [] ∧ taken (snaps 4) .pf .agqm 0 0x104 = true
    ∧ (snaps 1).agq.snaps = ⟨0, none, false, false⟩ :: [] := by decide +kernel

/-- AfterglowCounters, RegisterAccess: the LANT page of prism 0 takes the writes; a select with its reserved bits 0; sizes and pages that are not there. -/
theorem test_access_hyps : live.pathPage .pf 4112 = some ⟨.lant, 0⟩ ∧ (∀ o ∈ [0x10, 0x18, 0x1C, 0x20, 0x40, 0x5C], taken live .pf .lant 0 o = true)
    ∧ bitsOf (2 ^ 16 + 255) 15 8 = 0 ∧ bitOf (2 ^ 16 + 255) 17 = false ∧ 2 ^ 16 + 255 < 2 ^ 19 ∧ bitsOf 0x1F 31 5 = 0
    ∧ live.pathUp .pf .lant = true ∧ live.pathUp .pf .device = true ∧ accWide ⟨0x1010018, .other⟩ = none ∧ accWide ⟨0x1010014, .b8⟩ = none
    ∧ live.pathPage .pf 13 = none ∧ (0x1010110 : BitVec 26).toNat % 4 = 0 ∧ live.answers .pf .lant = true ∧ live.pageResets ⟨.lant, 0⟩ = false
    ∧ (fieldsAt .lant 0x110).isSome = true ∧ live.answers .pf .device = true ∧ live.pathUp .i3c .boot = true ∧ i3cPage 4 = some ⟨.maint, 0⟩
    ∧ live.pathUp .i3c .maint = true ∧ (0xFFC : BitVec 16).toNat < 4096 := by decide +kernel

def asked (op : Nat) (args : List W32) : State := { live with mbx := some ⟨op, args⟩ }
/-- Sideband: the mailbox free and busy; each command as it was captured; boot not in RECOVERY; the pins; an address and none. -/
theorem test_sideband_hyps : taken live .pf .mailbox 0 0x100 = true ∧ live.bitR .mailbox 0 0x104 0 = false
    ∧ taken (live.setR .mailbox 0 0x104 1) .pf .mailbox 0 0x100 = true ∧ (live.setR .mailbox 0 0x104 1).bitR .mailbox 0 0x104 0 = true
    ∧ live.mbx = none ∧ (asked 0 []).mbx = some ⟨0, []⟩ ∧ (asked 2 [1]).config.bodyOf 1 = some (leBytes 8 live.config.repair.toNat)
    ∧ (asked 2 [9]).config.bodyOf 9 = none ∧ (asked 3 [0x107FF00, 256]).mbx = some ⟨3, [0x107FF00, 256]⟩ ∧ live.warden = true ∧ live.stage ≠ 7
    ∧ live.power.rstLow = false ∧ State.reset.power.rstLow = true ∧ live.power.tripped = false ∧ live.power.noRef = false
    ∧ live.i3c.addr = none ∧ ({ live with i3c := { live.i3c with addr := some 9 } } : State).i3c.addr ≠ none := by decide +kernel

/-- NumberRules: a fraction with a part, one without, the greatest R. StepRunsFront: a command at the front, and an empty queue. -/
theorem test_number_hyps : 0 < (3 : Nat) ∧ 7 % 3 ≠ 0 ∧ 6 % 3 = 0 ∧ 65535 < 65536 ∧ ({ live with pending := [.bypass] } : State).pending = .bypass :: []
    ∧ live.pending = [] := by decide +kernel

/-! ## The invariant, ill-formed commands, slot words -/

/-- StepKeeps, ResetHolds. -/
theorem test_reset_inv : State.reset.Inv := by decide +kernel

/-- WellFormed refuses a Beam that R245 reserves, an EXT of slot 3, SRAM words past the end, PLL 11, and owner and retention words past the last. -/
theorem test_wf_refuses : [Instr.copy 0 (.issue 0 ⟨5, 0, 0, 0, none⟩), .gather 0 (.issue 0 ⟨4, 0, 0, 0, none⟩), .scatter 0 (.issue 0 ⟨7, 0, 0, 0, none⟩),
      .commitWrite 0 (.issue 0 ⟨6, 0, 0, 0, none⟩), .scrub 0 (.issue 0 ⟨5, 0, 0, none⟩), .ext 0 0 3 0 (.movi 1 1), .patrolRead (.ts 0 0 131072) 0,
      .patrolRead (.pool 0 0xFC000) 0, .eccWriteback (.store 0 262144), .eccWriteback (.desc 0 16384), .pllFail 11, .memOwnerWrite .pf false 72 0,
      .memOwnerWrite .pf true 240 0, .retainClear .pf 30 0].all (fun i => !i.wf) = true := by decide +kernel

/-- Slot words from the tables of R232, R239 and R246: BR to 0x2345 under p7; LOOP l2 with g5 to 9; WAIT ONE 33; PHASE OPT_IO; SUB g1 g2 g3;
CMPI p4 LES g6 −1; PLOG p1 ANDN p2 p3; RDD g9 of LD 17 word 3 tile 2; EXT of slot 1. -/
theorem test_decode_lantern : decodeSlot 0 0x0170000000002345 = .ok 7 (.ctl (.br (.abs 0x2345)))
    ∧ decodeSlot 0 0x020A280000000009 = .ok 0 (.ctl (.loop 2 (.reg 5) 9)) ∧ decodeSlot 0 0x030A100000000000 = .ok 0 (.ctl (.wait (.one 33)))
    ∧ decodeSlot 0 0x0800000000000005 = .ok 0 (.ctl (.phase 5)) ∧ decodeSlot 1 0x0400108300000000 = .ok 0 (.scalar (.alu .sub 1 2 3))
    ∧ decodeSlot 2 0x1000418CFFFFFFFF = .ok 0 (.scalar (.cmpi 4 .les 6 0xFFFFFFFF))
    ∧ decodeSlot 2 0x11001083C0000000 = .ok 0 (.scalar (.plog 1 .andn 2 3)) ∧ decodeSlot 1 0x1400900082218200 = .ok 0 (.scalar (.rdd 9 (.ld 17 3 4)))
    ∧ decodeSlot 15 0x0101000012345678 = .ok 0 (.ext 1 0x12345678) := by decide +kernel

/-- Slot words from the tables of R245: MM of tiles 0 and 7, problem 2, LD 5, token 33; UPDATE of CD 9 with g3; TOPK; PRUNE of MO 6 with g1;
COPY on bulk Beam 2; PUT of TD 4 with g2; SMALLRED MAX_F32 of group 6 at g8; SEED g1 GEN 1; MARK 0xBEEF; CNT CLEAR. -/
theorem test_decode_units : decodeSlot 4 0x010818B840000000 = .ok 0 (.array .mm ⟨0x81, 2, 5, some 33⟩)
    ∧ decodeSlot 5 0x0202430000000000 = .ok 0 (.lens .update ⟨9, 3, none⟩) ∧ decodeSlot 7 0x03001020313F8000 = .ok 0 (.focus .topk ⟨1, 2, 3, 4, some 63⟩)
    ∧ decodeSlot 8 0x0201810000000000 = .ok 0 (.mask (.prune 6 1 none)) ∧ decodeSlot 11 0x010A070826100000 = .ok 0 (.beam (.copy 10 7 8 9 (some 2)))
    ∧ decodeSlot 12 0x0100408000000000 = .ok 0 (.jorx (.put 4 2 none)) ∧ decodeSlot 12 0x0500023006000000 = .ok 0 (.jorx (.smallred 8 6 .maxF32 none))
    ∧ decodeSlot 13 0x0100600000000000 = .ok 0 (.spk (.seed 1 true)) ∧ decodeSlot 14 0x020000000000BEEF = .ok 0 (.tel (.mark 0xBEEF))
    ∧ decodeSlot 14 0x0300000000030000 = .ok 0 (.tel (.cnt .clear)) := by decide +kernel

end Sys2Proof.Tests
end

section
/-! PROOFS, chapter 01 (number formats): the value of an E8M0 code (R22), the two roundings of a fraction (R36, R37), the CRC of an empty
unit (R319). -/

namespace Sys2Proof.Machine

/-! ## The values of the E8M0 codes (R22) -/

/-- The codes 0x00 to 0xFE are the powers of two. -/
theorem e8m0_of_lt {c : Nat} (hc : c < 255) : e8m0 c = .fin false 1 ((c : Int) - 127) := by
  have hmod : c % 256 = c := Nat.mod_eq_of_lt (by omega)
  simp [e8m0, hmod, hc.ne]

theorem e8m0_nan : e8m0 255 = .nan := rfl

/-! ## Round to nearest even (R36)

`num` lies `num % den` parts of `den` above `num / den`: the rounding compares twice that remainder with `den`, and the parity of
`num / den` decides the tie. -/

/-- Below the middle, and at the middle over an even integer, the lower neighbour. -/
theorem roundRat_rne_down {num den : Nat}
    (h : 2 * (num % den) < den ∨ 2 * (num % den) = den ∧ num / den % 2 = 0) : roundRat .rne num den = num / den := by
  have hlow : ¬ (den < 2 * (num % den) ∨ 2 * (num % den) = den ∧ num / den % 2 = 1) := by omega
  simp only [roundRat, Bool.or_eq_true, decide_eq_true_eq, Bool.and_eq_true, if_neg hlow]

/-- Above the middle, and at the middle over an odd integer, the upper neighbour. -/
theorem roundRat_rne_up {num den : Nat}
    (h : den < 2 * (num % den) ∨ 2 * (num % den) = den ∧ num / den % 2 = 1) : roundRat .rne num den = num / den + 1 := by
  simp only [roundRat, Bool.or_eq_true, decide_eq_true_eq, Bool.and_eq_true, if_pos h]

/-- The integer taken lies within half of the fraction, and is even when it lies exactly half away. -/
theorem roundRat_rne_nearest_even (num : Nat) {den : Nat} (hden : 0 < den) :
    2 * (roundRat .rne num den * den) ≤ 2 * num + den ∧ 2 * num ≤ 2 * (roundRat .rne num den * den) + den
    ∧ (2 * (roundRat .rne num den * den) = 2 * num + den ∨ 2 * num = 2 * (roundRat .rne num den * den) + den →
      roundRat .rne num den % 2 = 0) := by
  have hsplit : num / den * den + num % den = num := Nat.div_add_mod' num den
  have hrem : num % den < den := Nat.mod_lt num hden
  by_cases h : den < 2 * (num % den) ∨ 2 * (num % den) = den ∧ num / den % 2 = 1
  · have hnext : (num / den + 1) * den = num / den * den + den := Nat.succ_mul _ _
    rw [roundRat_rne_up h, hnext]
    omega
  · rw [roundRat_rne_down (by omega)]
    omega

/-! ## Stochastic rounding (R37) -/

/-- An integer stays as it is, whatever is drawn. -/
theorem roundRat_sr_of_dvd {num den : Nat} (r : Nat) (h : num % den = 0) : roundRat (.sr r) num den * den = num := by
  have hstay : roundRat (.sr r) num den = num / den := by simp [roundRat, h]
  rw [hstay, Nat.div_mul_cancel (Nat.dvd_of_mod_eq_zero h)]

/-- Between two integers the draw decides: up when 2^16 times the part above the lower one, floored, reaches 2^16 with it. -/
theorem roundRat_sr_of_not_dvd {num den : Nat} (r : Nat) (h : num % den ≠ 0) :
    roundRat (.sr r) num den = num / den + if 65536 ≤ num % den * 65536 / den + r then 1 else 0 := by
  by_cases hup : 65536 ≤ num % den * 65536 / den + r
  · simp [roundRat, h, hup]
  · simp [roundRat, hup]

/-! ## The CRC of an empty unit (R319) -/

/-- With no byte taken the register still holds its start value, which the last XOR clears. -/
theorem crc32c_nil : crc32c [] = 0 := BitVec.xor_self

/-- Settles O57: the codes by their range, each rounding by the part of the fraction above its lower neighbour. -/
theorem numberRules : Obligations.NumberRules := by
  refine ⟨fun c hc => e8m0_of_lt hc, e8m0_nan, fun num den hden => roundRat_rne_nearest_even num hden, ?_, crc32c_nil⟩
  intro num den r _ _
  exact ⟨roundRat_sr_of_dvd r, roundRat_sr_of_not_dvd r⟩

end Sys2Proof.Machine
end

section
/-! PROOFS, chapter 05 (safeguards): what a step boundary does to the flags, the loss scale, SKIP and SAFE_STEP (R143, R158 to R160, R199),
what a shade reset leaves of SAFE_STEP (R143, R441), and who may write it (R143, R521). -/

namespace Sys2Proof.Machine

/-! ## Fields of a register -/

/-- A field reads as what was put into it, as far as it is wide. -/
theorem bitsOf_putBits_same (w hi lo v : Nat) : bitsOf (putBits w hi lo v) hi lo = v % 2 ^ (hi + 1 - lo) := by
  unfold putBits bitsOf
  have hp : 0 < 2 ^ lo := by positivity
  generalize 2 ^ (hi + 1 - lo) = q
  generalize 2 ^ lo = p at hp ⊢
  have hw : w - w / p % q * p = w % p + p * (q * (w / p / q)) := by
    have h1 : p * (q * (w / p / q)) + p * (w / p % q) + w % p = w := by
      rw [← Nat.mul_add, Nat.div_add_mod, Nat.div_add_mod]
    rw [Nat.mul_comm (w / p % q)]
    omega
  have hv : w % p + p * (q * (w / p / q)) + v % q * p = w % p + p * (q * (w / p / q) + v % q) := by ring
  rw [hw, hv, Nat.add_mul_div_left _ _ hp, Nat.div_eq_of_lt (Nat.mod_lt _ hp), Nat.zero_add, Nat.mul_add_mod, Nat.mod_mod]

/-- A field of a register lies within the register's 32 bits. -/
theorem bitsOf_mod_word (w lo : Nat) {hi : Nat} (h : hi < 32) : bitsOf (w % 2 ^ 32) hi lo = bitsOf w hi lo := by
  unfold bitsOf
  by_cases hlo : lo ≤ hi
  · have h32 : (2 : Nat) ^ 32 = 2 ^ lo * 2 ^ (32 - lo) := by rw [← pow_add]; congr 1; omega
    rw [h32, Nat.mod_mul_right_div_self, Nat.mod_mod_of_dvd _ (pow_dvd_pow 2 (by omega))]
  · simp [show hi + 1 - lo = 0 by omega, Nat.mod_one]

theorem bitOf_eq_bitsOf (w i : Nat) : bitOf w i = decide (bitsOf w i i = 1) := by simp [bitOf, bitsOf]

/-- Two's complement of six bits holds every exponent of the loss scale (R160). -/
theorem sextN_ofInt {e : Int} (h : -8 ≤ e) (h' : e ≤ 24) : sextN 6 (BitVec.ofInt 6 e).toNat = e := by
  have : (BitVec.ofInt 6 e).toNat = (e % 64).toNat := by simp [BitVec.toNat_ofInt]
  unfold sextN
  rw [this]
  omega

/-! ## Registers read after a write -/

theorem State.getF_setF_same (s : State) (k : PageKind) (i o lo v : Nat) {hi : Nat} (h : hi < 32) :
    (s.setF k i o hi lo v).getF k i o hi lo = v % 2 ^ (hi + 1 - lo) := by
  rw [State.getF, State.setF, State.getR_setR_same, bitsOf_mod_word _ _ h, bitsOf_putBits_same]

/-- A write at one offset of a page leaves the registers at its other offsets alone. -/
theorem State.getR_setR_off (s : State) (k : PageKind) (i v : Nat) {o o' : Nat} (h : o' ≠ o) :
    (s.setR k i o v).getR k i o' = s.getR k i o' :=
  s.getR_setR_ne v fun e => h (by simpa [rkey] using e)

theorem State.getR_setF_off (s : State) (k : PageKind) (i hi lo v : Nat) {o o' : Nat} (h : o' ≠ o) :
    (s.setF k i o hi lo v).getR k i o' = s.getR k i o' := s.getR_setR_off k i _ h

theorem State.getF_setF_off (s : State) (k : PageKind) (i hi lo v a b : Nat) {o o' : Nat} (h : o' ≠ o) :
    (s.setF k i o hi lo v).getF k i o' a b = s.getF k i o' a b := by rw [State.getF, State.getR_setF_off _ _ _ _ _ _ h, State.getF]

theorem State.getR64_setR64_same (s : State) (k : PageKind) (i o v : Nat) : (s.setR64 k i o v).getR64 k i o = v % 2 ^ 64 := by
  unfold State.getR64 State.setR64
  rw [State.getR_setR_same, State.getR_setR_off _ _ _ _ (by omega), State.getR_setR_same]
  omega

/-! ## Registers of a step

What a step boundary leaves behind stands in the shade's SAFE registers from SAFE_FLAGS to SAFE_STATUS, its seed and generator in the
SPECKLE registers, and four fields of its typed state. -/

/-- The key is that of a register of the shade's that a step boundary reads or writes. -/
def stepKey (sh : ShadeIx) (key : Nat) : Prop :=
  (inPage .safe (shInst sh) key ∧ 0x104 ≤ key % 4096 ∧ key % 4096 < 0x12C)
  ∨ (inPage .speckle (shInst sh) key ∧ 0x100 ≤ key % 4096 ∧ key % 4096 < 0x10C)

/-- What a step boundary writes of the typed state: the Umbra queue and the sampling seed with its generator. -/
def ShadeSt.stepSaf (x : ShadeSt) : List UmbraEntry × Bool × W64 × Bool :=
  (x.saf.umbra, x.saf.stepped, x.saf.sampSeed, x.saf.sampGen)

/-- What a step boundary of the shade leaves behind is the same in s and t. -/
structure StepKept (sh : ShadeIx) (s t : State) : Prop where
  regs : RegsOff (fun key => ¬ stepKey sh key) s t
  saf : (t.sh sh).stepSaf = (s.sh sh).stepSaf

theorem stepKey_safe (sh : ShadeIx) {o : Nat} (h : 0x104 ≤ o) (h' : o < 0x12C) : stepKey sh (rkey .safe (shInst sh) o) := by
  have hp := (inPage_rkey_iff (shInst_lt sh) (shInst_lt sh) (k := .safe) (k' := .safe) (o := o) (by omega)).2 ⟨rfl, rfl⟩
  exact .inl ⟨hp, by unfold rkey; omega, by unfold rkey; omega⟩

theorem stepKey_speckle (sh : ShadeIx) {o : Nat} (h : 0x100 ≤ o) (h' : o < 0x10C) : stepKey sh (rkey .speckle (shInst sh) o) := by
  have hp := (inPage_rkey_iff (shInst_lt sh) (shInst_lt sh) (k := .speckle) (k' := .speckle) (o := o) (by omega)).2 ⟨rfl, rfl⟩
  exact .inr ⟨hp, by unfold rkey; omega, by unfold rkey; omega⟩

/-- The common registers of a page, counters among them, are none of a step's. -/
theorem not_stepKey_common {sh : ShadeIx} {key : Nat} (h : key % 4096 < 0x100) : ¬ stepKey sh key := by
  rintro (⟨-, h1, -⟩ | ⟨-, h1, -⟩) <;> omega

theorem not_stepKey_counter {sh : ShadeIx} {k : PageKind} {i key : Nat} (h : isCounter k i key) : ¬ stepKey sh key :=
  not_stepKey_common (by have := h.2.2; omega)

/-- Registers of other block types are none of a step's. -/
theorem not_stepKey_kind {sh : ShadeIx} {k : PageKind} {i o : Nat} (hs : k ≠ .safe) (hp : k ≠ .speckle) (hi : i < 1024) (ho : o < 4096) :
    ¬ stepKey sh (rkey k i o) := by
  rintro (⟨h, -⟩ | ⟨h, -⟩)
  · exact hs ((inPage_rkey_iff (shInst_lt sh) hi ho).1 h).1
  · exact hp ((inPage_rkey_iff (shInst_lt sh) hi ho).1 h).1

theorem not_stepKey_target {sh : ShadeIx} {key : Nat} (h : inTarget key) : ¬ stepKey sh key := by
  have hsh := shInst_lt sh
  rintro (⟨h1, -⟩ | ⟨h1, -⟩) <;> simp only [inPage, inTarget, PageKind.ix] at h h1 <;> omega

/-- SAFE_ERR is none of a step's registers: the governor writes it. -/
theorem not_stepKey_safeErr (sh : ShadeIx) : ¬ stepKey sh (rkey .safe (shInst sh) 0x12C) := by
  rintro (⟨-, -, h⟩ | ⟨-, -, h⟩) <;> unfold rkey at h <;> omega

namespace StepKept

variable {sh : ShadeIx} {s t u : State}

theorem refl (sh : ShadeIx) (s : State) : StepKept sh s s := ⟨RegsOff.refl _ s, rfl⟩

theorem trans (h1 : StepKept sh s t) (h2 : StepKept sh t u) : StepKept sh s u := ⟨h1.regs.trans h2.regs, h2.saf.trans h1.saf⟩

theorem getR_safe (h : StepKept sh s t) {o : Nat} (ho : 0x104 ≤ o) (ho' : o < 0x12C) :
    t.getR .safe (shInst sh) o = s.getR .safe (shInst sh) o := h.regs.getR _ _ _ (not_not_intro (stepKey_safe sh ho ho'))

theorem safeStep (h : StepKept sh s t) : t.safeStep sh = s.safeStep sh := by
  unfold State.safeStep State.getR64
  rw [h.getR_safe (by omega) (by omega), h.getR_safe (by omega) (by omega)]

/-- A report that leaves the registers of a step alone. -/
theorem of_reports (h : Reports s t) (hr : RegsOff (fun key => ¬ stepKey sh key) s t) : StepKept sh s t := ⟨hr, by rw [h.sh]⟩

theorem setR (s : State) {k : PageKind} {i o : Nat} (v : Nat) (h : ¬ stepKey sh (rkey k i o)) : StepKept sh s (s.setR k i o v) :=
  ⟨RegsOff.setR s k i o v h, rfl⟩

theorem count (s : State) (k : PageKind) (i ev n : Nat) : StepKept sh s (s.count k i ev n) :=
  have h := State.count_touch s k i ev n
  of_reports h.1 (h.2.mono fun _ hk => not_stepKey_counter hk)

theorem rings (h : Rings s t) : StepKept sh s t := of_reports h.reports (h.2.mono fun _ hk => not_stepKey_target hk)

theorem raise (s : State) (n : Nat) : StepKept sh s (s.raise n) := rings (s.raise_rings n)

/-- A change of a shade's typed state that keeps what a step boundary writes of it. -/
theorem modSh (s : State) (f : ShadeSt → ShadeSt) (h : (f (s.sh sh)).stepSaf = (s.sh sh).stepSaf) : StepKept sh s (s.modSh sh f) :=
  ⟨RegsOff.of_regs rfl, by rw [State.sh_modSh_same, h]⟩

theorem foldl {α : Type} (f : State → α → State) (l : List α) (s : State) (h : ∀ u a, a ∈ l → StepKept sh u (f u a)) :
    StepKept sh s (l.foldl f s) := foldl_rel (StepKept sh) (refl sh) (fun _ _ _ => trans) f l s h

end StepKept

/-! ## What leaves the registers of a step alone -/

namespace StepKept

variable {sh : ShadeIx}

theorem of_fields {s t : State} (hr : t.regs = s.regs) (hs : t.shades = s.shades) : StepKept sh s t :=
  ⟨RegsOff.of_regs hr, by rw [State.sh_congr sh hs]⟩

theorem setR64 (s : State) {k : PageKind} {i o : Nat} (v : Nat) (hs : k ≠ .safe) (hp : k ≠ .speckle) (hi : i < 1024) (ho : o + 4 < 4096) :
    StepKept sh s (s.setR64 k i o v) :=
  (setR s _ (not_stepKey_kind hs hp hi (by omega))).trans (setR _ _ (not_stepKey_kind hs hp hi ho))

theorem blkErr (s : State) (k : PageKind) (page i : Nat) : StepKept sh s (s.blkErr k page i) := by
  unfold State.blkErr
  split
  · exact refl sh s
  · exact setR s _ (not_stepKey_common (by unfold rkey; omega))

theorem setErr (s : State) {k : PageKind} {i o : Nat} (page m : Nat) (h : ¬ stepKey sh (rkey k i o)) :
    StepKept sh s (s.setErr k i page o m) := (setR s _ h).trans (blkErr _ k page 0)

theorem dropRecord (s : State) : StepKept sh s s.dropRecord :=
  setR s _ (not_stepKey_kind (by decide) (by decide) (by omega) (by omega))

theorem shadeRecord (s : State) (z : ShadeIx) (typ : Nat) (body : List Nat) : StepKept sh s (s.shadeRecord z typ body) := by
  have stage (q : Nat) : StepKept sh s (s.stageTo q typ (some z) body) := by
    unfold State.stageTo
    extract_lets len
    split
    · exact dropRecord s
    · exact ⟨RegsOff.of_regs rfl, rfl⟩
  unfold State.shadeRecord
  extract_lets r
  split
  · exact stage _
  · exact dropRecord s

theorem recordFault (s : State) (z : ShadeIx) (code : Nat) (c : FClass) (src : FSrc) : StepKept sh s (s.recordFault z code c src) := by
  have lant {u : State} {o : Nat} (v : Nat) (ho : o < 4096) : StepKept sh u (u.setR .lant (shInst z) o v) :=
    setR u v (not_stepKey_kind (by decide) (by decide) (shInst_lt z) ho)
  unfold State.recordFault
  split
  · exact refl sh s
  · refine (trans ?_ (raise _ _)).trans (shadeRecord _ _ _ _)
    split
    · exact count s _ _ _ _
    · exact (lant _ (by omega)).trans (lant _ (by omega))

/-! ### The governor (R153 to R155) -/

theorem safeErr (s : State) (hi lo l m : Nat) (b : Bool) :
    StepKept sh s ((if b then s else s.setF .safe (shInst sh) 0x12C hi lo l).setErr .safe (shInst sh) (s.leadP sh) 0x12C m) := by
  refine trans ?_ (setErr _ _ _ (not_stepKey_safeErr sh))
  split
  · exact refl sh s
  · exact setR s _ (not_stepKey_safeErr sh)

theorem precisionLimit (s : State) (baddr l : Nat) : StepKept sh s (s.precisionLimit sh baddr l) :=
  (((safeErr s 15 8 l 4 _).trans (recordFault _ _ _ _ _)).trans (raise _ _)).trans (count _ _ _ _ _)

theorem governLayer (s : State) (baddr : Nat) (skip : Bool) (l : Nat) : StepKept sh s (s.governLayer sh baddr skip l) := by
  unfold State.governLayer
  extract_lets d put i g old s1
  have put_kept (u : State) (f : FMap W64 → FMap W64) : StepKept sh u (put u f) := modSh u _ rfl
  have decided : StepKept sh s s1 := by
    show StepKept sh s (if _ then _ else if _ then _ else _)
    split
    · exact (precisionLimit s baddr l).trans (shadeRecord _ _ _ _)
    split
    · exact refl sh s
    · exact (shadeRecord s _ _ _).trans (count _ _ _ _ _)
  split
  · exact refl sh s
  split
  · exact safeErr s 23 16 l 8 _
  split
  · exact put_kept s fun d => clearLayer d l
  · exact decided.trans (put_kept s1 fun d => clearLayer (putLayer0 d l g.rung g.clean) l)

/-! ### Phase timing (R332, R333) -/

theorem setEcc (s : State) (a e : Nat) : StepKept sh s (s.setEcc a e) := of_fields rfl rfl

theorem injectInto (s : State) (k : PageKind) (i a : Nat) : StepKept sh s (s.injectInto k i a) := by
  unfold State.injectInto
  extract_lets r two
  split
  · exact refl sh s
  · have low {u : State} {o : Nat} (v : Nat) (ho : o < 0x100) : StepKept sh u (u.setR k i o v) :=
      setR u v (not_stepKey_common (by unfold rkey; omega))
    exact ((low (o := 0x20) _ (by omega)).trans (low (o := 0x18) _ (by omega))).trans (setEcc _ _ _)

theorem eccWrite (s : State) (a : Nat) : StepKept sh s (s.eccWrite a) := by
  unfold State.eccWrite
  split
  · exact refl sh s
  split
  · exact refl sh s
  · exact (setEcc s a 0).trans (injectInto _ _ _ _)

theorem wrN (s : State) (a : Nat) (bs : List Byte) : StepKept sh s (s.wrN a bs) :=
  trans (t := { s with mem := s.mem.setList memDefault a bs, ecc := s.ecc.clearRange (ceilDiv a 8) ((a + bs.length) / 8) })
    (of_fields rfl rfl) (eccWrite _ a)

theorem tsErr (s : State) (z : ShadeIx) (bit region : Nat) : StepKept sh s (s.tsErr z bit region) := by
  have err : ¬ stepKey sh (rkey .tstate z.val 0x118) := not_stepKey_kind (by decide) (by decide) (by omega) (by omega)
  unfold State.tsErr
  refine (trans ?_ (setErr _ _ _ err)).trans (raise _ _)
  split
  · exact setR s _ err
  · exact refl sh s

theorem phaseSettle (s : State) : StepKept sh s (s.phaseSettle sh) := by
  unfold State.phaseSettle
  extract_lets f t k
  exact (setR64 s _ (by decide) (by decide) (by omega) (by omega)).trans (modSh _ _ rfl)

theorem phaseWords (s : State) (ws : List Nat) : StepKept sh s (s.phaseWords sh ws) := by
  unfold State.phaseWords
  extract_lets b off w
  split
  · exact refl sh s
  split
  · exact tsErr s _ _ _
  · exact wrN s _ _

theorem phaseBoundary (s : State) (step : Nat) : StepKept sh s (s.phaseBoundary sh step) := by
  unfold State.phaseBoundary
  extract_lets s1 ps span s2 s3 s4
  have h2 : StepKept sh s s2 := ((phaseSettle s).trans (shadeRecord _ _ _ _)).trans (count _ _ _ _ _)
  have h4 : StepKept sh s3 s4 := foldl _ _ _ fun u k hk =>
    setR64 u _ (by decide) (by decide) (by omega) (by have := List.mem_range.1 hk; omega)
  exact ((h2.trans (phaseWords s2 _)).trans h4).trans (modSh s4 _ rfl)

/-! ### The record and what follows it (R236, R401, R403) -/

theorem epochEnds (s : State) : StepKept sh s (s.epochEnds sh) := by
  unfold State.epochEnds
  refine trans (foldl _ _ _ fun u n hn => setR u _ (not_stepKey_kind (by decide) (by decide) (by omega) ?_)) (modSh _ _ rfl)
  have := List.mem_range.1 hn
  omega

theorem writeReplay (s : State) : StepKept sh s (s.writeReplay sh) := by
  unfold State.writeReplay
  exact modSh s _ rfl

theorem windowGo (s : State) : StepKept sh s (s.windowGo sh) := by
  unfold State.windowGo
  split
  · exact modSh s _ rfl
  · exact refl sh s

theorem halt (s : State) : StepKept sh s (s.halt sh) := by
  refine (modSh s _ ?_).trans (raise _ _)
  cases h : (s.sh sh).lan.halted <;> simp [ShadeSt.stepSaf]

theorem preemptGo (s : State) : StepKept sh s (s.preemptGo sh) := by
  unfold State.preemptGo
  split
  · exact ((halt s).trans (modSh _ _ rfl)).trans (count _ _ _ _ _)
  · unfold State.dvfsHoldGo
    split
    · exact modSh s _ rfl
    · exact refl sh s

end StepKept

/-- What a step boundary leaves behind lasts through the phase boundary, the record and what follows it (R236). -/
theorem State.yieldActions_stepKept (s : State) (sh : ShadeIx) :
    StepKept sh ((s.maskCommits sh (s.sh sh).lan.yieldPc).stepBoundary sh (s.sh sh).lan.yieldPc) (s.yieldActions sh true) :=
  (((((StepKept.phaseBoundary _ _).trans (StepKept.epochEnds _)).trans (StepKept.writeReplay _)).trans (StepKept.count _ _ _ _ _)).trans
    (StepKept.windowGo _)).trans (StepKept.preemptGo _)

/-! ## Which registers of a step each part of a step boundary writes -/

/-- Of the shade's registers of a step, only its SAFE registers at the offsets listed may differ between s and t. -/
def StepWrites (sh : ShadeIx) (os : List Nat) (s t : State) : Prop :=
  RegsOff (fun key => ¬ stepKey sh key ∨ ∃ o ∈ os, key = rkey .safe (shInst sh) o) s t

theorem StepKept.writes {sh : ShadeIx} {s t : State} (h : StepKept sh s t) (os : List Nat) : StepWrites sh os s t :=
  h.regs.mono fun _ => .inl

namespace StepWrites

variable {sh : ShadeIx} {os : List Nat} {s t u : State}

theorem trans (h1 : StepWrites sh os s t) (h2 : StepWrites sh os t u) : StepWrites sh os s u := RegsOff.trans h1 h2

theorem mono (h : StepWrites sh os s t) {os' : List Nat} (hs : ∀ o ∈ os, o ∈ os') : StepWrites sh os' s t :=
  RegsOff.mono h fun _ hk => hk.imp_right fun ⟨o, ho, e⟩ => ⟨o, hs o ho, e⟩

theorem setR (s : State) (v : Nat) {o : Nat} (h : o ∈ os) : StepWrites sh os s (s.setR .safe (shInst sh) o v) :=
  RegsOff.setR s _ _ _ _ (.inr ⟨o, h, rfl⟩)

theorem getR_safe (h : StepWrites sh os s t) {o : Nat} (ho : 0x104 ≤ o) (ho' : o < 0x12C) (hn : o ∉ os) :
    t.getR .safe (shInst sh) o = s.getR .safe (shInst sh) o := by
  refine RegsOff.getR h _ _ _ ?_
  rintro (hk | ⟨o', hm, e⟩)
  · exact hk (stepKey_safe sh ho ho')
  · have : o = o' := by simpa [rkey] using e
    exact hn (this ▸ hm)

theorem getR_speckle (h : StepWrites sh os s t) {o : Nat} (ho : 0x100 ≤ o) (ho' : o < 0x10C) (hos : ∀ o ∈ os, o < 4096) :
    t.getR .speckle (shInst sh) o = s.getR .speckle (shInst sh) o := by
  refine RegsOff.getR h _ _ _ ?_
  rintro (hk | ⟨o', hm, e⟩)
  · exact hk (stepKey_speckle sh ho ho')
  · exact absurd (rkey_inj (shInst_lt sh) (shInst_lt sh) (by omega) (hos o' hm) e).1 (by decide)

theorem getF_safe (h : StepWrites sh os s t) {o : Nat} (hi lo : Nat) (ho : 0x104 ≤ o) (ho' : o < 0x12C) (hn : o ∉ os) :
    t.getF .safe (shInst sh) o hi lo = s.getF .safe (shInst sh) o hi lo := by rw [State.getF, h.getR_safe ho ho' hn, State.getF]

theorem safeStep (h : StepWrites sh os s t) (hl : 0x120 ∉ os) (hh : 0x124 ∉ os) : t.safeStep sh = s.safeStep sh := by
  unfold State.safeStep State.getR64
  rw [h.getR_safe (by omega) (by omega) hl, h.getR_safe (by omega) (by omega) hh]

end StepWrites

/-! ## The loss scale (R160) -/

/-- The exponent of the loss scale and its run after a step boundary with the reduced flags `red`, from those before it; `run` counts
the step that ends as a clean one. -/
def scaleAfter (red growth : Nat) (e : Int) (run : Nat) : Int × Nat :=
  if bitOf red 0 then (max (e - 1) (-8), 0) else if bitOf red 1 || bitOf red 2 then (e, 0)
  else if growth ≠ 0 ∧ growth ≤ run then (min (e + 1) 24, 0) else (e, run)

theorem State.lscale_setLscale (s : State) (sh : ShadeIx) {e : Int} (h : -8 ≤ e) (h' : e ≤ 24) : (s.setLscale sh e).lscale sh = e := by
  have hlt : (BitVec.ofInt 6 e).toNat < 2 ^ (5 + 1 - 0) := (BitVec.ofInt 6 e).isLt
  rw [State.lscale, State.setLscale, State.getF_setF_same _ _ _ _ _ _ (by omega), Nat.mod_eq_of_lt hlt, sextN_ofInt h h']

/-- SAFE_LSRUN is written beside SAFE_LSCALE. -/
theorem State.lscale_setF_run (s : State) (sh : ShadeIx) (v : Nat) : (s.setF .safe (shInst sh) 0x110 15 0 v).lscale sh = s.lscale sh := by
  rw [State.lscale, State.getF_setF_off _ _ _ _ _ _ _ _ (by omega), State.lscale]

/-- The exponent and the run after the loss scale's part of a step boundary. -/
theorem State.lossScale_scale (s : State) (sh : ShadeIx) (red : Nat) (h : -8 ≤ s.lscale sh) (h' : s.lscale sh ≤ 24) :
    ((s.lossScale sh red).lscale sh, (s.lossScale sh red).getF .safe (shInst sh) 0x110 15 0)
      = scaleAfter red (s.getF .safe (shInst sh) 0x10C 23 8) (s.lscale sh) (min (s.getF .safe (shInst sh) 0x110 15 0 + 1) 0xFFFF) := by
  have ran (u : State) (v : Nat) (hv : v < 2 ^ 16) :
      ((u.setF .safe (shInst sh) 0x110 15 0 v).lscale sh, (u.setF .safe (shInst sh) 0x110 15 0 v).getF .safe (shInst sh) 0x110 15 0)
        = (u.lscale sh, v) := by
    rw [State.lscale_setF_run, State.getF_setF_same _ _ _ _ _ _ (by omega), Nat.mod_eq_of_lt hv]
  unfold State.lossScale scaleAfter
  extract_lets i e s1 run grow
  split
  · rw [ran _ _ (by omega), State.lscale_setLscale _ _ (by omega) (by omega)]
  split
  · exact ran s 0 (by omega)
  split
  · rw [ran _ _ (by omega), State.lscale_setLscale _ _ (by omega) (by omega)]
  · exact ran s run (by omega)

theorem State.lossScale_writes (s : State) (sh : ShadeIx) (red : Nat) : StepWrites sh [0x10C, 0x110] s (s.lossScale sh red) := by
  have exp (u : State) (e : Int) : StepWrites sh [0x10C, 0x110] u (u.setLscale sh e) := .setR u _ (by simp)
  have ran (u : State) (v : Nat) : StepWrites sh [0x10C, 0x110] u (u.setF .safe (shInst sh) 0x110 15 0 v) := .setR u _ (by simp)
  unfold State.lossScale
  extract_lets i e s1 run grow
  have floored : StepKept sh s s1 := by
    show StepKept sh s (if _ then _ else _)
    split
    · exact .setErr s _ _ (not_stepKey_safeErr sh)
    · exact .refl sh s
  split
  · exact ((floored.writes _).trans (exp _ _)).trans (ran _ _)
  split
  · exact ran s 0
  split
  · exact (exp s _).trans (ran _ _)
  · exact ran s run

/-! ## The parts of a step boundary (R158) -/

/-- The governor over all layers (R153). -/
def State.governAll (s : State) (sh : ShadeIx) (baddr : Nat) (skip : Bool) : State :=
  (List.range 256).foldl (fun s l => s.governLayer sh baddr skip l) s

/-- SKIP of the step that begins is written, and a step skipped counts. -/
def State.writeSkip (s : State) (sh : ShadeIx) (skip : Bool) : State :=
  let s := s.setF .safe (shInst sh) 0x128 0 0 (b2n skip)
  if skip then s.count .safe (s.leadP sh) 9 1 else s

/-- The flags, the reduced flags and the count of absurd updates clear. -/
def State.clearFlags (s : State) (sh : ShadeIx) : State :=
  ((s.setR .safe (shInst sh) 0x104 0).setR .safe (shInst sh) 0x108 0).setR .safe (shInst sh) 0x11C 0

/-- SAFE_STEP counts, and the sampling seed is captured (R143, R199). -/
def State.nextStep (s : State) (sh : ShadeIx) : State :=
  let s := s.setR64 .safe (shInst sh) 0x120 ((s.safeStep sh + 1) % 2 ^ 64)
  s.modSh sh fun x => { x with saf := { x.saf with
    stepped := true
    sampSeed := BitVec.ofNat 64 (s.getR64 .speckle (shInst sh) 0x100)
    sampGen := s.gen sh } }

/-- SKIP of the step that begins: the reduced flags NONFINITE and NORM. -/
def State.skipNext (s : State) (sh : ShadeIx) : Bool :=
  bitOf (s.getF .safe (shInst sh) 0x108 2 0) 0 || bitOf (s.getF .safe (shInst sh) 0x108 2 0) 1

/-- A step boundary up to the count of steps. -/
def State.stepSettled (s : State) (sh : ShadeIx) (baddr : Nat) : State :=
  ((((s.lossScale sh (s.getF .safe (shInst sh) 0x108 2 0)).governAll sh baddr (s.skipNext sh)).writeSkip sh (s.skipNext sh)).clearFlags
    sh).umbraDiscard sh

theorem State.stepBoundary_eq (s : State) (sh : ShadeIx) (baddr : Nat) :
    s.stepBoundary sh baddr = (s.stepSettled sh baddr).nextStep sh := rfl

theorem State.governAll_kept (s : State) (sh : ShadeIx) (baddr : Nat) (skip : Bool) : StepKept sh s (s.governAll sh baddr skip) :=
  .foldl _ _ _ fun u l _ => .governLayer u baddr skip l

theorem State.skipCounted_kept (s : State) (sh : ShadeIx) (skip : Bool) :
    StepKept sh s (if skip then s.count .safe (s.leadP sh) 9 1 else s) := by
  split
  · exact .count s _ _ _ _
  · exact .refl sh s

theorem State.writeSkip_writes (s : State) (sh : ShadeIx) (skip : Bool) : StepWrites sh [0x128] s (s.writeSkip sh skip) :=
  (StepWrites.setR s _ (by simp)).trans ((State.skipCounted_kept _ sh skip).writes _)

theorem State.writeSkip_skip (s : State) (sh : ShadeIx) (skip : Bool) : (s.writeSkip sh skip).bitR .safe (shInst sh) 0x128 0 = skip := by
  have hskip := s.getF_setF_same .safe (shInst sh) 0x128 0 (b2n skip) (hi := 0) (by omega)
  rw [State.getF] at hskip
  rw [State.writeSkip, State.bitR, (State.skipCounted_kept _ sh skip).getR_safe (by omega) (by omega), bitOf_eq_bitsOf, hskip]
  cases skip <;> rfl

theorem State.clearFlags_writes (s : State) (sh : ShadeIx) : StepWrites sh [0x104, 0x108, 0x11C] s (s.clearFlags sh) :=
  ((StepWrites.setR s 0 (by simp)).trans (.setR _ 0 (by simp))).trans (.setR _ 0 (by simp))

theorem State.clearFlags_reads (s : State) (sh : ShadeIx) :
    (s.clearFlags sh).getR .safe (shInst sh) 0x104 = 0 ∧ (s.clearFlags sh).getR .safe (shInst sh) 0x108 = 0
    ∧ (s.clearFlags sh).getR .safe (shInst sh) 0x11C = 0 := by
  have off (u : State) {o o' : Nat} (h : o' ≠ o) := u.getR_setR_off .safe (shInst sh) 0 h
  unfold State.clearFlags
  refine ⟨?_, ?_, State.getR_setR_same _ _ _ _ 0⟩
  · rw [off _ (by omega), off _ (by omega)]
    exact State.getR_setR_same _ _ _ _ 0
  · rw [off _ (by omega)]
    exact State.getR_setR_same _ _ _ _ 0

theorem State.umbraDiscard_writes (s : State) (sh : ShadeIx) (os : List Nat) : StepWrites sh os s (s.umbraDiscard sh) := by
  unfold State.umbraDiscard
  extract_lets s1
  have counted : StepKept sh s s1 := .foldl _ _ _ fun u e _ => .count u _ _ _ _
  exact (counted.writes os).trans (RegsOff.of_regs rfl)

theorem State.umbraDiscard_umbra (s : State) (sh : ShadeIx) : ((s.umbraDiscard sh).sh sh).saf.umbra = [] := by
  unfold State.umbraDiscard
  simp only [State.sh_modSh_same]

theorem State.nextStep_writes (s : State) (sh : ShadeIx) : StepWrites sh [0x120, 0x124] s (s.nextStep sh) :=
  StepWrites.trans (t := s.setR64 .safe (shInst sh) 0x120 ((s.safeStep sh + 1) % 2 ^ 64))
    ((StepWrites.setR s _ (by simp)).trans (.setR _ _ (by simp))) (RegsOff.of_regs rfl)

/-- R143: the count of steps goes up by 1. -/
theorem State.nextStep_safeStep (s : State) (sh : ShadeIx) : (s.nextStep sh).safeStep sh = (s.safeStep sh + 1) % 2 ^ 64 := by
  have h := s.getR64_setR64_same .safe (shInst sh) 0x120 ((s.safeStep sh + 1) % 2 ^ 64)
  rw [Nat.mod_mod] at h
  exact h

/-- R199: the seed and the generator captured are those of the shade. -/
theorem State.nextStep_saf (s : State) (sh : ShadeIx) :
    ((s.nextStep sh).sh sh).stepSaf
      = ((s.sh sh).saf.umbra, true, BitVec.ofNat 64 (s.getR64 .speckle (shInst sh) 0x100), s.gen sh) := by
  have off (v : Nat) : StepWrites sh [0x120, 0x124] s (s.setR64 .safe (shInst sh) 0x120 v) :=
    (StepWrites.setR s _ (by simp)).trans (.setR _ _ (by simp))
  have speckle (v : Nat) {o : Nat} (ho : 0x100 ≤ o) (ho' : o < 0x10C) :
      (s.setR64 .safe (shInst sh) 0x120 v).getR .speckle (shInst sh) o = s.getR .speckle (shInst sh) o :=
    (off v).getR_speckle ho ho' (by simp)
  unfold State.nextStep
  extract_lets s1
  rw [State.sh_modSh_same]
  have hseed : s1.getR64 .speckle (shInst sh) 0x100 = s.getR64 .speckle (shInst sh) 0x100 := by
    unfold State.getR64
    rw [speckle _ (by omega) (by omega), speckle _ (by omega) (by omega)]
  have hgen : s1.gen sh = s.gen sh := by
    unfold State.gen State.bitR
    rw [speckle _ (by omega) (by omega)]
  rw [hseed, hgen]
  rfl

/-! ## What a step boundary leaves behind -/

theorem State.stepSettled_writes (s : State) (sh : ShadeIx) (baddr : Nat) :
    StepWrites sh [0x104, 0x108, 0x10C, 0x110, 0x11C, 0x128] s (s.stepSettled sh baddr) :=
  (((((s.lossScale_writes sh _).mono (by simp)).trans ((State.governAll_kept _ sh baddr _).writes _)).trans
    ((State.writeSkip_writes _ sh _).mono (by simp))).trans ((State.clearFlags_writes _ sh).mono (by simp))).trans
    (State.umbraDiscard_writes _ sh _)

theorem State.stepBoundary_safeStep (s : State) (sh : ShadeIx) (baddr : Nat) :
    (s.stepBoundary sh baddr).safeStep sh = (s.safeStep sh + 1) % 2 ^ 64 := by
  rw [State.stepBoundary_eq, State.nextStep_safeStep, (s.stepSettled_writes sh baddr).safeStep (by simp) (by simp)]

theorem State.stepBoundary_saf (s : State) (sh : ShadeIx) (baddr : Nat) :
    ((s.stepBoundary sh baddr).sh sh).stepSaf = ([], true, BitVec.ofNat 64 (s.getR64 .speckle (shInst sh) 0x100), s.gen sh) := by
  have settled := s.stepSettled_writes sh baddr
  have speckle {o : Nat} (ho : 0x100 ≤ o) (ho' : o < 0x10C) :
      (s.stepSettled sh baddr).getR .speckle (shInst sh) o = s.getR .speckle (shInst sh) o := settled.getR_speckle ho ho' (by simp)
  rw [State.stepBoundary_eq, State.nextStep_saf]
  congr 2
  · exact State.umbraDiscard_umbra _ sh
  · unfold State.getR64 State.gen State.bitR
    rw [speckle (by omega) (by omega), speckle (by omega) (by omega), speckle (by omega) (by omega)]

theorem State.stepBoundary_flags (s : State) (sh : ShadeIx) (baddr : Nat) :
    (s.stepBoundary sh baddr).bitR .safe (shInst sh) 0x128 0 = s.skipNext sh
    ∧ (s.stepBoundary sh baddr).getR .safe (shInst sh) 0x104 = 0 ∧ (s.stepBoundary sh baddr).getR .safe (shInst sh) 0x108 = 0
    ∧ (s.stepBoundary sh baddr).getR .safe (shInst sh) 0x11C = 0 := by
  have after (u : State) : StepWrites sh [0x120, 0x124] u ((u.umbraDiscard sh).nextStep sh) :=
    (u.umbraDiscard_writes sh _).trans (State.nextStep_writes _ sh)
  rw [State.stepBoundary_eq, State.stepSettled, State.bitR, (after _).getR_safe (by omega) (by omega) (by simp),
    (after _).getR_safe (by omega) (by omega) (by simp), (after _).getR_safe (by omega) (by omega) (by simp),
    (after _).getR_safe (by omega) (by omega) (by simp), (State.clearFlags_writes _ sh).getR_safe (by omega) (by omega) (by simp)]
  exact ⟨State.writeSkip_skip _ sh _, State.clearFlags_reads _ sh⟩

theorem State.stepBoundary_scale (s : State) (sh : ShadeIx) (baddr : Nat) (h : -8 ≤ s.lscale sh) (h' : s.lscale sh ≤ 24) :
    ((s.stepBoundary sh baddr).lscale sh, (s.stepBoundary sh baddr).getF .safe (shInst sh) 0x110 15 0)
      = scaleAfter (s.getF .safe (shInst sh) 0x108 2 0) (s.getF .safe (shInst sh) 0x10C 23 8) (s.lscale sh)
        (min (s.getF .safe (shInst sh) 0x110 15 0 + 1) 0xFFFF) := by
  have after (u : State) : StepWrites sh [0x104, 0x108, 0x11C, 0x120, 0x124, 0x128] u
      (((((u.governAll sh baddr (s.skipNext sh)).writeSkip sh (s.skipNext sh)).clearFlags sh).umbraDiscard sh).nextStep sh) :=
    (((((u.governAll_kept sh baddr _).writes _).trans ((State.writeSkip_writes _ sh _).mono (by simp))).trans
      ((State.clearFlags_writes _ sh).mono (by simp))).trans (State.umbraDiscard_writes _ sh _)).trans ((State.nextStep_writes _ sh).mono (by simp))
  rw [← s.lossScale_scale sh _ h h', State.stepBoundary_eq, State.stepSettled, State.lscale,
    (after _).getF_safe _ _ (by omega) (by omega) (by simp), (after _).getF_safe _ _ (by omega) (by omega) (by simp), State.lscale]

/-! ## The yield point (R236) -/

theorem State.maskCommits_regs (s : State) (sh : ShadeIx) (addr : Nat) : (s.maskCommits sh addr).regs = s.regs :=
  foldl_rel (fun a b : State => b.regs = a.regs) (fun _ => rfl) (fun _ _ _ h1 h2 => h2.trans h1) _ _ _ fun _ _ _ => rfl

/-- A yield point that is due: the shade is quiescent, and its arrays hold nothing (R398). -/
theorem State.yieldPoint_due (s : State) (sh : ShadeIx) {stepEnd : Bool} (hy : (s.sh sh).lan.yielding = some stepEnd)
    (hi : (s.sh sh).issues = true) (hd : (s.sh sh).drained = true) (ha : s.arrayHeld sh = false) :
    s.yieldPoint sh = s.yieldActions sh stepEnd := by
  simp [State.yieldPoint, hy, hi, hd, ha]

/-- The mask commits of a yield point come before its step boundary: they change no register. -/
theorem State.yieldStep (s : State) (sh : ShadeIx) :
    ∃ (m : State) (baddr : Nat), (∀ k i o, m.getR k i o = s.getR k i o) ∧ StepKept sh (m.stepBoundary sh baddr) (s.yieldActions sh true) :=
  ⟨_, _, fun _ _ _ => State.getR_congr _ _ _ (s.maskCommits_regs sh _), s.yieldActions_stepKept sh⟩

theorem State.yieldActions_safeStep (s : State) (sh : ShadeIx) :
    (s.yieldActions sh true).safeStep sh = (s.safeStep sh + 1) % 2 ^ 64 := by
  obtain ⟨m, baddr, hm, kept⟩ := s.yieldStep sh
  rw [kept.safeStep, State.stepBoundary_safeStep]
  simp only [State.safeStep, State.getR64, hm]

theorem State.yieldActions_saf (s : State) (sh : ShadeIx) :
    ((s.yieldActions sh true).sh sh).stepSaf = ([], true, BitVec.ofNat 64 (s.getR64 .speckle (shInst sh) 0x100), s.gen sh) := by
  obtain ⟨m, baddr, hm, kept⟩ := s.yieldStep sh
  rw [kept.saf, State.stepBoundary_saf]
  simp only [State.getR64, State.gen, State.bitR, hm]

theorem State.yieldActions_flags (s : State) (sh : ShadeIx) :
    (s.yieldActions sh true).bitR .safe (shInst sh) 0x128 0 = s.skipNext sh
    ∧ (s.yieldActions sh true).getR .safe (shInst sh) 0x104 = 0 ∧ (s.yieldActions sh true).getR .safe (shInst sh) 0x108 = 0
    ∧ (s.yieldActions sh true).getR .safe (shInst sh) 0x11C = 0 := by
  obtain ⟨m, baddr, hm, kept⟩ := s.yieldStep sh
  have boundary := m.stepBoundary_flags sh baddr
  simp only [State.skipNext, State.getF, hm] at boundary
  rw [State.bitR, kept.getR_safe (by omega) (by omega), kept.getR_safe (by omega) (by omega), kept.getR_safe (by omega) (by omega),
    kept.getR_safe (by omega) (by omega)]
  exact boundary

theorem State.yieldActions_scale (s : State) (sh : ShadeIx) (h : -8 ≤ s.lscale sh) (h' : s.lscale sh ≤ 24) :
    ((s.yieldActions sh true).lscale sh, (s.yieldActions sh true).getF .safe (shInst sh) 0x110 15 0)
      = scaleAfter (s.getF .safe (shInst sh) 0x108 2 0) (s.getF .safe (shInst sh) 0x10C 23 8) (s.lscale sh)
        (min (s.getF .safe (shInst sh) 0x110 15 0 + 1) 0xFFFF) := by
  obtain ⟨m, baddr, hm, kept⟩ := s.yieldStep sh
  have before : m.lscale sh = s.lscale sh := by simp only [State.lscale, State.getF, hm]
  have boundary := m.stepBoundary_scale sh baddr (before ▸ h) (before ▸ h')
  rw [before] at boundary
  simp only [State.lscale, State.getF, hm] at boundary ⊢
  rw [kept.getR_safe (by omega) (by omega), kept.getR_safe (by omega) (by omega)]
  exact boundary

/-! ## A shade reset (R143, R441) -/

theorem cellsGet_filter {V : Type} (d : Nat → V) (f : Nat → Bool) (m : List (Nat × V)) (k : Nat) (h : f k = false) :
    cellsGet d (m.filter fun c => f c.1) k = d k := by
  induction m with
  | nil => rfl
  | cons c m ih =>
    obtain ⟨a, v⟩ := c
    by_cases ha : f a = true
    · have hne : a ≠ k := fun e => by simp [e, h] at ha
      simpa [List.filter_cons, ha, cellsGet, hne] using ih
    · simpa [List.filter_cons, ha] using ih

theorem PageKind.ofIx_ix (k : PageKind) : PageKind.ofIx k.ix = k := by cases k <;> rfl

/-- A register that a reset takes in reads as its reset value. -/
theorem State.getR_resetRegs (s : State) (f : PageKind → Nat → Nat → Bool) {k : PageKind} {i o : Nat} (hi : i < 1024) (ho : o < 4096)
    (h : f k i o = true) : (s.resetRegs f).getR k i o = (regDefault (rkey k i o)).toNat := by
  have hk : rkey k i o / 4096 / 1024 = k.ix := by unfold rkey; omega
  have hinst : rkey k i o / 4096 % 1024 = i := by unfold rkey; omega
  have hoff : rkey k i o % 4096 = o := by unfold rkey; omega
  have gone : (!f (PageKind.ofIx (rkey k i o / 4096 / 1024)) (rkey k i o / 4096 % 1024) (rkey k i o % 4096)) = false := by
    rw [hk, hinst, hoff, PageKind.ofIx_ix, h]; rfl
  exact congrArg BitVec.toNat (cellsGet_filter regDefault
    (fun key => !f (PageKind.ofIx (key / 4096 / 1024)) (key / 4096 % 1024) (key % 4096)) s.regs.cells _ gone)

theorem regDefault_safeStep (sh : ShadeIx) {o : Nat} (h : o = 0x120 ∨ o = 0x124) : regDefault (rkey .safe (shInst sh) o) = 0 := by
  have hsh := shInst_lt sh
  have hk : rkey .safe (shInst sh) o / 4096 / 1024 = PageKind.safe.ix := by unfold rkey; omega
  have hoff : rkey .safe (shInst sh) o % 4096 = o := by unfold rkey; omega
  unfold regDefault
  rw [hk, hoff]
  rcases h with rfl | rfl <;> decide

/-! The reset of a shade's state goes no further than its typed state, so that the shade's stage of reset lasts. -/

theorem foldl_shades {α : Type} (f : State → α → State) (l : List α) (s : State) (h : ∀ u a, (f u a).shades = u.shades) :
    (l.foldl f s).shades = s.shades :=
  foldl_rel (fun u t : State => t.shades = u.shades) (fun _ => rfl) (fun _ _ _ h1 h2 => h2.trans h1) f l s fun u a _ => h u a

theorem State.clearsDue_shades (s : State) : s.clearsDue.shades = s.shades := foldl_shades _ _ _ fun _ _ => rfl

theorem State.setHold_shades (s : State) (z : ShadeIx) (v : Bool) : (s.setHold (some z) v).shades = s.shades :=
  foldl_shades _ _ _ fun _ _ => rfl

theorem State.snapCancel_shades (s : State) (sh : ShadeIx) : (s.snapCancel sh).shades = s.shades := by
  unfold State.snapCancel
  extract_lets mine first agq s1 s2 s3
  have due : s2.shades = s.shades := by
    show (if _ then _ else _ : State).shades = s.shades
    split
    · exact s1.clearsDue_shades
    · rfl
  have held : s3.shades = s.shades := (s2.setHold_shades sh false).trans due
  split
  · refine (foldl_shades _ _ _ ?_).trans held
    intro _ _
    rfl
  · exact held

theorem State.emptyQueues_shades (s : State) (sh : ShadeIx) : (s.emptyQueues sh).shades = s.shades := foldl_shades _ _ _ fun _ _ => rfl

theorem State.emptyQueues_kept (s : State) (sh z : ShadeIx) : StepKept sh s (s.emptyQueues z) := by
  refine .foldl _ _ _ fun u q hq => .trans (.of_fields (t := u.setAgQ q ⟨[], 0⟩) rfl rfl)
    (.setR _ _ (not_stepKey_kind (by decide) (by decide) ?_ (by omega)))
  have := List.mem_range.1 (List.mem_of_mem_filter hq)
  omega

theorem State.scrubPrism_shades (s : State) (p : Nat) : (s.scrubPrism p).shades = s.shades := rfl

/-- Events 4 and 5 of a reset leave SAFE_STEP at 0 and the shade in the same reset or kill. -/
theorem State.resetState_step (s : State) (sh : ShadeIx) :
    (s.resetState sh).safeStep sh = 0 ∧ ((s.resetState sh).sh sh).life = (s.sh sh).life := by
  unfold State.resetState
  extract_lets s1 ps s2 s3 mine s4 hst s5
  have emptied : StepKept sh (s5.modSh sh fun x => { ShadeSt.reset with life := x.life }) _ := State.emptyQueues_kept _ sh sh
  refine ⟨?_, ?_⟩
  · have zero {o : Nat} (ho : o = 0x120 ∨ o = 0x124) : s5.getR .safe (shInst sh) o = 0 := by
      have reset := (s3.getR_resetRegs (fun k i off => mine k i && (k != .shcfg || counterReg off)) (shInst_lt sh) (by omega)
        (k := .safe) (o := o) (by simp [mine, PageKind.perPrism]))
      rw [regDefault_safeStep sh ho] at reset
      exact reset
    rw [emptied.safeStep, State.safeStep, State.getR64, State.getR_modSh, State.getR_modSh, zero (.inl rfl), zero (.inr rfl)]
    rfl
  · have scrubbed : s2.shades = s.shades := (foldl_shades _ _ _ State.scrubPrism_shades).trans (s.snapCancel_shades sh)
    rw [State.sh_congr sh (State.emptyQueues_shades _ sh), State.sh_modSh_same, State.sh_congr (s := s) (t := s5) sh scrubbed]

/-- The end of a reset writes none of the registers of a step. -/
theorem State.resetEnd_writes (s : State) (sh : ShadeIx) : StepWrites sh [] s (s.resetEnd sh) := by
  have ctrl (u : State) {o : Nat} (v : Nat) (ho : o < 4096) : StepKept sh u (u.setR .shcfg sh.val o v) :=
    .setR u v (not_stepKey_kind (by decide) (by decide) (by omega) ho)
  unfold State.resetEnd
  extract_lets s1 s2
  have ended : StepWrites sh [] s s1 := RegsOff.of_regs rfl
  have cleared : StepKept sh s1 s2 := (ctrl s1 (o := 0x100) _ (by omega)).trans (ctrl _ (o := 0x104) _ (by omega))
  exact ended.trans (((cleared.trans (.count _ _ _ _ _)).trans (.raise _ _)).writes [])

/-- R143: a shade reset leaves 0 in SAFE_STEP. -/
theorem State.resetScrub_safeStep (s : State) (sh : ShadeIx) (h : (s.sh sh).life = 2) (hsub : s.subHolds sh = false) :
    (s.resetScrub sh).safeStep sh = 0 := by
  obtain ⟨hzero, hlife⟩ := s.resetState_step sh
  have ends : s.resetScrub sh = (s.resetState sh).resetEnd sh := by simp [State.resetScrub, h, hsub, hlife]
  rw [ends, (State.resetEnd_writes _ sh).safeStep (by simp) (by simp), hzero]

/-! ## A write of SAFE_STEP (R143, R521) -/

/-! An access that is served counts on the DEVICE page first (R532). -/

section Counted

variable {s t : State} (h : CountsOn .device 0 s t)
include h

theorem CountsOn.device_shadeOfPrism (p : Nat) : t.shadeOfPrism p = s.shadeOfPrism p := by
  rw [h.1]
  rfl

theorem CountsOn.device_leads (p : Nat) : t.leads p = s.leads p := by
  have lead (sh : ShadeIx) : t.leadL sh = s.leadL sh := by
    rw [State.leadL, State.getF, h.getR_other (by omega) .shcfg _ _ (by omega) (by omega) (by decide), State.leadL, State.getF]
  have place (sh : ShadeIx) : t.l2p (s.leadL sh) = s.l2p (s.leadL sh) := by
    have := s.leadL_lt sh
    unfold State.l2p
    rw [h.getR (by omega) .device 0 _ (by omega) (by omega) (by omega)]
  simp only [State.leads, h.device_shadeOfPrism, lead, place]

theorem CountsOn.device_answers (path : Path) (k : PageKind) : t.answers path k = s.answers path k := by
  unfold State.answers State.ready State.bitR
  rw [h.getR_other (by omega) .boot 0 _ (by omega) (by omega) (by decide)]

theorem CountsOn.device_pageResets (pg : PageId) : t.pageResets pg = s.pageResets pg := by
  rw [h.1]
  rfl

end Counted

/-- A write of a register that is one field RW of 32 bits: taken whole, or refused whole where the field is locked (R15, R521). -/
theorem State.plainWrite_word (s : State) (pg : PageId) {off v : Nat} (hf : fieldsAt pg.kind off = some [fRW 31 0]) (hv : v < 2 ^ 32)
    (hr : reservedValue pg.kind off 0 v = false) :
    s.plainWrite pg off v = if s.locked pg off
      then (s.setR pg.kind ((s.view pg off).home pg.inst) off (s.getR pg.kind ((s.view pg off).home pg.inst) off)).rsvdWr pg.kind pg.inst
      else s.setR pg.kind ((s.view pg off).home pg.inst) off v := by
  have whole {w : Nat} (hw : w < 2 ^ 32) : bitsOf w 31 0 = w := by simpa [bitsOf] using hw
  have named : rsvdBits [fRW 31 0] v = false := by
    have hand : v &&& (2 ^ 32 - 1) = v := by rw [Nat.and_two_pow_sub_one_eq_mod, Nat.mod_eq_of_lt hv]
    have hall : fieldBits [fRW 31 0] = 2 ^ 32 - 1 := by decide
    rw [rsvdBits, hall, hand, Nat.sub_self]
    rfl
  have put {w : Nat} (hw : w < 2 ^ 32) : (fRW 31 0).written w v = v := by
    show putBits w 31 0 (bitsOf v 31 0) = v
    rw [putBits, whole hw, whole hv]
    simpa using hv
  unfold State.plainWrite
  rw [hf]
  extract_lets home bad
  cases hl : s.locked pg off
  · have free : bad (fRW 31 0) = false := by
      show ((fRW 31 0).acc == .rw && (s.locked pg off || reservedValue pg.kind off 0 (bitsOf v 31 0))) = false
      rw [hl, whole hv, hr]
      rfl
    simp [free, named, put (s.getR_lt _ _ _), home]
  · have shut : bad (fRW 31 0) = true := by
      show ((fRW 31 0).acc == .rw && (s.locked pg off || reservedValue pg.kind off 0 (bitsOf v 31 0))) = true
      rw [hl]
      rfl
    simp [shut, home]

/-- An access of 4 B to the register at an offset of a page, on a PCIe path or by firmware. -/
theorem State.regWrite_word (s : State) {path : Path} {page : PageNo} {off : Nat} {pg : PageId} {v : W32} (hp : path ≠ .i3c) (hoff : off < 4096)
    (h4 : off % 4 = 0) (hpg : s.pathPage path page.toNat = some pg) (hup : s.pathUp path pg.kind = true) :
    s.regWrite path ⟨BitVec.ofNat 26 (4096 * page.toNat + off), .b4⟩ (v.setWidth 64)
      = (s.count .device 0 2 1).write1 path pg off v.toNat := by
  have hpage := page.isLt
  have ha : (BitVec.ofNat 26 (4096 * page.toNat + off)).toNat = 4096 * page.toNat + off := by
    rw [BitVec.toNat_ofNat, Nat.mod_eq_of_lt (by omega)]
  have hn : (4096 * page.toNat + off) / 4096 = page.toNat := by omega
  have ho : (4096 * page.toNat + off) % 4096 = off := by omega
  have hw : (4096 * page.toNat + off) % 4 = 0 := by omega
  have hv : v.toNat % 4294967296 = v.toNat := Nat.mod_eq_of_lt v.isLt
  cases path with
  | i3c => exact absurd rfl hp
  | _ => simp [State.regWrite, accWide, State.writePage, ha, hn, ho, hw, hpg, hup, hv]

/-- A write of a half of SAFE_STEP, on the page of the prism that leads a shade: taken while the shade's Lantern is halted, else the half
stays and RSVD_WR is set. -/
theorem State.writeReg_safeStep (s : State) (path : Path) {p off : Nat} {sh : ShadeIx} (v : W32) (hoff : off = 0x120 ∨ off = 0x124)
    (hl : s.leads p = some sh) :
    s.writeReg path ⟨.safe, p⟩ off v.toNat = if (s.sh sh).lan.halted then s.setR .safe (shInst sh) off v.toNat
      else (s.setR .safe (shInst sh) off (s.getR .safe (shInst sh) off)).rsvdWr .safe p := by
  have fields : fieldsAt .safe off = some [fRW 31 0] := by rcases hoff with rfl | rfl <;> decide
  have home : (s.view ⟨.safe, p⟩ off).home p = shInst sh := by rcases hoff with rfl | rfl <;> simp [State.view, shadeReg, hl, View.home]
  have plain : s.writeReg path ⟨.safe, p⟩ off v.toNat = s.plainWrite ⟨.safe, p⟩ off v.toNat := by
    unfold State.writeReg
    rw [if_neg (by omega), if_neg (by omega), if_neg (by omega), if_neg (by omega)]
    simp [hl]
  have locked : s.locked ⟨.safe, p⟩ off = !(s.sh sh).lan.halted := by rcases hoff with rfl | rfl <;> simp [State.locked, hl]
  have free : reservedValue .safe off 0 v.toNat = false := by rcases hoff with rfl | rfl <;> rfl
  rw [plain, s.plainWrite_word ⟨.safe, p⟩ fields v.isLt free, home, locked]
  cases (s.sh sh).lan.halted <;> rfl

/-- The device after a taken access that writes a half of SAFE_STEP. -/
theorem exec_safeStepWrite (s : State) {path : Path} {page : PageNo} {p off : Nat} (v : W32) (hp : path ≠ .i3c)
    (hpg : s.pathPage path page.toNat = some ⟨.safe, p⟩) (hoff : off = 0x120 ∨ off = 0x124)
    (hacc : s.accepts path .safe p off) :
    exec (.registerWrite path ⟨BitVec.ofNat 26 (4096 * page.toNat + off), .b4⟩ (v.setWidth 64)) s
      = .next ((s.count .device 0 2 1).writeReg path ⟨.safe, p⟩ off v.toNat) := by
  obtain ⟨hup, -, hans, hres, hmay⟩ := hacc
  have counted := CountsOn.count s .device 0 2 1
  have served : (s.count .device 0 2 1).write1 path ⟨.safe, p⟩ off v.toNat = (s.count .device 0 2 1).writeReg path ⟨.safe, p⟩ off v.toNat := by
    simp [State.write1, counted.device_answers, counted.device_pageResets, hans, hres, hmay]
  rw [← served, ← s.regWrite_word hp (by omega) (by omega) hpg hup]
  rfl

/-! ### What the write changes -/

theorem State.count_regs_only (s : State) (k : PageKind) (i ev n : Nat) :
    s.count k i ev n = { s with regs := (s.count k i ev n).regs } := s.countAs_eq k i ev 0 n n

theorem State.rsvdWr_regs_only (s : State) (k : PageKind) (page : Nat) : s.rsvdWr k page = { s with regs := (s.rsvdWr k page).regs } := by
  have h := (s.orR k page 0x14 1).count_regs_only .device 0 4 1
  exact h

theorem StepKept.rsvdWr {sh : ShadeIx} (s : State) (k : PageKind) (page : Nat) : StepKept sh s (s.rsvdWr k page) :=
  (StepKept.setR s _ (not_stepKey_common (by unfold rkey; omega))).trans (.count _ _ _ _ _)

/-- A register written with what it holds reads the same, as does every other. -/
theorem StepKept.setR_self {sh : ShadeIx} (s : State) (k : PageKind) (i o : Nat) : StepKept sh s (s.setR k i o (s.getR k i o)) := by
  refine ⟨fun key _ => ?_, rfl⟩
  by_cases h : key = rkey k i o
  · subst h
    simp [State.setR, State.getR]
  · exact FMap.get_set_other _ _ _ _ _ h

theorem State.rsvdWr_set (s : State) (k : PageKind) (page : Nat) : (s.rsvdWr k page).bitR k page 0x14 0 = true := by
  have counted := (State.count_touch (s.orR k page 0x14 1) .device 0 4 1).2.getR k page 0x14
    fun h => by have := h.2.1; unfold rkey at this; omega
  have odd : (s.getR k page 0x14 ||| 1) % 2 = 1 := by simp [Nat.or_mod_two_eq_one]
  rw [State.bitR, State.rsvdWr, counted, State.orR, State.getR_setR_same]
  simp only [bitOf, pow_zero, Nat.div_one, decide_eq_true_eq]
  omega

/-- SAFE_STEP with one half written. -/
theorem State.safeStep_setR (s : State) (sh : ShadeIx) (v : W32) :
    (s.setR .safe (shInst sh) 0x120 v.toNat).safeStep sh = s.safeStep sh / 2 ^ 32 * 2 ^ 32 + v.toNat
    ∧ (s.setR .safe (shInst sh) 0x124 v.toNat).safeStep sh = v.toNat * 2 ^ 32 + s.safeStep sh % 2 ^ 32 := by
  have hv := v.isLt
  have hlo := s.getR_lt .safe (shInst sh) 0x120
  have hhi := s.getR_lt .safe (shInst sh) 0x124
  unfold State.safeStep State.getR64
  constructor
  · rw [State.getR_setR_same, State.getR_setR_off _ _ _ _ (by omega)]
    omega
  · rw [State.getR_setR_same, State.getR_setR_off _ _ _ _ (by omega)]
    omega

/-- While the Lantern is halted, a half of SAFE_STEP is taken. -/
theorem safeStepWrite_halted (s : State) {path : Path} {page : PageNo} {p off new : Nat} {sh : ShadeIx} (v : W32) (hp : path ≠ .i3c)
    (hpg : s.pathPage path page.toNat = some ⟨.safe, p⟩) (hl : s.leads p = some sh)
    (hnew : off = 0x120 ∧ new = s.safeStep sh / 2 ^ 32 * 2 ^ 32 + v.toNat ∨ off = 0x124 ∧ new = v.toNat * 2 ^ 32 + s.safeStep sh % 2 ^ 32)
    (hacc : s.accepts path .safe p off) (hh : (s.sh sh).lan.halted = true) :
    ∃ t, exec (.registerWrite path ⟨BitVec.ofNat 26 (4096 * page.toNat + off), .b4⟩ (v.setWidth 64)) s = .next t
      ∧ t.safeStep sh = new ∧ t = { s with regs := t.regs, units := t.units } := by
  have hoff : off = 0x120 ∨ off = 0x124 := hnew.imp And.left And.left
  have counted := CountsOn.count s .device 0 2 1
  have step : (s.count .device 0 2 1).safeStep sh = s.safeStep sh := (StepKept.count s .device 0 2 1).safeStep
  have written := (s.count .device 0 2 1).writeReg_safeStep path v hoff ((counted.device_leads p).trans hl)
  rw [counted.sh, if_pos hh] at written
  refine ⟨_, exec_safeStepWrite s v hp hpg hoff hacc, ?_, ?_⟩
  · obtain ⟨low, high⟩ := (s.count .device 0 2 1).safeStep_setR sh v
    rw [written]
    rcases hnew with ⟨rfl, rfl⟩ | ⟨rfl, rfl⟩
    · rw [low, step]
    · rw [high, step]
  · rw [written, s.count_regs_only]
    rfl

/-- While the Lantern runs, SAFE_STEP stays and RSVD_WR is set. -/
theorem safeStepWrite_running (s : State) {path : Path} {page : PageNo} {p off : Nat} {sh : ShadeIx} (v : W32) (hp : path ≠ .i3c)
    (hpg : s.pathPage path page.toNat = some ⟨.safe, p⟩) (hl : s.leads p = some sh) (hoff : off = 0x120 ∨ off = 0x124)
    (hacc : s.accepts path .safe p off) (hh : (s.sh sh).lan.halted = false) :
    ∃ t, exec (.registerWrite path ⟨BitVec.ofNat 26 (4096 * page.toNat + off), .b4⟩ (v.setWidth 64)) s = .next t
      ∧ t.safeStep sh = s.safeStep sh ∧ t.bitR .safe p 0x14 0 = true ∧ t = { s with regs := t.regs, units := t.units } := by
  have counted := CountsOn.count s .device 0 2 1
  have written := (s.count .device 0 2 1).writeReg_safeStep path v hoff ((counted.device_leads p).trans hl)
  rw [counted.sh, if_neg (by simp [hh])] at written
  refine ⟨_, exec_safeStepWrite s v hp hpg hoff hacc, ?_, ?_, ?_⟩
  · rw [written]
    exact (((StepKept.count s _ _ _ _).trans (.setR_self _ _ _ _)).trans (.rsvdWr _ _ _)).safeStep
  · rw [written]
    exact State.rsvdWr_set _ _ _
  · rw [written, State.rsvdWr_regs_only, s.count_regs_only]
    rfl

/-- Settles O27: the boundary by what each of its parts writes, and what follows it keeps; the reset by the reset values of the shade's
pages; the write by its one field, which is locked while the Lantern runs. -/
theorem stepBoundary : Obligations.StepBoundary := by
  refine ⟨?_, ?_, ?_⟩
  · intro s sh x i red e run growth ends hy hi hd ha he he'
    obtain ⟨hskip, hflags, hred, habsurd⟩ := s.yieldActions_flags sh
    obtain ⟨hexp, hrun⟩ := Prod.ext_iff.1 (s.yieldActions_scale sh he he')
    obtain ⟨humbra, hstepped, hseed, hgen⟩ : _ ∧ _ ∧ _ ∧ _ := by
      simpa only [ShadeSt.stepSaf, Prod.mk.injEq] using s.yieldActions_saf sh
    exact ⟨_, congrArg Host.Outcome.next (s.yieldPoint_due sh hy hi hd ha), s.yieldActions_safeStep sh, hexp, hrun, hskip, hflags, hred,
      habsurd, humbra, hstepped, hseed, hgen⟩
  · intro s sh hlife hsub
    exact ⟨_, rfl, s.resetScrub_safeStep sh hlife hsub⟩
  · intro s sh path page p v hp hpg hl wr off new hmem hacc
    have hnew : off = 0x120 ∧ new = s.safeStep sh / 2 ^ 32 * 2 ^ 32 + v.toNat
        ∨ off = 0x124 ∧ new = v.toNat * 2 ^ 32 + s.safeStep sh % 2 ^ 32 := by simpa using hmem
    exact ⟨safeStepWrite_halted s v hp hpg hl hnew hacc, safeStepWrite_running s v hp hpg hl (hnew.imp And.left And.left) hacc⟩

end Sys2Proof.Machine
end

section
/-! PROOFS, chapter 08 (faults that halt the Lantern): what a fault records and signals (R220 to R222, R237), what it discards (R221, R242) and
what it leaves alone. -/

namespace Sys2Proof.Machine

/-! ## A raised source stays pending (R433) -/

theorem State.count_bcn (s : State) (k : PageKind) (i ev n : Nat) : (s.count k i ev n).bcn = s.bcn := by
  rw [(CountsOn.count s k i ev n).1]

theorem State.msixSend_bcn (s : State) (f e : Nat) : (s.msixSend f e).bcn = s.bcn := by
  unfold State.msixSend
  split <;> rfl

theorem State.bcnUnhold_pend (s : State) (t : Nat) : (s.bcnUnhold t).bcn.pend = s.bcn.pend := by
  unfold State.bcnUnhold
  split
  · rfl
  · rw [State.count_bcn]

theorem State.bcnSend_pend (s : State) (t : Nat) : (s.bcnSend t).bcn.pend = s.bcn.pend := by
  unfold State.bcnSend
  extract_lets u
  have hu : u.bcn.pend = s.bcn.pend := s.bcnUnhold_pend t
  split
  · rw [State.count_bcn, hu]
  · split
    · exact hu
    · rename_i f _
      rw [State.count_bcn]
      exact (congrArg BeaconSt.pend (u.msixSend_bcn f _)).trans hu

theorem State.bcnAfter_pend (s : State) (t d0 : Nat) : (s.bcnAfter t d0).bcn.pend = s.bcn.pend := by
  unfold State.bcnAfter
  extract_lets d
  split
  · exact s.bcnUnhold_pend t
  split
  · rfl
  split
  · exact s.bcnSend_pend t
  split
  · exact s.bcnSend_pend t
  split
  · rw [State.count_bcn, s.bcnSend_pend t]
  · rfl

theorem State.bcnCount_pend (s : State) (t n : Nat) : (s.bcnCount t n).bcn.pend = s.bcn.pend := by
  unfold State.bcnCount
  split
  · rfl
  split
  · extract_lets c lim
    split
    · exact s.bcnSend_pend t
    · rfl
  · rfl

theorem mem_insSorted {n m : Nat} {l : List Nat} : m ∈ insSorted n l ↔ m = n ∨ m ∈ l := by
  induction l with
  | nil => simp [insSorted]
  | cons a l ih =>
    unfold insSorted
    split
    · simp
    split
    · next h => simp [h]
    · simp only [List.mem_cons, ih]
      tauto

/-- What a raise leaves pending: what was, and the source unless it can not be raised. -/
theorem State.raise_pend (s : State) (n : Nat) :
    (s.raise n).bcn.pend = if !bcnValid n || s.bcnPrio n == 0 || s.bcn.pend.contains n || s.bcnDiscards n then s.bcn.pend
      else insSorted n s.bcn.pend := by
  unfold State.raise
  split
  · rfl
  · rw [State.bcnCount_pend, State.bcnAfter_pend]

theorem State.raise_keeps_pend (s : State) (n : Nat) : s.bcn.pend ⊆ (s.raise n).bcn.pend := by
  intro m hm
  rw [s.raise_pend n]
  split
  · exact hm
  · exact mem_insSorted.2 (.inr hm)

/-- A source that R430 names signals when it is raised, unless its shade is being reset (R433, R436). -/
theorem State.raise_signals (s : State) {n : Nat} (hv : bcnValid n = true) (hd : s.bcnDiscards n = false) : s.signals (s.raise n) n := by
  intro hp
  rw [s.raise_pend n]
  split
  · next h => simpa [hv, hd, hp] using h
  · exact mem_insSorted.2 (.inl rfl)

theorem bcnValid_lant (sh : ShadeIx) : bcnValid (shadeSrc sh 0) = true := by
  revert sh
  decide

theorem State.bcnDiscards_lant (s : State) {sh : ShadeIx} (h : (s.sh sh).life < 2) : s.bcnDiscards (shadeSrc sh 0) = false := by
  have hix : (shadeSrc sh 0 - 0x020) / 16 = sh.val := by
    unfold shadeSrc
    omega
  unfold State.bcnDiscards
  split
  · simpa [hix] using h
  · rfl

/-! ## What reports and a shade's own changes leave alone -/

/-- A shade's prisms are those that DEV_L2P and their owners give. -/
theorem State.prismsOf_congr {s t : State} (hd : ∀ o, 0xC0 ≤ o → o < 4096 → t.getR .device 0 o = s.getR .device 0 o)
    (ho : t.owner = s.owner) (z : ShadeIx) : t.prismsOf z = s.prismsOf z := by
  have hl2p {n : Nat} (hn : n ∈ List.range 48) : t.l2p n = s.l2p n := by
    have hn := List.mem_range.1 hn
    unfold State.l2p
    rw [hd _ (by omega) (by omega)]
  have hlog : t.logicalOf z = s.logicalOf z := by
    unfold State.logicalOf
    refine List.filter_congr fun n hn => ?_
    rw [hl2p hn]
    simp only [State.ownerP_congr _ ho]
  unfold State.prismsOf
  rw [hlog]
  exact List.filterMap_congr fun n hn => hl2p (List.mem_filter.1 hn).1

/-- The key is that of an event counter, of a Beacon target's register, or of AGQ_DEV_DROP. -/
def noteKey (key : Nat) : Prop := eventReg (key % 4096) ∨ inTarget key ∨ key = rkey .agqm 0 0x108

/-- Between s and t the device counts, signals and records, and one shade changes: no memory, no tile, no other shade and no register but
those of a report differ, and what is pending at Beacon stays so. -/
structure Notes (sh : ShadeIx) (s t : State) : Prop where
  frame : s.reportsIn t
  regs : RegsOff noteKey s t
  others : s.otherShades t sh
  pend : s.bcn.pend ⊆ t.bcn.pend

theorem not_noteKey {k : PageKind} {i o : Nat} (hb : k ≠ .bcnTgt) (ha : k ≠ .agqm) (hi : i < 1024) (ho : 0xC0 ≤ o) (ho' : o < 4096) :
    ¬ noteKey (rkey k i o) := by
  have hoff : rkey k i o % 4096 = o := by
    unfold rkey
    omega
  rintro (h | h | h)
  · rw [hoff] at h
    exact absurd h.2 (by omega)
  · exact hb ((inTarget_rkey_iff hi ho').1 h)
  · exact ha (rkey_inj hi (by omega) ho' (by omega) h).1

namespace Notes

variable {sh : ShadeIx} {s t u : State}

theorem refl (sh : ShadeIx) (s : State) : Notes sh s s := ⟨rfl, RegsOff.refl _ s, fun _ _ => rfl, fun _ h => h⟩

theorem trans (h1 : Notes sh s t) (h2 : Notes sh t u) : Notes sh s u := by
  refine ⟨?_, h1.regs.trans h2.regs, fun z hz => (h2.others z hz).trans (h1.others z hz), fun _ h => h2.pend (h1.pend h)⟩
  have f1 := h1.frame
  have f2 := h2.frame
  unfold State.reportsIn at *
  rw [f2, f1]

theorem of_reports (h : Reports s t) (hr : RegsOff noteKey s t) (hp : s.bcn.pend ⊆ t.bcn.pend) : Notes sh s t := by
  refine ⟨?_, hr, fun z _ => h.sh z, hp⟩
  unfold Reports at h
  unfold State.reportsIn
  rw [h]

theorem modSh (s : State) (f : ShadeSt → ShadeSt) : Notes sh s (s.modSh sh f) :=
  ⟨rfl, RegsOff.of_regs rfl, fun _ hz => s.sh_modSh_ne f hz, fun _ h => h⟩

theorem fresh (s : State) (n : Nat) : Notes sh s { s with fresh := n } :=
  ⟨rfl, RegsOff.of_regs rfl, fun _ _ => rfl, fun _ h => h⟩

theorem count (s : State) (k : PageKind) (i ev n : Nat) : Notes sh s (s.count k i ev n) :=
  have h := State.count_touch s k i ev n
  of_reports h.1 (h.2.mono fun _ hk => .inl hk.2) (by rw [State.count_bcn]; exact fun _ h => h)

theorem raise (s : State) (n : Nat) : Notes sh s (s.raise n) :=
  of_reports (s.raise_reports n) ((s.raise_rings n).2.mono fun _ hk => .inr (.inl hk)) (s.raise_keeps_pend n)

theorem dropRecord (s : State) : Notes sh s s.dropRecord :=
  of_reports s.dropRecord_reports (RegsOff.setR s .agqm 0 0x108 _ (.inr (.inr rfl))) fun _ h => h

theorem shadeRecord (s : State) (z : ShadeIx) (typ : Nat) (body : List Nat) : Notes sh s (s.shadeRecord z typ body) := by
  have stage (q : Nat) : Notes sh s (s.stageTo q typ (some z) body) := by
    unfold State.stageTo
    extract_lets len
    split
    · exact dropRecord s
    · exact ⟨rfl, RegsOff.of_regs rfl, fun _ _ => rfl, fun _ h => h⟩
  unfold State.shadeRecord
  extract_lets r
  split
  · exact stage _
  · exact dropRecord s

theorem halt (s : State) : Notes sh s (s.halt sh) := (modSh s _).trans (raise _ _)

theorem tagSettle (s : State) : Notes sh s (s.tagSettle sh) := by
  unfold State.tagSettle
  split
  · exact refl sh s
  · extract_lets gone lost ws s1
    split
    · exact ((fresh s _).trans (modSh s1 _)).trans (shadeRecord _ _ _ _)
    · exact refl sh s

theorem discardQueue (s : State) : Notes sh s (s.discardQueue sh) :=
  ((modSh s _).trans (count _ _ _ _ _)).trans (tagSettle _)

theorem dropRunning (s : State) (f : QOp → Bool) : Notes sh s (s.dropRunning sh f) := (modSh s _).trans (tagSettle _)

/-- A register that no report shows reads the same. -/
theorem getR (h : Notes sh s t) {k : PageKind} {i o : Nat} (hb : k ≠ .bcnTgt) (ha : k ≠ .agqm) (hi : i < 1024) (ho : 0xC0 ≤ o)
    (ho' : o < 4096) : t.getR k i o = s.getR k i o := h.regs.getR k i o (not_noteKey hb ha hi ho ho')

theorem mem (h : Notes sh s t) : t.mem = s.mem := by rw [h.frame]

theorem tile (h : Notes sh s t) (p i : Nat) : t.tile p i = s.tile p i := State.tile_congr p i (by rw [h.frame])

/-- A shade's prisms are the same. -/
theorem prismsOf (h : Notes sh s t) (z : ShadeIx) : t.prismsOf z = s.prismsOf z :=
  State.prismsOf_congr (fun _ ho ho' => h.getR (by decide) (by decide) (by omega) ho ho') (by rw [h.frame]) z

theorem bcnPrio (h : Notes sh s t) {n : Nat} (hn : n < 0x300) : t.bcnPrio n = s.bcnPrio n := by
  unfold State.bcnPrio State.getF
  rw [h.getR (by decide) (by decide) (by omega) (by omega) (by omega)]

end Notes

/-! ## The record of a fault (R222) -/

/-- LANT_FAULT and LANT_FAULT_ADDR written with a fault, unless VALID is set. -/
def State.faultWritten (s : State) (sh : ShadeIx) (code : Nat) (c : FClass) (src : FSrc) : State :=
  if s.bitR .lant (shInst sh) 0x10C 15 then s
  else (s.setR .lant (shInst sh) 0x10C (code % 256 + src.slot % 16 * 256 + c.code * 4096 + 32768)).setR .lant (shInst sh) 0x110
    (src.baddr % 16384 + src.pprism % 64 * 65536 + src.tile % 8 * 4194304)

theorem State.faultWritten_reports (s : State) (sh : ShadeIx) (code : Nat) (c : FClass) (src : FSrc) :
    Reports s (s.faultWritten sh code c src) := by
  unfold State.faultWritten
  split
  · exact .refl s
  · exact (Reports.setR _ _ _ _ _).trans (.setR _ _ _ _ _)

/-- Only LANT_FAULT and LANT_FAULT_ADDR are written. -/
theorem State.faultWritten_getR_other (s : State) (sh : ShadeIx) (code : Nat) (c : FClass) (src : FSrc) {k : PageKind} {i o : Nat}
    (hk : k ≠ .lant) (hi : i < 1024) (ho : o < 4096) : (s.faultWritten sh code c src).getR k i o = s.getR k i o := by
  have hne {o' : Nat} (ho' : o' < 4096) : rkey k i o ≠ rkey .lant (shInst sh) o' := fun e => hk (rkey_inj hi (shInst_lt sh) ho ho' e).1
  unfold State.faultWritten
  split
  · rfl
  · rw [State.getR_setR_ne _ _ (hne (by omega)), State.getR_setR_ne _ _ (hne (by omega))]

theorem State.faultWritten_prismsOf (s : State) (sh : ShadeIx) (code : Nat) (c : FClass) (src : FSrc) (z : ShadeIx) :
    (s.faultWritten sh code c src).prismsOf z = s.prismsOf z :=
  State.prismsOf_congr (fun _ _ ho => s.faultWritten_getR_other sh code c src (by decide) (by omega) ho)
    (s.faultWritten_reports sh code c src).owner z

theorem FClass.code_le (c : FClass) : c.code ≤ 5 := by cases c <;> decide

/-- The first fault is held: code, slot and class, and the bundle's place (R222). -/
theorem State.faultWritten_first (s : State) (sh : ShadeIx) (code : Nat) (c : FClass) (src : FSrc)
    (h : s.bitR .lant (shInst sh) 0x10C 15 = false) :
    (s.faultWritten sh code c src).getR .lant (shInst sh) 0x10C = code % 256 + src.slot % 16 * 256 + c.code * 4096 + 32768
    ∧ (s.faultWritten sh code c src).getR .lant (shInst sh) 0x110 = src.baddr % 16384 + src.pprism % 64 * 65536 + src.tile % 8 * 4194304 := by
  have hc := c.code_le
  unfold State.faultWritten
  rw [if_neg (by simp [h])]
  refine ⟨?_, ?_⟩
  · rw [State.getR_setR_off _ _ _ _ (by omega), State.getR_setR_same, Nat.mod_eq_of_lt (by omega)]
  · rw [State.getR_setR_same, Nat.mod_eq_of_lt (by omega)]

theorem State.faultWritten_later (s : State) (sh : ShadeIx) (code : Nat) (c : FClass) (src : FSrc)
    (h : s.bitR .lant (shInst sh) 0x10C 15 = true) : s.faultWritten sh code c src = s := if_pos h

/-- Recording a fault writes it and reports it. -/
theorem State.recordFault_notes (s : State) (sh : ShadeIx) (code : Nat) (c : FClass) (src : FSrc) (h : (s.sh sh).life < 2) :
    Notes sh (s.faultWritten sh code c src) (s.recordFault sh code c src) := by
  unfold State.recordFault
  rw [if_neg (by omega)]
  extract_lets i s1
  have h1 : Notes sh (s.faultWritten sh code c src) s1 := by
    show Notes sh (s.faultWritten sh code c src) (if _ then _ else _)
    unfold State.faultWritten
    split
    · exact .count s _ _ _ _
    · exact .refl sh _
  exact (h1.trans (.raise s1 _)).trans (.shadeRecord _ _ _ _)

theorem State.recordFault_sh (s : State) (sh : ShadeIx) (code : Nat) (c : FClass) (src : FSrc) (z : ShadeIx) :
    (s.recordFault sh code c src).sh z = s.sh z := (s.recordFault_reports sh code c src).sh z

/-! ## Halts (R237) -/

theorem State.halt_lan (s : State) (sh : ShadeIx) :
    ((s.halt sh).sh sh).lan = { (s.sh sh).lan with halted := true, stopReq := false, waitSince := none } := by
  unfold State.halt
  rw [(State.raise_reports _ _).sh, State.sh_modSh_same]

theorem State.halt_ops (s : State) (sh : ShadeIx) :
    ((s.halt sh).sh sh).queue = (s.sh sh).queue ∧ ((s.halt sh).sh sh).running = (s.sh sh).running := by
  unfold State.halt
  rw [(State.raise_reports _ _).sh, State.sh_modSh_same]
  exact ⟨rfl, rfl⟩

/-- A halt signals the LANT source of a shade in service. -/
theorem State.halt_signals (s : State) (sh : ShadeIx) (h : (s.sh sh).life < 2) : s.signals (s.halt sh) (shadeSrc sh 0) := by
  unfold State.halt
  refine State.raise_signals (s.modSh sh _) (bcnValid_lant sh) (State.bcnDiscards_lant _ ?_)
  rw [State.sh_modSh_same]
  exact h

/-- A fault that halts: it is written and reported, and the LANT source is signalled. -/
theorem State.faultHalt (s : State) (sh : ShadeIx) (code : Nat) (c : FClass) (src : FSrc) (h : (s.sh sh).life < 2) :
    Notes sh (s.faultWritten sh code c src) ((s.recordFault sh code c src).halt sh)
    ∧ s.signals ((s.recordFault sh code c src).halt sh) (shadeSrc sh 0) := by
  have hrec := s.recordFault_notes sh code c src h
  refine ⟨hrec.trans (.halt _), fun hp => ?_⟩
  refine State.halt_signals _ sh (by rwa [State.recordFault_sh]) ?_
  rw [hrec.bcnPrio (by unfold shadeSrc; omega)]
  unfold State.bcnPrio State.getF
  rw [State.faultWritten_getR_other _ _ _ _ _ (by decide) (by omega) (by unfold shadeSrc; omega)]
  exact hp

/-- LANT_FAULT_ADDR of a first fault names the bundle at LANT_PC and the lead prism (R222). -/
theorem State.faultWritten_at_pc (s : State) (sh : ShadeIx) (code slot : Nat) (c : FClass)
    (h : s.bitR .lant (shInst sh) 0x10C 15 = false) :
    (s.faultWritten sh code c ⟨slot, (s.sh sh).lan.pc.toNat, s.leadP sh, 0⟩).getR .lant (shInst sh) 0x110
      = (s.sh sh).lan.pc.toNat + s.leadP sh * 2 ^ 16 := by
  have hpc := (s.sh sh).lan.pc.isLt
  have hp := s.leadP_lt sh
  rw [(s.faultWritten_first sh code c _ h).2, Nat.mod_eq_of_lt hpc, Nat.mod_eq_of_lt hp]
  simp

end Sys2Proof.Machine
end

section
/-! PROOFS, chapter 08 (tokens): what the release of an operation writes (R238, R242), and the timeout of a WAIT (R244) with what a start
fault discards and abandons (R79, R221). -/

namespace Sys2Proof.Machine

/-! ## Registers, tokens and pending marks (R238, R242) -/

theorem Lantern.tokDown_tok_only (l : Lantern) (t : Tok) : l.tokDown t = { l with tok := (l.tokDown t).tok } := by
  cases t <;> rfl

theorem Lantern.unpend_pendG_only (l : Lantern) (gs : List Nat) : l.unpend gs = { l with pendG := (l.unpend gs).pendG } :=
  foldl_rel (fun (a b : Lantern) => b = { a with pendG := b.pendG }) (fun _ => rfl) (fun a b c h1 h2 => by rw [h2, h1]) _ gs l
    fun _ _ _ => rfl

/-- The Lantern b is a with tokens and registers released. -/
def Lantern.Freed (a b : Lantern) : Prop := b = { a with tok := b.tok, pendG := b.pendG }

theorem Lantern.Freed.trans {a b c : Lantern} (h1 : a.Freed b) (h2 : b.Freed c) : a.Freed c := by
  unfold Lantern.Freed at *
  rw [h2, h1]

/-- Discarded operations release tokens and registers, and the Lantern is otherwise as it was. -/
theorem Lantern.discard_freed (l : Lantern) (ops : List SlotOp) : l.Freed (l.discard ops) :=
  foldl_rel Lantern.Freed (fun _ => rfl) (fun _ _ _ => .trans) _ ops l fun a o _ => by
    unfold Lantern.Freed
    rw [Lantern.unpend_pendG_only, Lantern.tokDown_tok_only]

/-- A release takes 1 from the count of its own token, unless that is 0. -/
theorem Lantern.tokDown_get (l : Lantern) (t : Tok) (n : Fin 64) :
    (l.tokDown t).tok[n.val] = if t = some (BitVec.ofNat 6 n.val) ∧ l.tok[n.val] ≠ 0 then l.tok[n.val] - 1 else l.tok[n.val] := by
  cases t with
  | none => simp [Lantern.tokDown]
  | some t =>
    have ht : t = BitVec.ofNat 6 n.val ↔ t.toNat = n.val := by
      rw [← BitVec.toNat_inj, BitVec.toNat_ofNat, Nat.mod_eq_of_lt n.isLt]
    simp only [Lantern.tokDown, Vector.getElem_set, Option.some.injEq, ht]
    by_cases h : t.toNat = n.val
    · simp only [h, if_true, true_and]
      by_cases h0 : l.tok[n.val] = 0#6 <;> simp [h0]
    · simp [h]

/-- The registers named, and no others, stop being pending. -/
theorem Lantern.unpend_get (l : Lantern) (gs : List Nat) (n : Fin 64) :
    (l.unpend gs).pendG.getLsbD n.val = (l.pendG.getLsbD n.val && !gs.contains n.val) := by
  induction gs generalizing l with
  | nil => simp [Lantern.unpend]
  | cons g gs ih =>
    have hg : (BitVec.ofNat 64 (2 ^ g)).getLsbD n.val = decide (g = n.val) := by
      rw [BitVec.getLsbD_ofNat, Nat.testBit_two_pow]
      simp
    have hl : (l.unpend (g :: gs)) = ({ l with pendG := l.pendG &&& ~~~ (BitVec.ofNat 64 (2 ^ g)) } : Lantern).unpend gs := rfl
    rw [hl, ih]
    simp only [BitVec.getLsbD_and, BitVec.getLsbD_not, hg, n.isLt, List.contains_cons, decide_true, Bool.true_and]
    by_cases h : n.val = g
    · simp [h]
    · simp [beq_false_of_ne h, Ne.symm h]

/-- The Lantern with the g-register results of an operation written (R238). -/
def Lantern.withResults (l : Lantern) (rs : List (Nat × W64)) : Lantern := rs.foldl (fun l v => l.setG (BitVec.ofNat 6 v.1) v.2) l

theorem Lantern.withResults_g_only (l : Lantern) (rs : List (Nat × W64)) : l.withResults rs = { l with g := (l.withResults rs).g } :=
  foldl_rel (fun (a b : Lantern) => b = { a with g := b.g }) (fun _ => rfl) (fun a b c h1 h2 => by rw [h2, h1]) _ rs l fun _ _ _ => rfl

theorem Lantern.setG_get (l : Lantern) (v : W64) {r : Nat} (n : Fin 64) (hr : r < 64) :
    (l.setG (BitVec.ofNat 6 r) v).g[n.val] = if r = n.val then v else l.g[n.val] := by
  have hr' : (BitVec.ofNat 6 r).toNat = r := by rw [BitVec.toNat_ofNat, Nat.mod_eq_of_lt hr]
  simp only [Lantern.setG, Vector.getElem_set, hr']

/-- A register that no result names stays. -/
theorem Lantern.withResults_get_other (l : Lantern) (rs : List (Nat × W64)) (n : Fin 64) (hlt : ∀ v ∈ rs, v.1 < 64)
    (hn : n.val ∉ rs.map Prod.fst) : (l.withResults rs).g[n.val] = l.g[n.val] := by
  induction rs generalizing l with
  | nil => rfl
  | cons r rs ih =>
    obtain ⟨hr, hrs⟩ : n.val ≠ r.1 ∧ n.val ∉ rs.map Prod.fst := by simpa using hn
    have hl : l.withResults (r :: rs) = (l.setG (BitVec.ofNat 6 r.1) r.2).withResults rs := rfl
    rw [hl, ih _ (fun v hv => hlt v (by simp [hv])) hrs, Lantern.setG_get _ _ _ (hlt r (by simp)), if_neg (Ne.symm hr)]

/-- A register that one result names holds it. -/
theorem Lantern.withResults_get (l : Lantern) (rs : List (Nat × W64)) (n : Fin 64) (hlt : ∀ v ∈ rs, v.1 < 64)
    (hnd : (rs.map Prod.fst).Nodup) {v : W64} (hv : (n.val, v) ∈ rs) : (l.withResults rs).g[n.val] = v := by
  induction rs generalizing l with
  | nil => simp at hv
  | cons r rs ih =>
    obtain ⟨hr, hrs⟩ : r.1 ∉ rs.map Prod.fst ∧ (rs.map Prod.fst).Nodup := List.nodup_cons.1 hnd
    have hlt' : ∀ w ∈ rs, w.1 < 64 := fun w hw => hlt w (by simp [hw])
    have hl : l.withResults (r :: rs) = (l.setG (BitVec.ofNat 6 r.1) r.2).withResults rs := rfl
    rw [hl]
    rcases List.mem_cons.1 hv with rfl | hv
    · rw [Lantern.withResults_get_other _ _ _ hlt' hr, Lantern.setG_get _ _ _ n.isLt, if_pos rfl]
    · exact ih _ hlt' hrs hv

/-! ## Queued and running operations dropped (R221, R242) -/

theorem State.tagSettle_sh (s : State) (sh : ShadeIx) :
    (s.tagSettle sh).sh sh = { s.sh sh with tag := ((s.tagSettle sh).sh sh).tag } := by
  unfold State.tagSettle
  split
  · rfl
  · extract_lets gone lost ws s1
    split
    · rw [(State.shadeRecord_reports _ _ _ _).sh, State.sh_modSh_same]
      rfl
    · rfl

theorem State.discardQueue_sh (s : State) (sh : ShadeIx) : (s.discardQueue sh).sh sh = { s.sh sh with
    queue := [], lan := (s.sh sh).lan.discard ((s.sh sh).queue.map fun o => o.op), tag := ((s.discardQueue sh).sh sh).tag } := by
  unfold State.discardQueue
  rw [State.tagSettle_sh]
  unfold State.countLant
  rw [(CountsOn.count _ _ _ _ _).sh, State.sh_modSh_same]

theorem State.dropRunning_sh (s : State) (sh : ShadeIx) (f : QOp → Bool) : (s.dropRunning sh f).sh sh = { s.sh sh with
    running := (s.sh sh).running.filter fun r => !f r.q
    lan := (s.sh sh).lan.discard (((s.sh sh).running.filter fun r => f r.q).map fun r => r.q.op)
    tag := ((s.dropRunning sh f).sh sh).tag } := by
  unfold State.dropRunning
  rw [State.tagSettle_sh, State.sh_modSh_same]

/-! ## Passes abandoned (R79) -/

/-- A problem without a pass, an arming or groups. -/
def ProbSt.abandoned (z : ProbSt) : Prop := z.opened = none ∧ z.closed = [] ∧ z.arm = none ∧ z.mms = none ∧ z.groups = []

/-- Every problem of a tile is abandoned. -/
def TileSt.abandoned (t : TileSt) : Prop := ∀ i : Fin 4, (t.probs[i.val]).abandoned

theorem TileSt.abandon_abandoned (t : TileSt) : t.abandon.abandoned := by
  intro i
  simp [TileSt.abandon, ProbSt.abandoned]

/-- Between s and t tiles change, and what has been abandoned stays so. -/
structure Abandons (s t : State) : Prop where
  tiles_only : t = { s with tiles := t.tiles }
  kept : ∀ p i, (s.tile p i).abandoned → (t.tile p i).abandoned

theorem Abandons.refl (s : State) : Abandons s s := ⟨rfl, fun _ _ h => h⟩

theorem Abandons.trans {s t u : State} (h1 : Abandons s t) (h2 : Abandons t u) : Abandons s u :=
  ⟨by rw [h2.tiles_only, h1.tiles_only], fun p i h => h2.kept p i (h1.kept p i h)⟩

theorem Abandons.modTile (s : State) (p i : Nat) : Abandons s (s.modTile p i TileSt.abandon) := by
  refine ⟨rfl, fun p' i' h => ?_⟩
  by_cases hk : tileKey p' i' = tileKey p i
  · have : (s.modTile p i TileSt.abandon).tile p' i' = (s.tile p i).abandon := by
      unfold State.tile
      rw [hk]
      exact s.tile_modTile_same p i _
    rw [this]
    exact TileSt.abandon_abandoned _
  · rwa [s.tile_modTile_ne _ hk]

/-- What one turn of a fold abandons is abandoned after it. -/
theorem Abandons.foldl_mem {α : Type} {f : State → α → State} {p i : Nat} {l : List α} (h : ∀ u a, Abandons u (f u a)) {a : α}
    (ha : a ∈ l) (hf : ∀ u, ((f u a).tile p i).abandoned) (s : State) : ((l.foldl f s).tile p i).abandoned := by
  obtain ⟨l1, l2, rfl⟩ := List.append_of_mem ha
  rw [List.foldl_append, List.foldl_cons]
  exact (foldl_rel Abandons .refl (fun _ _ _ => .trans) f l2 _ fun u b _ => h u b).kept p i (hf _)

/-- Every tile of a shade's prisms abandons its passes. -/
def State.abandonTiles (s : State) (sh : ShadeIx) : State :=
  (s.prismsOf sh).foldl (fun s p => (List.range 8).foldl (fun s i => s.modTile p i TileSt.abandon) s) s

theorem Abandons.prism (s : State) (p : Nat) : Abandons s ((List.range 8).foldl (fun s i => s.modTile p i TileSt.abandon) s) :=
  foldl_rel Abandons .refl (fun _ _ _ => .trans) _ _ _ fun u i _ => .modTile u p i

theorem State.abandonTiles_abandons (s : State) (sh : ShadeIx) : Abandons s (s.abandonTiles sh) :=
  foldl_rel Abandons .refl (fun _ _ _ => .trans) _ _ _ fun u p _ => .prism u p

theorem State.abandonTiles_tile (s : State) (sh : ShadeIx) {p i : Nat} (hp : p ∈ s.prismsOf sh) (hi : i < 8) :
    ((s.abandonTiles sh).tile p i).abandoned :=
  Abandons.foldl_mem Abandons.prism hp (fun u => Abandons.foldl_mem (fun u i => .modTile u p i) (List.mem_range.2 hi)
    (fun u => by rw [u.tile_modTile_same]; exact TileSt.abandon_abandoned _) u) s

theorem State.abandonArray_notes (s : State) (sh : ShadeIx) : Notes sh (s.abandonTiles sh) (s.abandonArray sh) :=
  (Notes.modSh _ _).trans (.dropRunning _ _)

/-- The operations of the arrays leave the shade's list of running ones, their tokens and registers released. -/
theorem State.abandonArray_sh (s : State) (sh : ShadeIx) :
    ((s.abandonArray sh).sh sh).queue = (s.sh sh).queue
    ∧ ((s.abandonArray sh).sh sh).running = ((s.sh sh).running.filter fun r => !r.q.isArray)
    ∧ (s.sh sh).lan.Freed ((s.abandonArray sh).sh sh).lan := by
  have hsh : (s.abandonTiles sh).sh sh = s.sh sh := State.sh_congr sh (by rw [(s.abandonTiles_abandons sh).tiles_only])
  have heq : s.abandonArray sh = ((s.abandonTiles sh).modSh sh fun x => { x with
      combines := [], partials := [], prismPartials := [] }).dropRunning sh QOp.isArray := rfl
  rw [heq, State.dropRunning_sh, State.sh_modSh_same, hsh]
  exact ⟨rfl, rfl, Lantern.discard_freed _ _⟩

/-! ## A start or access fault (R221) -/

/-- The fault is written and the LANT source signalled, then the tiles abandon their passes; the rest is reports and the shade's own change. -/
theorem State.stopFault_parts (s : State) (sh : ShadeIx) (code : Nat) (c : FClass) (src : FSrc) (h : (s.sh sh).life < 2) :
    ∃ u, Notes sh (s.faultWritten sh code c src) u ∧ s.signals u (shadeSrc sh 0)
      ∧ Notes sh (u.abandonTiles sh) (s.stopFault sh code c src) := by
  obtain ⟨hnotes, hsig⟩ := s.faultHalt sh code c src h
  have hdrop := Notes.discardQueue (sh := sh) ((s.recordFault sh code c src).halt sh)
  exact ⟨_, hnotes.trans hdrop, fun hp => hdrop.pend (hsig hp), State.abandonArray_notes _ sh⟩

/-- The shade halts, nothing waits in its queues, and of its running operations only those of the arrays are dropped. -/
theorem State.stopFault_sh (s : State) (sh : ShadeIx) (code : Nat) (c : FClass) (src : FSrc) :
    ((s.stopFault sh code c src).sh sh).queue = []
    ∧ ((s.stopFault sh code c src).sh sh).running = ((s.sh sh).running.filter fun r => !r.q.isArray)
    ∧ Lantern.Freed { (s.sh sh).lan with halted := true, stopReq := false, waitSince := none } ((s.stopFault sh code c src).sh sh).lan := by
  obtain ⟨hqueue, hrunning, hlan⟩ := State.abandonArray_sh (((s.recordFault sh code c src).halt sh).discardQueue sh) sh
  refine ⟨?_, ?_, ?_⟩
  · exact hqueue.trans (by rw [State.discardQueue_sh])
  · refine hrunning.trans ?_
    rw [State.discardQueue_sh]
    simp only [(State.halt_ops _ _).2, State.recordFault_sh]
  · refine Lantern.Freed.trans ?_ hlan
    rw [State.discardQueue_sh]
    simp only [State.halt_lan, State.recordFault_sh]
    exact Lantern.discard_freed _ _

/-- What a start or access fault shows and leaves alone. -/
theorem State.stopFault_device (s : State) (sh : ShadeIx) (code : Nat) (c : FClass) (src : FSrc) (h : (s.sh sh).life < 2) :
    s.signals (s.stopFault sh code c src) (shadeSrc sh 0) ∧ s.otherShades (s.stopFault sh code c src) sh
    ∧ (s.stopFault sh code c src).mem = s.mem
    ∧ (∀ o, 0xC0 ≤ o → o < 4096 → (s.stopFault sh code c src).getR .lant (shInst sh) o
        = (s.faultWritten sh code c src).getR .lant (shInst sh) o)
    ∧ ∀ p ∈ s.prismsOf sh, ∀ i, i < 8 → ((s.stopFault sh code c src).tile p i).abandoned := by
  obtain ⟨u, hu, hsig, ht⟩ := s.stopFault_parts sh code c src h
  have hab := u.abandonTiles_abandons sh
  have hw := s.faultWritten_reports sh code c src
  refine ⟨fun hp => ht.pend ?_, fun z hz => ?_, ?_, fun o ho ho' => ?_, fun p hp i hi => ?_⟩
  · rw [hab.tiles_only]
    exact hsig hp
  · rw [ht.others z hz, State.sh_congr z (show (u.abandonTiles sh).shades = u.shades by rw [hab.tiles_only]), hu.others z hz, hw.sh]
  · rw [ht.mem, hab.tiles_only, hu.mem, hw.mem]
  · rw [ht.getR (by decide) (by decide) (shInst_lt sh) ho ho',
      State.getR_congr _ _ _ (show (u.abandonTiles sh).regs = u.regs by rw [hab.tiles_only]),
      hu.getR (by decide) (by decide) (shInst_lt sh) ho ho']
  · rw [ht.tile]
    refine u.abandonTiles_tile sh ?_ hi
    rw [hu.prismsOf, State.faultWritten_prismsOf]
    exact hp

/-! ## The release of a token (R242) -/

theorem ShadeSt.releasable_none {x : ShadeSt} (h : ∀ r ∈ x.running, r.done = false) : x.releasable = none :=
  List.find?_eq_none.2 fun r hr => by simp [h r hr]

/-- The oldest complete operation is released first. -/
theorem ShadeSt.releasable_first {x : ShadeSt} {before after : List Running} {r : Running} (hx : x.running = before ++ r :: after)
    (hb : ∀ b ∈ before, b.done = false) (hr : r.done = true) : x.releasable = some r := by
  have hnone : before.find? (fun r => r.done) = none := List.find?_eq_none.2 fun b hm => by simp [hb b hm]
  unfold ShadeSt.releasable
  rw [hx, List.find?_append, hnone, Option.none_or, List.find?_cons_of_pos hr]

/-- Only the operation itself leaves a list without another of its number. -/
theorem filter_id_ne {before after : List Running} {r : Running} (h : ∀ b ∈ before ++ after, b.q.id ≠ r.q.id) :
    (before ++ r :: after).filter (fun y => y.q.id != r.q.id) = before ++ after := by
  have keep {l : List Running} (hl : ∀ b ∈ l, b ∈ before ++ after) : l.filter (fun y => y.q.id != r.q.id) = l :=
    List.filter_eq_self.2 fun b hb => by simpa using h b (hl b hb)
  rw [List.filter_append, List.filter_cons_of_neg (by simp), keep fun b hb => List.mem_append_left _ hb,
    keep fun b hb => List.mem_append_right _ hb]

/-- The Lantern after the release of an operation: results written, its token counted down, its registers free. -/
def Lantern.released (l : Lantern) (r : Running) : Lantern := ((l.withResults r.results).tokDown r.q.op.tok).unpend r.q.op.gAsync

theorem Lantern.released_only (l : Lantern) (r : Running) :
    l.released r = { l with g := (l.released r).g, tok := (l.released r).tok, pendG := (l.released r).pendG } := by
  unfold Lantern.released
  rw [Lantern.unpend_pendG_only, Lantern.tokDown_tok_only, Lantern.withResults_g_only]

theorem Lantern.released_g (l : Lantern) (r : Running) (n : Fin 64) : (l.released r).g[n.val] = (l.withResults r.results).g[n.val] := by
  unfold Lantern.released
  rw [Lantern.unpend_pendG_only, Lantern.tokDown_tok_only]

theorem Lantern.released_tok (l : Lantern) (r : Running) (n : Fin 64) : (l.released r).tok[n.val]
    = if r.q.op.tok = some (BitVec.ofNat 6 n.val) ∧ l.tok[n.val] ≠ 0 then l.tok[n.val] - 1 else l.tok[n.val] := by
  have htok : (l.released r).tok = ((l.withResults r.results).tokDown r.q.op.tok).tok := by
    unfold Lantern.released
    rw [Lantern.unpend_pendG_only]
  simp only [htok, Lantern.tokDown_get]
  rw [Lantern.withResults_g_only]

theorem Lantern.released_pendG (l : Lantern) (r : Running) (n : Fin 64) :
    (l.released r).pendG.getLsbD n.val = (l.pendG.getLsbD n.val && !r.q.op.gAsync.contains n.val) := by
  unfold Lantern.released
  rw [Lantern.unpend_get, Lantern.tokDown_tok_only, Lantern.withResults_g_only]

theorem State.modSh_congr (s : State) (sh : ShadeIx) {f g : ShadeSt → ShadeSt} (h : f (s.sh sh) = g (s.sh sh)) : s.modSh sh f = s.modSh sh g := by
  show { s with shades := s.shades.set sh.val (f (s.sh sh)) } = { s with shades := s.shades.set sh.val (g (s.sh sh)) }
  rw [h]

theorem State.release_eq (s : State) (sh : ShadeIx) {before after : List Running} {r : Running}
    (hx : (s.sh sh).running = before ++ r :: after) (hid : ∀ b ∈ before ++ after, b.q.id ≠ r.q.id) :
    s.release sh r = s.modSh sh fun _ => { s.sh sh with running := before ++ after, lan := (s.sh sh).lan.released r } := by
  refine s.modSh_congr sh ?_
  simp only [hx, filter_id_ne hid]
  rfl

/-! ## The timeout of a WAIT (R244) -/

theorem State.waitExpired_iff (s : State) (sh : ShadeIx) : s.waitExpired sh = true ↔ ∃ t0, (s.sh sh).lan.waitSince = some t0
    ∧ s.getF .lant (shInst sh) 0x118 23 0 ≠ 0 ∧ t0 + s.getF .lant (shInst sh) 0x118 23 0 * 1000 < s.tb.toNat := by
  unfold State.waitExpired
  cases (s.sh sh).lan.waitSince <;> simp

theorem State.tokenTimeout_early (s : State) (sh : ShadeIx) (h : s.waitExpired sh = false) : s.tokenTimeout sh = s := by
  unfold State.tokenTimeout
  rw [if_pos (by simp [h])]

theorem State.tokenTimeout_due (s : State) (sh : ShadeIx) (hi : (s.sh sh).issues = true) (h : s.waitExpired sh = true) :
    s.tokenTimeout sh = s.stopFault sh F_TOKEN_TIMEOUT .start ⟨0, (s.sh sh).lan.pc.toNat, s.leadP sh, 0⟩ := by
  unfold State.tokenTimeout
  rw [if_neg (by simp [hi, h])]

/-- A shade that issues is in service. -/
theorem ShadeSt.life_of_issues {x : ShadeSt} (h : x.issues = true) : x.life < 2 := by
  unfold ShadeSt.issues ShadeSt.unitsRun at h
  simp only [Bool.and_eq_true, beq_iff_eq] at h
  omega

/-- Settles O14: the release by what it writes of the Lantern; the timeout as a start fault, by its parts. -/
theorem tokens : Obligations.Tokens := by
  refine ⟨?_, ?_⟩
  · intro s sh x l
    refine ⟨fun hnone => ?_, ?_⟩
    · show execTokenRelease sh s = _
      unfold execTokenRelease
      rw [ShadeSt.releasable_none hnone]
    · intro before after r hx hb hr hid hnd hlt
      have hex : exec (.tokenRelease sh) s = .next (s.release sh r) := by
        show execTokenRelease sh s = _
        unfold execTokenRelease
        rw [ShadeSt.releasable_first hx hb hr]
      refine ⟨_, hex, ?_⟩
      rw [s.release_eq sh hx hid, State.sh_modSh_same]
      refine ⟨rfl, l.released_only r, fun n => ⟨fun v hv => ?_, fun hv => ?_, l.released_tok r n, l.released_pendG r n⟩⟩
      · exact (l.released_g r n).trans (l.withResults_get _ n hlt hnd hv)
      · refine (l.released_g r n).trans (l.withResults_get_other _ n hlt fun hm => ?_)
        obtain ⟨w, hw, hwn⟩ := List.mem_map.1 hm
        exact hv w.2 (hwn ▸ hw)
  · intro s sh x us
    refine ⟨fun h => ?_, ?_⟩
    · refine congrArg Host.Outcome.next (s.tokenTimeout_early sh ?_)
      rw [Bool.eq_false_iff, ne_eq, State.waitExpired_iff]
      rintro ⟨t0, hw, hus, hlt⟩
      rcases h t0 hw with h0 | h0
      · exact hus h0
      · exact absurd hlt (Nat.not_lt.2 h0)
    · intro t0 hi hw hus hlt
      have hlife := ShadeSt.life_of_issues hi
      obtain ⟨hqueue, hrunning, hlan⟩ := s.stopFault_sh sh F_TOKEN_TIMEOUT .start ⟨0, x.lan.pc.toNat, s.leadP sh, 0⟩
      obtain ⟨hsig, hothers, hmem, hregs, htiles⟩ := s.stopFault_device sh F_TOKEN_TIMEOUT .start ⟨0, x.lan.pc.toNat, s.leadP sh, 0⟩ hlife
      refine ⟨_, congrArg Host.Outcome.next (s.tokenTimeout_due sh hi ((s.waitExpired_iff sh).2 ⟨t0, hw, hus, hlt⟩)), ?_⟩
      refine ⟨by rw [hlan], hqueue, hrunning, by rw [hlan], by rw [hlan], fun hv => ⟨?_, ?_⟩, hsig, hothers, hmem, htiles⟩
      · rw [hregs _ (by omega) (by omega), (s.faultWritten_first sh _ _ _ hv).1]
        simp [F_TOKEN_TIMEOUT, FClass.code]
      · rw [hregs _ (by omega) (by omega), s.faultWritten_at_pc sh _ _ _ hv]

end Sys2Proof.Machine
end

section
/-! PROOFS, chapter 08 (fetch): what the store's bytes hold (R215), that a slot that holds leaves no trace in its bundle (R216, R217), and what
fetch does where it can not issue (R226, R227). -/

namespace Sys2Proof.Machine

/-! ## What decodes is not reserved (R219, R220) -/

/-- An operation that decodes is none that the decode check refuses. -/
def SlotDec.sound : SlotDec → Prop
  | .ok _ o => o.rsvd = false
  | _ => True

theorem decUse_sound {op : Option SlotOp} (w : Nat) (fs : List (Nat × Nat)) (h : ∀ o ∈ op, o.rsvd = false) : (decUse w fs op).sound := by
  unfold decUse
  cases op with
  | none => trivial
  | some o =>
    dsimp only
    split
    · exact h o rfl
    · trivial

theorem decUse_some_sound {o : SlotOp} (w : Nat) (fs : List (Nat × Nat)) (h : o.rsvd = false) : (decUse w fs (some o)).sound :=
  decUse_sound w fs fun _ ho => Option.some.inj ho ▸ h

theorem decUse_map_sound {α : Type} {f : α → SlotOp} {m : Option α} (w : Nat) (fs : List (Nat × Nat)) (h : ∀ a ∈ m, (f a).rsvd = false) :
    (decUse w fs (m.map f)).sound :=
  decUse_sound w fs fun o ho => by
    obtain ⟨a, ha, rfl⟩ := Option.map_eq_some_iff.1 ho
    exact h a ha

/-- A field's value as a word of its width. -/
theorem toNat_ofNat_bitsOf (w lo : Nat) {n hi : Nat} (h : hi + 1 - lo = n) : (BitVec.ofNat n (bitsOf w hi lo)).toNat = bitsOf w hi lo := by
  subst h
  rw [BitVec.toNat_ofNat, Nat.mod_eq_of_lt (bitsOf_lt w hi lo)]

theorem ofNat_bitsOf_beq_zero {w lo n hi : Nat} (h : hi + 1 - lo = n) (h0 : bitsOf w hi lo ≠ 0) :
    (BitVec.ofNat n (bitsOf w hi lo) == 0) = false :=
  beq_false_of_ne fun e => h0 (by rw [← toNat_ofNat_bitsOf w lo h, e]; simp)

theorem decCtl_sound (w : Nat) : (decCtl w).sound := by
  unfold decCtl
  split
  · split
    · exact decUse_some_sound _ _ rfl
    · exact decUse_some_sound _ _ rfl
    · trivial
  · exact decUse_map_sound _ _ fun _ _ => rfl
  · split
    · exact decUse_some_sound _ _ rfl
    · exact decUse_some_sound _ _ rfl
    · exact decUse_some_sound _ _ rfl
    · trivial
  · exact decUse_some_sound _ _ rfl
  · exact decUse_some_sound _ _ rfl
  · exact decUse_map_sound _ _ fun _ _ => rfl
  · refine decUse_sound _ _ fun o ho => ?_
    split at ho
    · split at ho
      · cases ho
      · next n _ hn =>
        cases ho
        simpa [SlotOp.rsvd] using hn
    · next c hc _ =>
      cases ho
      cases c with
      | imm n => exact absurd rfl (hc n)
      | reg g => rfl
    · cases ho
  · split
    · trivial
    · next h =>
      refine decUse_some_sound _ _ ?_
      simp only [SlotOp.rsvd, toNat_ofNat_bitsOf w 0 (hi := 2) rfl, h, decide_false]
  · trivial

/-- PD of a compare that decodes is not 0 (R239). -/
theorem decPd_ne_zero {w : Nat} {pd : BitVec 4} (h : pd ∈ decPd w) : (pd == 0) = false := by
  unfold decPd at h
  split at h
  · next hc =>
    cases h
    exact ofNat_bitsOf_beq_zero rfl hc.2
  · cases h

/-- A descriptor reference that decodes names a tile, and one only in an RDD (R240). -/
theorem decDesc_sound {w : Nat} {isWrite : Bool} {d : DescRef} (h : d ∈ decDesc w isWrite) : d.rsvd isWrite = false := by
  unfold decDesc at h
  extract_lets num word tiles at h
  have htiles : (BitVec.ofNat 8 tiles).toNat = tiles := toNat_ofNat_bitsOf w 7 rfl
  split at h
  · split at h <;> cases h; rfl
  · split at h <;> cases h; rfl
  · split at h <;> cases h; rfl
  · split at h <;> cases h; rfl
  · rw [Option.mem_def, Option.ite_none_right_eq_some] at h
    obtain ⟨⟨-, ht⟩, hd⟩ := h
    cases hd
    cases isWrite with
    | true => exact ofNat_bitsOf_beq_zero rfl (by simpa using ht)
    | false => simpa [DescRef.rsvd, htiles] using ht
  · cases h

theorem decScalar_sound (w : Nat) : (decScalar w).sound := by
  unfold decScalar
  extract_lets gd ga gb imm
  split
  case h_15 | h_16 =>
    refine decUse_sound _ _ fun o ho => ?_
    obtain ⟨pd, hpd, ho⟩ := Option.bind_eq_some_iff.1 ho
    obtain ⟨c, -, ho⟩ := Option.bind_eq_some_iff.1 ho
    cases ho
    exact decPd_ne_zero hpd
  case h_17 =>
    refine decUse_sound _ _ fun o ho => ?_
    obtain ⟨pd, hpd, ho⟩ := Option.bind_eq_some_iff.1 ho
    cases ho
    exact decPd_ne_zero hpd
  case h_18 | h_19 => exact decUse_map_sound _ _ fun _ _ => rfl
  case h_20 | h_21 => exact decUse_map_sound _ _ fun _ hd => decDesc_sound hd
  case h_22 =>
    refine decUse_sound _ _ fun o ho => ?_
    split at ho
    · cases ho
      rfl
    · cases ho
  case h_23 => trivial
  all_goals exact decUse_some_sound _ _ rfl

theorem decArray_sound (w : Nat) : (decArray w).sound := by
  unfold decArray
  extract_lets mk
  have made {o : ArrayOpc} (h : (o == .zero && BitVec.ofNat 5 (bitsOf w 41 37) != 0) = false) : (mk o).sound := by
    show (if _ then SlotDec.rsvd else _).sound
    split
    · trivial
    · next ht => exact decUse_map_sound _ _ fun t _ => by simp only [SlotOp.rsvd, ofNat_bitsOf_beq_zero rfl ht, h, Bool.or_self]
  split
  · exact made rfl
  · exact made rfl
  · exact made rfl
  · exact made rfl
  · split
    · next h => exact made (by rw [h]; rfl)
    · trivial
  · trivial

theorem decLens_sound (w : Nat) : (decLens w).sound := by
  unfold decLens
  extract_lets mk
  split
  · split
    · next h => exact decUse_map_sound _ _ fun t _ => by simp [SlotOp.rsvd, decG, h]
    · trivial
  · exact decUse_map_sound _ _ fun _ _ => rfl
  · trivial

theorem decFocus_sound (w : Nat) : (decFocus w).sound := by
  unfold decFocus
  extract_lets mk
  have made (o : FocusOpc) : (mk o).sound := decUse_map_sound _ _ fun _ _ => rfl
  split
  · exact made _
  · exact made _
  · exact made _
  · exact made _
  · exact made _
  · trivial

theorem decMask_sound (w : Nat) : (decMask w).sound := by
  unfold decMask
  extract_lets mo g td tiles
  split
  · split
    · trivial
    · next h => exact decUse_map_sound _ _ fun _ _ => ofNat_bitsOf_beq_zero rfl h
  · exact decUse_map_sound _ _ fun _ _ => rfl
  · exact decUse_map_sound _ _ fun _ _ => rfl
  · exact decUse_some_sound _ _ rfl
  · exact decUse_map_sound _ _ fun _ _ => rfl
  · split
    · trivial
    · next h => exact decUse_some_sound _ _ (ofNat_bitsOf_beq_zero rfl h)
  · trivial

theorem decBeam_sound (w : Nat) : (decBeam w).sound := by
  unfold decBeam
  extract_lets beam bad g tdd
  have hbeam : beamRsvd (BitVec.ofNat 4 beam) = bad := by
    unfold beamRsvd
    rw [show (BitVec.ofNat 4 beam).toNat = beam from toNat_ofNat_bitsOf w 48 rfl]
  split
  · split
    · trivial
    · next h => exact decUse_map_sound _ _ fun _ _ => hbeam.trans (Bool.eq_false_iff.2 h)
  · split
    · trivial
    · next h => exact decUse_map_sound _ _ fun _ _ => hbeam.trans (Bool.eq_false_iff.2 h)
  · trivial

theorem decJorx_sound (w : Nat) : (decJorx w).sound := by
  unfold decJorx
  extract_lets td g grp tok
  split
  · exact decUse_map_sound _ _ fun _ _ => rfl
  · exact decUse_map_sound _ _ fun _ _ => rfl
  · exact decUse_map_sound _ _ fun _ _ => rfl
  · exact decUse_map_sound _ _ fun _ _ => rfl
  · split
    · trivial
    · next h =>
      refine decUse_sound _ _ fun o ho => ?_
      obtain ⟨t, -, ho⟩ := Option.bind_eq_some_iff.1 ho
      obtain ⟨r, -, ho⟩ := Option.bind_eq_some_iff.1 ho
      cases ho
      simpa [SlotOp.rsvd, g, decG, toNat_ofNat_bitsOf w 38 (hi := 43) rfl] using h
  · exact decUse_map_sound _ _ fun _ _ => rfl
  · trivial

theorem decSpk_sound (w : Nat) : (decSpk w).sound := by
  unfold decSpk
  extract_lets g gen
  split
  · exact decUse_some_sound _ _ rfl
  · refine decUse_sound _ _ fun o ho => ?_
    split at ho
    · cases ho
      rfl
    · cases ho
  · split
    · trivial
    · next h =>
      refine decUse_map_sound _ _ fun _ _ => ?_
      simpa [SlotOp.rsvd, g, decG, toNat_ofNat_bitsOf w 46 (hi := 51) rfl] using h
  · exact decUse_map_sound _ _ fun _ _ => rfl
  · trivial

theorem decTel_sound (w : Nat) : (decTel w).sound := by
  unfold decTel
  split
  · exact decUse_map_sound _ _ fun _ _ => rfl
  · exact decUse_some_sound _ _ rfl
  · exact decUse_map_sound _ _ fun _ _ => rfl
  · trivial

theorem decExt_sound (w : Nat) : (decExt w).sound := by
  unfold decExt
  split
  · split
    · next h =>
      obtain ⟨-, hlo, hhi⟩ := h
      refine decUse_some_sound _ _ ?_
      have h15 : (BitVec.ofNat 4 (bitsOf w 51 48) == 15) = false := beq_false_of_ne fun e => by
        have htarget := congrArg BitVec.toNat e
        rw [toNat_ofNat_bitsOf w 48 (hi := 51) rfl, show (15 : BitVec 4).toNat = 15 from rfl] at htarget
        omega
      simp only [SlotOp.rsvd, ofNat_bitsOf_beq_zero rfl (Nat.ne_of_gt hlo), h15, Bool.or_self]
    · trivial
  · trivial

/-- A slot that decodes holds an operation that the decode check lets pass. -/
theorem decodeSlot_sound (ix w : Nat) : (decodeSlot ix w).sound := by
  unfold decodeSlot
  split
  · split
    · rfl
    · trivial
  split
  · trivial
  split
  · exact decCtl_sound w
  · exact decScalar_sound w
  · exact decScalar_sound w
  · exact decArray_sound w
  · exact decArray_sound w
  · exact decLens_sound w
  · exact decLens_sound w
  · exact decFocus_sound w
  · exact decMask_sound w
  · exact decBeam_sound w
  · exact decBeam_sound w
  · exact decBeam_sound w
  · exact decJorx_sound w
  · exact decSpk_sound w
  · exact decTel_sound w
  · exact decExt_sound w

theorem decodeSlot_rsvd {ix w : Nat} {psel : BitVec 4} {o : SlotOp} (h : decodeSlot ix w = .ok psel o) : o.rsvd = false := by
  have := decodeSlot_sound ix w
  rwa [h] at this

/-! ## Slots that hold (R216, R217) -/

/-- A decoded slot that holds. -/
def SlotDec.holds : SlotDec → Bool
  | .ok _ .hold => true
  | _ => false

@[simp] theorem SlotDec.holds_ok (ps : BitVec 4) (o : SlotOp) : (SlotDec.ok ps o).holds = (o == .hold) := by cases o <;> rfl

/-- The slots that do not hold. -/
def dropHolds (ss : List Slot) : List Slot := ss.filter fun x => x.op != .hold

theorem decodedSlots_dropHolds (ds : List (Nat × SlotDec)) :
    decodedSlots (ds.filter fun d => !d.2.holds) = dropHolds (decodedSlots ds) := by
  unfold decodedSlots dropHolds
  rw [List.filterMap_filter, List.filter_filterMap]
  refine List.filterMap_congr fun d _ => ?_
  obtain ⟨ix, d⟩ := d
  cases d with
  | ok ps o => cases o <;> rfl
  | undef => rfl
  | rsvd => rfl

theorem actingSlots_dropHolds (l : Lantern) (ss : List Slot) : actingSlots l (dropHolds ss) = actingSlots l ss := by
  unfold actingSlots dropHolds
  rw [List.filter_filter]
  exact List.filter_congr fun x _ => by rw [Bool.and_assoc, Bool.and_self]

/-- What holds of no slot that holds is not found in one. -/
theorem any_dropHolds {p : Slot → Bool} (hp : ∀ x : Slot, x.op = .hold → p x = false) (ss : List Slot) : (dropHolds ss).any p = ss.any p := by
  unfold dropHolds
  rw [List.any_filter]
  refine congrArg (List.any ss) (funext fun x => ?_)
  by_cases h : x.op = .hold
  · simp [h, hp x h]
  · simp [h]

theorem issueWaits_dropHolds (x : ShadeSt) (ss as : List Slot) : x.issueWaits (dropHolds ss) as = x.issueWaits ss as := by
  have htok : tokensFree x.lan (dropHolds ss) = tokensFree x.lan ss := by
    unfold tokensFree
    rw [← Bool.not_inj_iff, List.not_all_eq_any_not, List.not_all_eq_any_not]
    exact any_dropHolds (fun y hy => by simp [hy, SlotOp.tok]) ss
  unfold ShadeSt.issueWaits tokensRoom
  rw [htok]

theorem bundleBad_dropHolds (g : BitVec 64) (r : Bool) (ss : List Slot) (x : Slot) : bundleBad g r (dropHolds ss) x = bundleBad g r ss x := by
  have writes (f : SlotOp → List Nat) (hf : f .hold = []) (n : Nat) :
      (((dropHolds ss).filter fun t => decide (x.ix < t.ix)).any fun t => (f t.op).contains n)
        = (ss.filter fun t => decide (x.ix < t.ix)).any fun t => (f t.op).contains n := by
    rw [dropHolds, List.filter_comm]
    exact any_dropHolds (fun y hy => by simp [hy, hf]) _
  have ext (t : BitVec 4) : ((dropHolds ss).any fun u => u.ix == t.toNat && u.op.extensible) = ss.any fun u => u.ix == t.toNat && u.op.extensible :=
    any_dropHolds (fun y hy => by simp [hy, SlotOp.extensible]) ss
  unfold bundleBad
  simp only [writes SlotOp.gWrites rfl, writes SlotOp.pWrites rfl, ext]

theorem bundleBad_hold (g : BitVec 64) (r : Bool) (ss : List Slot) (ix : Nat) (psel : BitVec 4) : bundleBad g r ss ⟨ix, psel, .hold⟩ = false := by
  simp [bundleBad, SlotOp.gWrites, SlotOp.pWrites]

theorem State.bundleFirst_dropHolds (s : State) (sh : ShadeIx) (ss : List Slot) (ds : List (Nat × SlotDec)) :
    s.bundleFirst sh (dropHolds ss) (ds.filter fun d => !d.2.holds) = s.bundleFirst sh ss ds := by
  induction ds with
  | nil => rfl
  | cons d ds ih =>
    obtain ⟨ix, d⟩ := d
    cases d with
    | undef => rfl
    | rsvd => rfl
    | ok ps o =>
      by_cases ho : o = .hold
      · subst ho
        rw [List.filter_cons_of_neg (by simp), ih]
        simp only [State.bundleFirst, bundleBad_hold]
        rfl
      · rw [List.filter_cons_of_pos (by simp [ho])]
        simp only [State.bundleFirst, bundleBad_dropHolds, ih]

theorem State.bundleMarks_dropHolds (s : State) (sh : ShadeIx) (ss : List Slot) : s.bundleMarks sh (dropHolds ss) = s.bundleMarks sh ss := by
  unfold State.bundleMarks dropHolds
  rw [List.foldl_filter]
  congr 1
  funext z x
  by_cases h : x.op = .hold
  · simp [h, State.opCheck, State.mkQ]
  · simp [h]

/-- A slot that holds leaves no trace in the issue of its bundle. -/
theorem State.issue_dropHolds (s : State) (sh : ShadeIx) (ds : List (Nat × SlotDec)) :
    s.issue sh (ds.filter fun d => !d.2.holds) = s.issue sh ds := by
  unfold State.issue
  simp only [decodedSlots_dropHolds, actingSlots_dropHolds, issueWaits_dropHolds, State.bundleFirst_dropHolds, State.bundleMarks_dropHolds]

/-- A bundle that holds in every slot only moves fetch on. -/
theorem State.issue_holds (s : State) (sh : ShadeIx) (ds : List (Nat × SlotDec)) (hd : ∀ d ∈ ds, d.2.holds = true)
    (hf : s.issuesFree sh 0 = true) : s.shadeBecomes sh { s.sh sh with lan := (s.sh sh).lan.issued (s.sh sh).lan none } (s.issue sh ds) := by
  have hnil : ds.filter (fun d => !d.2.holds) = [] := List.filter_eq_nil_iff.2 fun d hm => by simp [hd d hm]
  rw [← s.issue_dropHolds, hnil]
  obtain ⟨h, hh, hz⟩ := s.issue_plain sh [] [] 0 hf rfl rfl (by simp) rfl rfl rfl
  have hl : issuedLantern h sh [] = (s.sh sh).lan.issued (s.sh sh).lan none := by
    unfold issuedLantern
    rw [hh.sh]
    rfl
  rw [hl] at hz
  exact CountsOn.becomes hz

/-- Where at most one element of a list passes, only that one is left. -/
theorem filter_map_single {α β : Type} {l : List α} (hl : l.Nodup) {a : α} (ha : a ∈ l) (f : α → β) (p : β → Bool)
    (h : ∀ b ∈ l, b ≠ a → p (f b) = false) : (l.map f).filter p = [f a].filter p := by
  obtain ⟨l1, l2, rfl⟩ := List.append_of_mem ha
  have hnd := List.nodup_middle.1 hl
  obtain ⟨hna, -⟩ := List.nodup_cons.1 hnd
  have none {m : List α} (hm : ∀ b ∈ m, b ∈ l1 ++ l2) : (m.map f).filter p = [] := by
    refine List.filter_eq_nil_iff.2 fun c hc => ?_
    obtain ⟨b, hb, rfl⟩ := List.mem_map.1 hc
    have hbl := hm b hb
    simp [h b (by simp only [List.mem_append, List.mem_cons] at hbl ⊢; tauto) fun e => hna (e ▸ hbl)]
  rw [List.map_append, List.filter_append, List.map_cons, ← List.singleton_append, List.filter_append,
    none fun b hb => List.mem_append_left _ hb, none fun b hb => List.mem_append_right _ hb, List.nil_append, List.append_nil]

/-- A bundle that holds in every slot but one does what its operation does alone. -/
theorem State.issue_single (s : State) (sh : ShadeIx) (f : Nat → SlotDec) {ix : Nat} {psel : BitVec 4} {o : SlotOp} (hix : ix < 16)
    (hf : ∀ i, i < 16 → i ≠ ix → (f i).holds = true) (ho : f ix = .ok psel o) (hr : o.rsvd = false) :
    s.issue sh ((List.range 16).map fun i => (i, f i)) = s.issueOne sh ix psel o := by
  have hone : oneSlot ix psel o = (ix, f ix) := by simp [oneSlot, hr, ho]
  rw [← s.issue_dropHolds, filter_map_single List.nodup_range (List.mem_range.2 hix) _ _ fun i hi hne => by
    simp [hf i (List.mem_range.1 hi) hne], s.issue_dropHolds]
  unfold State.issueOne
  rw [hone]

/-! ## The bytes of a bundle (R7, R215) -/

theorem leNat_div (bs : List Byte) : ∀ n, leNat bs / 256 ^ n = leNat (bs.drop n) := by
  induction bs with
  | nil => intro n; simp [leNat]
  | cons b bs ih =>
    intro n
    cases n with
    | zero => simp
    | succ n =>
      have hb := b.isLt
      rw [List.drop_succ_cons, ← ih n, pow_succ', ← Nat.div_div_eq_div_mul]
      congr 1
      rw [leNat]
      omega

theorem leNat_mod (bs : List Byte) : ∀ n, leNat bs % 256 ^ n = leNat (bs.take n) := by
  induction bs with
  | nil => intro n; simp [leNat]
  | cons b bs ih =>
    intro n
    cases n with
    | zero => simp [leNat, Nat.mod_one]
    | succ n =>
      have hb := b.isLt
      have hdiv : (b.toNat + 256 * leNat bs) / 256 = leNat bs := by omega
      rw [List.take_succ_cons, leNat, leNat, ← ih n, pow_succ', Nat.mod_mul, hdiv]
      omega

/-- Eight bytes of a little-endian number are a field of 64 bits. -/
theorem bitsOf_leNat (bs : List Byte) (i : Nat) : bitsOf (leNat bs) (64 * i + 63) (64 * i) = leNat ((bs.drop (8 * i)).take 8) := by
  have h1 : (2 : Nat) ^ (64 * i) = 256 ^ (8 * i) := by rw [show (256 : Nat) = 2 ^ 8 from rfl, ← pow_mul]; congr 1; omega
  have h2 : 64 * i + 63 + 1 - 64 * i = 64 := by omega
  unfold bitsOf
  rw [h1, h2, leNat_div, ← leNat_mod, show (256 : Nat) ^ 8 = 2 ^ 64 from rfl]

theorem FMap.getList_eq {V : Type} (m : FMap V) (d : Nat → V) (k n : Nat) : m.getList d k n = (List.range n).map fun b => m.get d (k + b) := by
  induction n generalizing k with
  | zero => rfl
  | succ n ih =>
    rw [FMap.getList, ih, List.range_succ_eq_map, List.map_cons, List.map_map]
    refine congrArg _ (List.map_congr_left fun b _ => ?_)
    show m.get d (k + 1 + b) = m.get d (k + (b + 1))
    congr 1
    omega

theorem State.rdNat_bitsOf (s : State) (k : Nat) {i n : Nat} (h : 8 * i + 8 ≤ n) :
    s.rdNat (k + 8 * i) 8 = bitsOf (leNat ((List.range n).map fun b => s.rd (k + b))) (64 * i + 63) (64 * i) := by
  rw [bitsOf_leNat]
  unfold State.rdNat State.rdN
  rw [FMap.getList_eq]
  congr 1
  refine List.ext_getElem (by simp; omega) fun j h1 h2 => ?_
  simp [State.rd, Nat.add_assoc]

/-! ## Fetch (R224 to R227) -/

theorem decodeSlot_zero (ix : Nat) : decodeSlot ix 0 = .ok 0 .hold := by simp [decodeSlot, bitsOf]

theorem storeKey_add (p off b : Nat) : storeKey p (off + b) = storeKey p off + b := (Nat.add_assoc _ off b).symm

/-- Slot i of a bundle decodes word i. -/
theorem State.bundleAt_words (s : State) (sh : ShadeIx) (pc : Nat) : s.bundleAt sh pc
    = (List.range 16).map fun i => (i, decodeSlot i (s.rdNat (storeKey (s.leadP sh) (pc * 128 + 8 * i)) 8)) := rfl

/-- Slot i of a bundle decodes bits [64i + 63:64i] of its 128 bytes. -/
theorem State.bundleAt_bits (s : State) (sh : ShadeIx) (pc : Nat) : s.bundleAt sh pc = (List.range 16).map fun i => (i, decodeSlot i
    (bitsOf (leNat ((List.range 128).map fun b => s.rd (storeKey (s.leadP sh) (pc * 128 + b)))) (64 * i + 63) (64 * i))) := by
  rw [s.bundleAt_words]
  refine List.map_congr_left fun i hm => ?_
  have hi := List.mem_range.1 hm
  simp only [storeKey_add]
  rw [s.rdNat_bitsOf _ (n := 128) (by omega)]

theorem State.bundleEcc_none (s : State) (sh : ShadeIx) (pc : Nat)
    (h : ∀ i, i < 16 → s.eccAt (storeKey (s.leadP sh) (pc * 128 + 8 * i)) ≠ 2) : s.bundleEcc sh pc = none := by
  refine List.find?_eq_none.2 fun k hk => ?_
  obtain ⟨i, hi, rfl⟩ := List.mem_map.1 hk
  simpa using h i (List.mem_range.1 hi)

/-- A bundle in a valid frame, without an uncorrectable word, issues. -/
theorem State.fetchIssue_valid (s : State) (sh : ShadeIx) (hi : (s.sh sh).issues = true)
    (hv : (s.sh sh).lan.frames[((s.sh sh).lan.pc.extractLsb' 8 6).toNat].valid = true) (he : s.bundleEcc sh (s.sh sh).lan.pc.toNat = none) :
    s.fetchIssue sh = s.issue sh (s.bundleAt sh (s.sh sh).lan.pc.toNat) := by
  unfold State.fetchIssue
  simp only [hi, hv, he, Bool.not_true, Bool.false_eq_true, if_false, if_true]

theorem State.fetchIssue_idle (s : State) (sh : ShadeIx) (hi : (s.sh sh).issues = false) : s.fetchIssue sh = s := by
  unfold State.fetchIssue
  simp only [hi, Bool.not_false, if_true]

/-- A fetch from a frame that is not valid waits for its load, and is BOUND without one. -/
theorem State.fetchIssue_invalid (s : State) (sh : ShadeIx) (hi : (s.sh sh).issues = true)
    (hv : (s.sh sh).lan.frames[((s.sh sh).lan.pc.extractLsb' 8 6).toNat].valid = false) :
    s.fetchIssue sh = if (s.sh sh).lan.frames[((s.sh sh).lan.pc.extractLsb' 8 6).toNat].loading then s.issueHeld sh 2 else s.fetchFault sh := by
  unfold State.fetchIssue
  simp only [hi, hv, Bool.not_true, Bool.false_eq_true, if_false]

/-- A cycle that waits counts, and no more. -/
theorem State.issueHeld_becomes (s : State) (sh : ShadeIx) (ev : Nat) : s.shadeBecomes sh (s.sh sh) (s.issueHeld sh ev) := by
  apply CountsOn.becomes
  rw [s.modSh_id sh _ rfl]
  exact s.issueHeld_counts sh ev

/-- A fault of a bundle halts the Lantern with LANT_PC at it, is recorded, and leaves the rest of the device (R220, R222). -/
theorem State.bundleFault_device (s : State) (sh : ShadeIx) (c : FClass) (f : SlotFault) (h : (s.sh sh).life < 2) :
    ((s.bundleFault sh c f).sh sh).lan = { (s.sh sh).lan with halted := true, stopReq := false, waitSince := none }
    ∧ s.signals (s.bundleFault sh c f) (shadeSrc sh 0) ∧ s.reportsIn (s.bundleFault sh c f) ∧ s.otherShades (s.bundleFault sh c f) sh
    ∧ ∀ o, 0xC0 ≤ o → o < 4096 → (s.bundleFault sh c f).getR .lant (shInst sh) o
        = (s.faultWritten sh f.code c ⟨f.slot, (s.sh sh).lan.pc.toNat, s.leadP sh, 0⟩).getR .lant (shInst sh) o := by
  have hw := s.faultWritten_reports sh f.code c ⟨f.slot, (s.sh sh).lan.pc.toNat, s.leadP sh, 0⟩
  obtain ⟨hnotes, hsig⟩ := s.faultHalt sh f.code c ⟨f.slot, (s.sh sh).lan.pc.toNat, s.leadP sh, 0⟩ h
  refine ⟨?_, hsig, ?_, fun z hz => (hnotes.others z hz).trans (hw.sh z),
    fun o ho ho' => hnotes.getR (by decide) (by decide) (shInst_lt sh) ho ho'⟩
  · unfold State.bundleFault
    rw [State.halt_lan, State.recordFault_sh]
  · have hframe := hnotes.frame
    unfold State.bundleFault
    unfold State.reportsIn Reports at *
    rw [hframe, hw]

/-- A bundle of words that are all 0 but one. -/
theorem State.issue_bundleAt_single (s : State) (sh : ShadeIx) (pc : Nat) {ix : Nat} {psel : BitVec 4} {o : SlotOp} (hix : ix < 16)
    (hz : ∀ i, i < 16 → i ≠ ix → s.rdNat (storeKey (s.leadP sh) (pc * 128 + 8 * i)) 8 = 0)
    (ho : decodeSlot ix (s.rdNat (storeKey (s.leadP sh) (pc * 128 + 8 * ix)) 8) = .ok psel o) :
    s.issue sh (s.bundleAt sh pc) = s.issueOne sh ix psel o := by
  rw [s.bundleAt_words]
  refine s.issue_single sh (fun i => decodeSlot i (s.rdNat (storeKey (s.leadP sh) (pc * 128 + 8 * i)) 8)) hix
    (fun i hi hne => ?_) ho (decodeSlot_rsvd ho)
  simp only [hz i hi hne, decodeSlot_zero]
  rfl

/-- A bundle of words that are all 0. -/
theorem State.issue_bundleAt_zero (s : State) (sh : ShadeIx) (pc : Nat)
    (hz : ∀ i, i < 16 → s.rdNat (storeKey (s.leadP sh) (pc * 128 + 8 * i)) 8 = 0) (hf : s.issuesFree sh 0 = true) :
    s.shadeBecomes sh { s.sh sh with lan := (s.sh sh).lan.issued (s.sh sh).lan none } (s.issue sh (s.bundleAt sh pc)) := by
  refine s.issue_holds sh _ (fun d hd => ?_) hf
  rw [s.bundleAt_words] at hd
  obtain ⟨i, hm, rfl⟩ := List.mem_map.1 hd
  simp only [hz i (List.mem_range.1 hm), decodeSlot_zero]
  rfl

/-- Settles O11: a valid frame by the bytes of its bundle and the slots that do not hold; one that is not by what fetch does instead. -/
theorem bundleFetch : Obligations.BundleFetch := by
  refine ⟨?_, ?_⟩
  · intro s sh l key bundle hi hv he
    have hex : exec (.bundleIssue sh) s = .next (s.issue sh (s.bundleAt sh l.pc.toNat)) :=
      congrArg Host.Outcome.next (s.fetchIssue_valid sh hi hv (s.bundleEcc_none sh _ he))
    refine ⟨?_, fun hz hf => ⟨_, hex, s.issue_bundleAt_zero sh _ hz hf⟩, fun ix psel o hix hz ho => ?_⟩
    · rw [hex, s.bundleAt_bits]
    · rw [hex, s.issue_bundleAt_single sh _ hix hz ho]
  · intro s sh l
    refine ⟨fun hi => congrArg Host.Outcome.next (s.fetchIssue_idle sh hi), fun hi hv => ?_⟩
    have hfetch := s.fetchIssue_invalid sh hi hv
    refine ⟨fun hload => ⟨_, congrArg Host.Outcome.next (hfetch.trans (if_pos hload)), s.issueHeld_becomes sh 2⟩, fun hload => ?_⟩
    obtain ⟨hlan, hsig, hrep, hothers, hregs⟩ := s.bundleFault_device sh .issue ⟨15, F_BOUND⟩ (ShadeSt.life_of_issues hi)
    refine ⟨_, congrArg Host.Outcome.next (hfetch.trans (if_neg (Bool.eq_false_iff.1 hload))), hlan, hsig, hrep,
      hothers, fun hfirst => ⟨?_, ?_⟩, fun hlater => ?_⟩
    · refine (hregs _ (by omega) (by omega)).trans ((s.faultWritten_first sh _ _ _ hfirst).1.trans ?_)
      simp [F_BOUND, FClass.code]
    · exact (hregs _ (by omega) (by omega)).trans (s.faultWritten_at_pc sh _ _ _ hfirst)
    · exact (hregs _ (by omega) (by omega)).trans (by rw [s.faultWritten_later sh _ _ _ hlater])

end Sys2Proof.Machine
end

section
/-! PROOFS, chapter 13 (messages on the links): what the flits of a message change and what routing reads (R357, R366, R386), and what
becomes of a message that arrives (R359, R360, R363, R366). -/

namespace Sys2Proof.Machine

/-! ## Flits and their counts (R357, R386)

Flits that come and go change ports and event counters. Identity, epoch, routing tables and the states of the ports stand at other
registers, so that a message is routed and judged alike before and after its own flits are counted. -/

/-- The key is that of an event counter of some page. -/
def counterKey (key : Nat) : Prop := eventReg (key % 4096)

/-- t is s but for what flits change: event counters, and of Jorx not the records of other devices. -/
structure Traffic (s t : State) : Prop where
  links : s.linksIn t
  regs : RegsOff counterKey s t
  peers : t.jorx.peers = s.jorx.peers

theorem counterKey_rkey {k : PageKind} {i o : Nat} (ho : o < 4096) : counterKey (rkey k i o) ↔ eventReg o := by
  have : rkey k i o % 4096 = o := by unfold rkey; omega
  rw [counterKey, this]

@[simp] theorem State.count_jorx (s : State) (k : PageKind) (i ev n : Nat) : (s.count k i ev n).jorx = s.jorx :=
  (s.count_touch k i ev n).1.jorx

@[simp] theorem State.portCount_jorx (s : State) (i : PortIx) (ev n : Nat) : (s.portCount i ev n).jorx = s.jorx := by
  simp [State.portCount, State.jorxCount]

theorem State.port_modPort_same (s : State) (i : PortIx) (f : PortSt → PortSt) : (s.modPort i f).port i = f (s.port i) := by
  simp [State.port, State.modPort, State.modJorx]

theorem State.port_modPort_other (s : State) {i j : PortIx} (f : PortSt → PortSt) (h : j ≠ i) : (s.modPort i f).port j = s.port j := by
  have hne : i.val ≠ j.val := fun e => h (Fin.ext e.symm)
  simp [State.port, State.modPort, State.modJorx, Vector.getElem_set_ne, hne]

namespace Traffic

variable {s t u : State}

theorem trans (h1 : Traffic s t) (h2 : Traffic t u) : Traffic s u := by
  refine ⟨?_, h1.regs.trans h2.regs, h2.peers.trans h1.peers⟩
  have hlinks := h2.links
  unfold State.linksIn at *
  rw [hlinks, h1.links]

theorem modPort (s : State) (i : PortIx) (f : PortSt → PortSt) : Traffic s (s.modPort i f) := ⟨rfl, RegsOff.of_regs rfl, rfl⟩

theorem count (s : State) (k : PageKind) (i ev n : Nat) : Traffic s (s.count k i ev n) := by
  have counted := CountsOn.count s k i ev n
  refine ⟨?_, counted.2.mono fun _ hk => hk.2, by simp⟩
  unfold State.linksIn
  rw [counted.1]

theorem portCount (s : State) (i : PortIx) (ev n : Nat) : Traffic s (s.portCount i ev n) := (count s _ _ _ _).trans (count _ _ _ _ _)

theorem rxFlits (s : State) (i : PortIx) (n : Nat) : Traffic s (s.rxFlits i n) := (modPort s i _).trans (portCount _ _ _ _)

theorem sendOn (s : State) (i : PortIx) (m : Msg) : Traffic s (s.sendOn i m) := (modPort s i _).trans (portCount _ _ _ _)

theorem onlyRegs (h : Traffic s t) : s.onlyRegs t fun _ _ o => eventReg o :=
  fun k i o _ ho hn => h.regs.getR k i o fun hk => hn ((counterKey_rkey ho).1 hk)

/-! ### What a message is judged and routed by -/

theorem getR (h : Traffic s t) (k : PageKind) (i : Nat) {o : Nat} (ho : 0xC0 ≤ o) (ho' : o < 4096) : t.getR k i o = s.getR k i o :=
  h.regs.getR k i o fun hk => by have := ((counterKey_rkey ho').1 hk).2; omega

theorem getF (h : Traffic s t) (k : PageKind) (i hi lo : Nat) {o : Nat} (ho : 0xC0 ≤ o) (ho' : o < 4096) :
    t.getF k i o hi lo = s.getF k i o hi lo := by rw [State.getF, h.getR k i ho ho', State.getF]

theorem devId (h : Traffic s t) : t.devId = s.devId := h.getF _ _ _ _ (by omega) (by omega)

theorem devEpoch (h : Traffic s t) : t.devEpoch = s.devEpoch := h.getF _ _ _ _ (by omega) (by omega)

theorem idValid (h : Traffic s t) : t.idValid = s.idValid := by rw [State.idValid, State.bitR, h.getR _ _ (by omega) (by omega)]; rfl

theorem portUp (h : Traffic s t) (n : Nat) : t.portUp n = s.portUp n := by
  rw [State.portUp, State.portState, h.getF _ _ _ _ (by omega) (by omega)]; rfl

theorem panePort (h : Traffic s t) : t.panePort = s.panePort := by
  funext q
  rw [State.panePort, h.devId, State.panePort]

theorem via (h : Traffic s t) (q : Nat) : t.via q = s.via q := by
  rw [State.via, h.getF _ _ _ _ (by omega) (by omega), h.getF _ _ _ _ (by omega) (by omega), State.via]

theorem rtEntry (h : Traffic s t) (tsel : Bool) (pane : Nat) : t.rtEntry tsel pane = s.rtEntry tsel pane := h.getR _ _ (by omega) (by omega)

theorem hopOn (h : Traffic s t) (n : Nat) (dim : Option Nat) (avoid : Option PortIx) : t.hopOn n dim avoid = s.hopOn n dim avoid := by
  simp only [State.hopOn, h.portUp]

theorem route (h : Traffic s t) (src dst : Nat) (tsel : Bool) (avoid : Option PortIx) : t.route src dst tsel avoid = s.route src dst tsel avoid := by
  simp only [State.route, h.devId, h.via, h.panePort, h.rtEntry, h.hopOn]

theorem stale (h : Traffic s t) (m : Msg) : t.stale m = s.stale m := by
  simp only [State.stale, State.peer, h.peers, h.devEpoch]

end Traffic

/-! ## A message leaves (R357, R366) -/

theorem State.sendOn_sentOn (s : State) (i : PortIx) (m : Msg) : s.sentOn (s.sendOn i m) i m := by
  have port (j : PortIx) : (s.sendOn i m).port j = (s.modPort i fun p => p.push (msgVc m) (some m) (1 + bodyFlits m.head.len.toNat)).port j :=
    congrArg (fun x : JorxSt => x.ports[j]) (State.portCount_jorx _ i 1 _)
  exact ⟨(port i).trans (s.port_modPort_same i _), fun j hj => (port j).trans (s.port_modPort_other _ hj)⟩

/-- A message that has a route leaves by it, and nothing but its port and event counters changes. -/
theorem State.forwardMsg_routed (s : State) (m : Msg) {avoid : Option PortIx}
    (h : (s.route m.head.src.toNat m.head.dst.toNat m.head.tsel avoid).isSome = true) :
    s.leaves (s.forwardMsg m avoid).1 m avoid ∧ Traffic s (s.forwardMsg m avoid).1 := by
  obtain ⟨x, hx⟩ := Option.isSome_iff_exists.1 h
  have hsent : (s.forwardMsg m avoid).1 = s.sendOn x.port { m with head := s.hopHead m.head x } := by simp only [State.forwardMsg, hx]
  rw [hsent]
  exact ⟨⟨x, hx, s.sendOn_sentOn _ _⟩, .sendOn _ _ _⟩

/-- A message that has none is dropped where it stands. -/
theorem State.forwardMsg_unrouted (s : State) (m : Msg) {avoid : Option PortIx}
    (h : s.route m.head.src.toNat m.head.dst.toNat m.head.tsel avoid = none) : (s.forwardMsg m avoid).1 = s.count .jorx 0 9 1 := by
  simp only [State.forwardMsg, h]
  rfl

/-! ## What becomes of a message that arrives (R359, R360, R363, R366) -/

/-- A message that goes on from this device: it is for another one, and no link partner's. -/
def State.passesOn (s : State) (m : Msg) : Prop := m.head.dst.toNat ≠ s.devId ∧ Body.neighbour m.body = false

section Receive

variable (s : State) (i : PortIx) (m : Msg) (f : State → State)

theorem State.receive_down (h : s.portUp i.val = false) : s.receive i m f = s := by simp [State.receive, h]

/-- On a port that is UP, the flits of a message are counted first; what then becomes of it is decided as if they were not. -/
theorem State.receive_up (h : s.portUp i.val = true) :
    s.receive i m f =
      let u := s.rxFlits i (1 + bodyFlits m.head.len.toNat)
      if s.idValid = false then u
      else if m.head.dst.toNat ≠ s.devId ∧ Body.neighbour m.body = false then (u.forwardMsg m none).1
      else if s.stale m then u.portCount i 6 1
      else f u := by
  have counted := Traffic.rxFlits s i (1 + bodyFlits m.head.len.toNat)
  simp only [State.receive, h, counted.idValid, counted.devId, counted.stale, Bool.not_true, Bool.false_eq_true, if_false, Bool.not_eq_true']

variable (hup : s.portUp i.val = true)
include hup

theorem State.receive_noId (h : s.idValid = false) : s.receive i m f = s.rxFlits i (1 + bodyFlits m.head.len.toNat) := by
  rw [s.receive_up i m f hup]
  exact if_pos h

variable (hid : s.idValid = true)
include hid

theorem State.receive_passesOn (h : s.passesOn m) :
    s.receive i m f = ((s.rxFlits i (1 + bodyFlits m.head.len.toNat)).forwardMsg m none).1 := by
  rw [s.receive_up i m f hup]
  exact (if_neg (by simp [hid])).trans (if_pos h)

theorem State.receive_stale (h : ¬ s.passesOn m) (hs : s.stale m = true) :
    s.receive i m f = (s.rxFlits i (1 + bodyFlits m.head.len.toNat)).portCount i 6 1 := by
  rw [s.receive_up i m f hup]
  exact (if_neg (by simp [hid])).trans ((if_neg h).trans (if_pos hs))

theorem State.receive_taken (h : ¬ s.passesOn m) (hs : s.stale m = false) :
    s.receive i m f = f (s.rxFlits i (1 + bodyFlits m.head.len.toNat)) := by
  rw [s.receive_up i m f hup]
  exact (if_neg (by simp [hid])).trans ((if_neg h).trans (if_neg (by simp [hs])))

end Receive

theorem State.takesIn.not_passesOn {s u : State} {i : PortIx} {m : Msg} (h : s.takesIn i m u) : ¬ s.passesOn m := by
  rintro ⟨hdst, hbody⟩
  obtain ⟨-, -, hd | hn, -, -⟩ := h
  · exact hdst hd
  · simp [hn] at hbody

/-- A message that R360 lets in is handled. -/
theorem State.receive_takesIn {s u : State} {i : PortIx} {m : Msg} (f : State → State) (h : s.takesIn i m u) : s.receive i m f = f u := by
  have hpass := h.not_passesOn
  obtain ⟨hup, hid, -, hstale, rfl⟩ := h
  exact s.receive_taken i m f hup hid hpass hstale

/-! ## What R360 drops -/

/-- The record that a device keeps of SRC, or DEPOCH, is against the message. -/
def State.outdated (s : State) (m : Msg) : Prop :=
  (∃ e, s.peer m.head.src.toNat = some ⟨e, false⟩)
  ∨ (∃ e a, s.peer m.head.src.toNat = some ⟨e, a⟩ ∧ m.head.sepoch ≠ e) ∨ m.head.depoch.toNat ≠ s.devEpoch

theorem State.stale_iff (s : State) (m : Msg) : s.stale m = true ↔ Body.mgmt m.body = false ∧ s.outdated m := by
  unfold State.stale State.outdated
  cases hp : s.peer m.head.src.toNat with
  | none => simp
  | some p =>
    obtain ⟨e, a⟩ := p
    cases a <;> simp [eq_comm (a := m.head.sepoch)]

/-! ## The commands that bring a message -/

/-- Every one is a reception on its port. -/
theorem exec_commandMessage {c : Instr} {i : PortIx} {m : Msg} (h : commandMessage c = some (i, m)) :
    ∃ f, ∀ s, exec c s = .next (s.receive i m f) := by
  unfold commandMessage at h
  split at h
  case h_17 => cases h
  all_goals
    cases h
    exact ⟨_, fun _ => rfl⟩

/-- Beside a message on its way, one of a reserved type comes by BAD_MSG. -/
theorem commandMessage_reserved {c : Instr} {i : PortIx} {m : Msg} {typ : BitVec 8} (h : commandMessage c = some (i, m))
    (hb : m.body = .reserved typ) (hr : ∀ m', c ≠ .messageRoute i m') : c = .badMsg i m.head typ := by
  unfold commandMessage at h
  split at h
  case h_1 =>
    cases h
    exact absurd rfl (hr m)
  case h_2 =>
    cases h
    cases hb
    rfl
  case h_17 => cases h
  all_goals
    cases h
    cases hb

/-- Settles O39: each clause by the branch of the reception it names; routing and R360 do not see the count of the message's own flits. -/
theorem messagesRouted : Obligations.MessagesRouted := by
  intro s c i m hc u elsewhere exempt stale
  obtain ⟨f, hexec⟩ := exec_commandMessage hc
  have counted : Traffic s u := .rxFlits s i _
  have hexempt : exempt = Body.mgmt m.body := by
    simp only [exempt]
    cases m.body <;> rfl
  have hstale : s.stale m = true ↔ exempt = false ∧ stale := by rw [hexempt]; exact s.stale_iff m
  rw [hexec]
  refine ⟨fun hup => congrArg _ (s.receive_down i m f hup), fun hup hid => congrArg _ (s.receive_noId i m f hup hid),
    fun hup hid helse => ?_, fun hup hid hhere hex hst => congrArg _ (s.receive_stale i m f hup hid hhere (hstale.2 ⟨hex, hst⟩)),
    hstale, fun typ hbody hcmd htakes => ?_⟩
  · rw [s.receive_passesOn i m f hup hid helse, ← counted.route]
    refine ⟨fun hroute => ?_, fun hroute => congrArg _ (u.forwardMsg_unrouted m hroute)⟩
    obtain ⟨hleaves, sent⟩ := u.forwardMsg_routed m hroute
    exact ⟨_, rfl, hleaves, sent.links, sent.onlyRegs⟩
  · obtain rfl := commandMessage_reserved hc hbody hcmd
    obtain ⟨head, body⟩ := m
    cases hbody
    rw [← hexec]
    exact congrArg Host.Outcome.next (State.receive_takesIn (fun s => s.portCount i 0xA 1) htakes)

end Sys2Proof.Machine
end
